-- ==== Sys2Proof/Word.lean ====
section
/-! DEFINITION. The word types of the S9 (spec/02_bundles.md R23, R49): nothing here chooses a meaning. -/

namespace Sys2Proof

/-- A byte of any memory. -/
abbrev Byte := BitVec 8

/-- A 64-bit scalar, mailbox register, reply or memory word. -/
abbrev Word := BitVec 64

/-- A 512-bit vector register or operand latch. -/
abbrev Vec := BitVec 512

/-- A 16-bit predicate register. -/
abbrev Pred := BitVec 16

/-- A 32-bit tile element. -/
abbrev Half := BitVec 32

end Sys2Proof
end

