-- ==== Sys2Proof/Config.lean ====
section
/-! DEFINITION. Values that the spec leaves open: constants without a body, so that no proof can rest on one. -/

namespace Sys2Proof.Config

/-- The k-th free value of a stream: partition vf has the stream of its number, 0 being the package's own. A partition
draws its values in order (State.free counts them) wherever the spec gives a range of outcomes (00 R4) or no value at
all; nothing constrains them. No draw of one partition moves those of another (15 R338). Stream 2^40 + vf holds the read
cycles of the partition's mask requests (06 R175). -/
opaque freeWord : (stream k : Nat) → BitVec 64

/-- What the word at a physical address of another package holds as long as nothing known to this one has been written
there (10 R257). -/
opaque farWord : (pa : Nat) → BitVec 64

/-- What firmware's tables put into a word of a function's configuration space (15 R343). -/
opaque configWord : (fn off : Nat) → BitVec 64

/-- Whether the logic die of a counter-tree node keeps it among its verified nodes after a line access in a cycle (16
R356). -/
opaque nodeCached : (node cycle : Nat) → Bool

/-- The unit of a chrysalis store in which firmware holds a saved context (11 R296, 17 R378). -/
opaque storeUnit : (context : Nat) → BitVec 64

/-- The keystream and the tag that seal a gate's image under a session key (16 R371), for a nonce and a ciphertext: the
key is agreed between two management cores and is known to neither host nor guest, so nothing constrains them. -/
opaque sealStream : Nat → BitVec 512
opaque sealTag : Nat → BitVec 512 → BitVec 128

/-- The hash of an SPDM transcript, and the signatures of a hash by the keys of certificate slot 0 (RSA-3072) and of the
second identity (SLH-DSA) (19 R405): device keys are secret, so nothing constrains them. -/
opaque spdmHash : (transcript : Nat) → BitVec 384
opaque rsaSign : (hash : Nat) → BitVec 3072
opaque slhSign : (hash : Nat) → BitVec 129792

end Sys2Proof.Config
end

