-- ==== Sys2Proof/Syntax.lean ====
section
/-! DEFINITION. Every row of spec/opcode_table.json as one constructor of Instr.
Slot instructions carry the raw fields of their form (02 R39); the other rows are the events of the package
(95_what_each_step_holds.md), whose operands State.args holds while the event is carried out: identifiers, or data from
outside, listed here at each event in the order in which they stand there. -/

namespace Sys2Proof

/-- Form A of the S slot (R39): d [39:34], a [33:28], b [27:22], c [21:16], pred [15:13], funct [12:0]. -/
structure AOp where
  d : Nat := 0
  a : Nat := 0
  b : Nat := 0
  c : Nat := 0
  p : Nat := 0
  fn : Nat := 0
deriving DecidableEq, Repr

/-- Form I (R39): d, a and the 28 raw bits of imm28. -/
structure IOp where
  d : Nat := 0
  a : Nat := 0
  imm : Nat := 0
deriving DecidableEq, Repr

/-- Form K (R39): d and the 34 raw bits of imm34. -/
structure KOp where
  d : Nat := 0
  imm : Nat := 0
deriving DecidableEq, Repr

/-- Form J (R39): a, the reserved bits [33:24] and the 24 raw bits of offset24. -/
structure JOp where
  a : Nat := 0
  rsv : Nat := 0
  off : Nat := 0
deriving DecidableEq, Repr

/-- Form V (R39): d, a, b, c, pred, hold [12:10], type [9:6], round [5:4], funct [3:0]. -/
structure VOp where
  d : Nat := 0
  a : Nat := 0
  b : Nat := 0
  c : Nat := 0
  p : Nat := 0
  hold : Nat := 0
  ty : Nat := 0
  rm : Nat := 0
  fn : Nat := 0
deriving DecidableEq, Repr

/-- Form M (R39): acc [39:37], the scalars a [36:31], b [30:25], n [24:19], the sources sa [18:16] and
sb [15:13], flags fl [12:10] and funct [9:0]. -/
structure MOp where
  acc : Nat := 0
  a : Nat := 0
  b : Nat := 0
  n : Nat := 0
  sa : Nat := 0
  sb : Nat := 0
  fl : Nat := 0
  fn : Nat := 0
deriving DecidableEq, Repr

/-- Form L-A (R39): as form A with funct [12:3] and sz [2:0]. -/
structure LAOp where
  d : Nat := 0
  a : Nat := 0
  b : Nat := 0
  c : Nat := 0
  p : Nat := 0
  fn : Nat := 0
  sz : Nat := 0
deriving DecidableEq, Repr

/-- Form L-I (R39): d, a, sz [27:25] and the 25 raw bits of imm25. -/
structure LIOp where
  d : Nat := 0
  a : Nat := 0
  sz : Nat := 0
  imm : Nat := 0
deriving DecidableEq, Repr

/-- Form X (R39): as form A with funct [12:5] and idx [4:0]. -/
structure XOp where
  d : Nat := 0
  a : Nat := 0
  b : Nat := 0
  c : Nat := 0
  p : Nat := 0
  fn : Nat := 0
  idx : Nat := 0
deriving DecidableEq, Repr

/-- One constructor per row of the opcode table, the slot instructions and then the events, each in the table's order. -/
inductive Instr where
  /-- NOP: an empty slot. -/
  | nop
  /-- ADD (R100). -/
  | add (o : AOp)
  /-- SUB (R100). -/
  | sub (o : AOp)
  /-- AND (R100). -/
  | andS (o : AOp)
  /-- OR (R100). -/
  | orS (o : AOp)
  /-- XOR (R100). -/
  | xorS (o : AOp)
  /-- ANDN (R100). -/
  | andn (o : AOp)
  /-- SHL (R100). -/
  | shl (o : AOp)
  /-- SHR (R100). -/
  | shr (o : AOp)
  /-- SRA (R100). -/
  | sra (o : AOp)
  /-- ROL (R100). -/
  | rol (o : AOp)
  /-- MUL (R100). -/
  | mul (o : AOp)
  /-- MULH (R100). -/
  | mulh (o : AOp)
  /-- MULHN (R100). -/
  | mulhn (o : AOp)
  /-- DIV (R101). -/
  | div (o : AOp)
  /-- DIVN (R101). -/
  | divn (o : AOp)
  /-- REM (R101). -/
  | rem (o : AOp)
  /-- REMN (R101). -/
  | remn (o : AOp)
  /-- MIN (R100). -/
  | minS (o : AOp)
  /-- MAX (R100). -/
  | maxS (o : AOp)
  /-- MINN (R100). -/
  | minn (o : AOp)
  /-- MAXN (R100). -/
  | maxn (o : AOp)
  /-- CMPEQ (R100). -/
  | cmpeq (o : AOp)
  /-- CMPNE (R100). -/
  | cmpne (o : AOp)
  /-- CMPLT (R100). -/
  | cmplt (o : AOp)
  /-- CMPLTN (R100). -/
  | cmpltn (o : AOp)
  /-- SEL (R100). -/
  | sel (o : AOp)
  /-- CLZ (R100). -/
  | clz (o : AOp)
  /-- CTZ (R100). -/
  | ctz (o : AOp)
  /-- POPC (R100). -/
  | popc (o : AOp)
  /-- ADDSAT (R102). -/
  | addsat (o : AOp)
  /-- SUBSAT (R102). -/
  | subsat (o : AOp)
  /-- ADDX (R100). -/
  | addx (o : AOp)
  /-- ADDI (R103). -/
  | addi (o : IOp)
  /-- ANDI (R103). -/
  | andi (o : IOp)
  /-- ORI (R103). -/
  | ori (o : IOp)
  /-- XORI (R103). -/
  | xori (o : IOp)
  /-- SHLI (R103). -/
  | shli (o : IOp)
  /-- SHRI (R103). -/
  | shri (o : IOp)
  /-- SRAI (R103). -/
  | srai (o : IOp)
  /-- CMPEQI (R103). -/
  | cmpeqi (o : IOp)
  /-- CMPLTI (R103). -/
  | cmplti (o : IOp)
  /-- MULI (R103). -/
  | muli (o : IOp)
  /-- LI (R104). -/
  | liK (o : KOp)
  /-- LIH (R104). -/
  | lih (o : KOp)
  /-- EXTR (R105). -/
  | extr (o : AOp)
  /-- INSR (R105). -/
  | insr (o : AOp)
  /-- RHASH (R106). -/
  | rhash (o : AOp)
  /-- MOVC (R107). -/
  | movc (o : IOp)
  /-- MOVTC (R107). -/
  | movtc (o : IOp)
  /-- BR (R281). -/
  | br (o : JOp)
  /-- BZ (R281). -/
  | bz (o : JOp)
  /-- BNZ (R281). -/
  | bnz (o : JOp)
  /-- BLTZ (R281). -/
  | bltz (o : JOp)
  /-- BGEZ (R281). -/
  | bgez (o : JOp)
  /-- JR (R281). -/
  | jr (o : AOp)
  /-- CALL (R283). -/
  | call (o : JOp)
  /-- RET (R281). -/
  | ret (o : AOp)
  /-- LOOP (R284). -/
  | loop (o : JOp)
  /-- LOOPN (R284). -/
  | loopn (o : JOp)
  /-- SYNC (R279). -/
  | syncD (o : IOp)
  /-- SLEEPU (R285). -/
  | sleepu (o : AOp)
  /-- EXIT (R286). -/
  | exitT (o : AOp)
  /-- GNEXT (R277). -/
  | gnext (o : AOp)
  /-- TRAP (R397). -/
  | trap (o : IOp)
  /-- BRKPT (R397). -/
  | brkpt (o : IOp)
  /-- RESUME (R293). -/
  | resumeStub (o : AOp)
  /-- VADD (R116). -/
  | vadd (o : VOp)
  /-- VSUB (R116). -/
  | vsub (o : VOp)
  /-- VMUL (R116). -/
  | vmul (o : VOp)
  /-- VFMA (R116). -/
  | vfma (o : VOp)
  /-- VFNMA (R116). -/
  | vfnma (o : VOp)
  /-- VMIN (R118). -/
  | vmin (o : VOp)
  /-- VMAX (R118). -/
  | vmax (o : VOp)
  /-- VABS (R119). -/
  | vabs (o : VOp)
  /-- VNEG (R119). -/
  | vneg (o : VOp)
  /-- VAND (R120). -/
  | vand (o : VOp)
  /-- VOR (R120). -/
  | vor (o : VOp)
  /-- VXOR (R120). -/
  | vxor (o : VOp)
  /-- VSHL (R120). -/
  | vshl (o : VOp)
  /-- VSHR (R120). -/
  | vshr (o : VOp)
  /-- VSRA (R120). -/
  | vsra (o : VOp)
  /-- VADDS (R121). -/
  | vadds (o : VOp)
  /-- VSUBS (R121). -/
  | vsubs (o : VOp)
  /-- VMULH (R121). -/
  | vmulh (o : VOp)
  /-- VMULQ (R121). -/
  | vmulq (o : VOp)
  /-- VMACW (R122). -/
  | vmacw (o : VOp)
  /-- VDOT4 (R123). -/
  | vdot4 (o : VOp)
  /-- VDIV (R124). -/
  | vdiv (o : VOp)
  /-- VSQRT (R124). -/
  | vsqrt (o : VOp)
  /-- VRCP (R125). -/
  | vrcp (o : VOp)
  /-- VRSQ (R125). -/
  | vrsq (o : VOp)
  /-- VEXP2Q (R137). -/
  | vexp2q (o : VOp)
  /-- VCVT (R127). -/
  | vcvt (o : VOp)
  /-- VPACK (R128). -/
  | vpack (o : VOp)
  /-- VUNPK (R129). -/
  | vunpk (o : VOp)
  /-- VCMPEQ (R130). -/
  | vcmpeq (o : VOp)
  /-- VCMPNE (R130). -/
  | vcmpne (o : VOp)
  /-- VCMPLT (R130). -/
  | vcmplt (o : VOp)
  /-- VCMPLE (R130). -/
  | vcmple (o : VOp)
  /-- VCLASS (R131). -/
  | vclass (o : VOp)
  /-- PAND (R132). -/
  | pand (o : VOp)
  /-- POR (R132). -/
  | por (o : VOp)
  /-- PXOR (R132). -/
  | pxor (o : VOp)
  /-- PNOT (R132). -/
  | pnot (o : VOp)
  /-- PCNT (R132). -/
  | pcnt (o : VOp)
  /-- VRADD (R133). -/
  | vradd (o : VOp)
  /-- VRMAX (R133). -/
  | vrmax (o : VOp)
  /-- VRMIN (R133). -/
  | vrmin (o : VOp)
  /-- VPSUM (R134). -/
  | vpsum (o : VOp)
  /-- VFIND (R135). -/
  | vfind (o : VOp)
  /-- VPERM (R136). -/
  | vperm (o : VOp)
  /-- VSPLAT (R136). -/
  | vsplat (o : VOp)
  /-- VINS (R136). -/
  | vins (o : VOp)
  /-- VEXT (R136). -/
  | vext (o : VOp)
  /-- VSEL (R136). -/
  | vsel (o : VOp)
  /-- VSLIDE (R136). -/
  | vslide (o : VOp)
  /-- MFMT (R155). -/
  | mfmt (o : MOp)
  /-- MMA (R156). -/
  | mma (o : MOp)
  /-- MMAZ (R156). -/
  | mmaz (o : MOp)
  /-- MMAS (R156). -/
  | mmas (o : MOp)
  /-- MMASZ (R156). -/
  | mmasz (o : MOp)
  /-- MHAD (R157). -/
  | mhad (o : MOp)
  /-- MDRAIN (R159). -/
  | mdrain (o : MOp)
  /-- MDRAINV (R160). -/
  | mdrainv (o : MOp)
  /-- MZERO (R161). -/
  | mzero (o : MOp)
  /-- MLDACC (R161). -/
  | mldacc (o : MOp)
  /-- MSTACC (R161). -/
  | mstacc (o : MOp)
  /-- MSEED (R162). -/
  | mseed (o : MOp)
  /-- LD (R211). -/
  | ldL (o : LIOp)
  /-- ST (R211). -/
  | stL (o : LIOp)
  /-- VLD (R211). -/
  | vld (o : LIOp)
  /-- VST (R211). -/
  | vst (o : LIOp)
  /-- VLDS (R212). -/
  | vlds (o : LAOp)
  /-- VSTS (R212). -/
  | vsts (o : LAOp)
  /-- VGATH (R212). -/
  | vgath (o : LAOp)
  /-- VSCAT (R212). -/
  | vscat (o : LAOp)
  /-- PLD (R214). -/
  | pld (o : LIOp)
  /-- PST (R214). -/
  | pst (o : LIOp)
  /-- VLDP (R214). -/
  | vldp (o : LIOp)
  /-- LDP (R215). -/
  | ldp (o : LIOp)
  /-- VLDW (R215). -/
  | vldw (o : LIOp)
  /-- ATADD (R216). -/
  | atadd (o : LAOp)
  /-- ATMIN (R216). -/
  | atmin (o : LAOp)
  /-- ATMAX (R216). -/
  | atmax (o : LAOp)
  /-- ATAND (R216). -/
  | atand (o : LAOp)
  /-- ATOR (R216). -/
  | ator (o : LAOp)
  /-- ATXOR (R216). -/
  | atxor (o : LAOp)
  /-- ATSWP (R216). -/
  | atswp (o : LAOp)
  /-- ATCAS (R216). -/
  | atcas (o : LAOp)
  /-- TAKE (R218). -/
  | takeW (o : LAOp)
  /-- PUT (R218). -/
  | putW (o : LAOp)
  /-- FULLQ (R218). -/
  | fullq (o : LAOp)
  /-- EMPTYW (R218). -/
  | emptyw (o : LAOp)
  /-- CPIN (R220). -/
  | cpin (o : LAOp)
  /-- CPOUT (R220). -/
  | cpout (o : LAOp)
  /-- CPIN2 (R221). -/
  | cpin2 (o : LAOp)
  /-- CPOUT2 (R221). -/
  | cpout2 (o : LAOp)
  /-- CPW (R224). -/
  | cpw (o : LAOp)
  /-- CPRED (R223). -/
  | cpred (o : LAOp)
  /-- CPFILL (R224). -/
  | cpfill (o : LAOp)
  /-- MASKQ (R171). -/
  | maskq (o : LAOp)
  /-- FENCE (R230). -/
  | fence (o : LAOp)
  /-- FLUSHSIG (R231). -/
  | flushsig (o : LAOp)
  /-- SIGSET (R232). -/
  | sigset (o : LAOp)
  /-- SIGW (R233). -/
  | sigw (o : LAOp)
  /-- EPOP (R53). -/
  | epop (o : LAOp)
  /-- PRLD (R237). -/
  | prld (o : LAOp)
  /-- PRST (R237). -/
  | prst (o : LAOp)
  /-- WINRD (R238). -/
  | winrd (o : LAOp)
  /-- WINWR (R238). -/
  | winwr (o : LAOp)
  /-- SEND (R234). -/
  | send (o : XOp)
  /-- MBCLR (R236). -/
  | mbclr (o : XOp)
  /-- GSIG (R368). -/
  | gsig (o : XOp)
  /-- GWAIT (R368). -/
  | gwait (o : XOp)
  /-- GPOLL (R368). -/
  | gpoll (o : XOp)
  /-- GREAD (R368). -/
  | gread (o : XOp)
  /-- BUNDLE_ISSUE (R57): the turn of the thread that State.cur names. -/
  | bundleIssue
  /-- SLEEPU_WAKE (R285): MER reaches the sleep target of thread t. Operands: t. -/
  | sleepuWake
  /-- MATRIX_COMMAND_START (R145): command id of thread t reaches its first owned cycle. Operands: t, id. -/
  | matrixCommandStart
  /-- MATRIX_COMMAND_COMPLETE (R147): command id of thread t reaches its completion cycle. Operands: t, id. -/
  | matrixCommandComplete
  /-- PEER_BANK_ACCESS (R214): peer access op reaches its bank cycle. Operands: op. -/
  | peerBankAccess
  /-- REGISTER_RESULT_LAND (R55): results of thread t that are due land. Operands: t. -/
  | registerResultLand
  /-- COPY_TRANSLATE (R201): device page number page of request op is translated. Operands: op, page. -/
  | copyTranslate
  /-- COPY_COMPLETE (R226): request op completes if its accesses are done. Operands: op. -/
  | copyComplete
  /-- MASK_ACCEPT (R171): the mask engine accepts request op. Operands: op. -/
  | maskAccept
  /-- MASK_COMPLETE (R172): mask request op is complete. Operands: op. -/
  | maskComplete
  /-- FLUSH_TOKEN_ARRIVE (R231): the flush token of die arrives for FLUSHSIG op. Operands: op, die. -/
  | flushTokenArrive
  /-- PRIVILEGED_REPLY (R406): the reply of privileged operation op arrives. Operands: op. -/
  | privilegedReply
  /-- PRIVILEGED_UNREACHABLE_TIMEOUT (R406): privileged operation op found no route for 1 ms. Operands: op. -/
  | privilegedUnreachableTimeout
  /-- MESSAGE_ARRIVE (R182): message m reaches its receiver. Operands: m. -/
  | messageArrive
  /-- MESSAGE_RETRY (R235): held message m is offered again. Operands: m. -/
  | messageRetry
  /-- SEND_WINDOW_RETURN (R235): an acknowledgement returns a unit of the window. Operands: src, dst, vf. -/
  | sendWindowReturn
  /-- GREAD_RETURN (R368): the counter value of GREAD op returns. Operands: op. -/
  | greadReturn
  /-- GATE_SIGNAL_REQUEST (R365): signal request op reaches the gate unit. Operands: op. -/
  | gateSignalRequest
  /-- GATE_TOKEN_ADD (R365): a token interval of gate g ends. Operands: g. -/
  | gateTokenAdd
  /-- GATE_COUNTER_INCREMENT (R365): the granted request op has its covered writes performed. Operands: op. -/
  | gateCounterIncrement
  /-- GATE_MIRROR_UPDATE (R364): counter value v of gate g lands in the mirror of die. Operands: die, g, v. -/
  | gateMirrorUpdate
  /-- LINE_READ (R357): device word number part of request op is read at its home. Operands: op, part. -/
  | lineRead
  /-- LINE_WRITE (R358): device line number part of request op is written at its home. Operands: op, part. -/
  | lineWrite
  /-- FLIT_RECEIVE (R253): the flit that carries message m arrives at its destination die. Operands: m. -/
  | flitReceive
  /-- CXL_MEM_REQUEST (R29): the host reads (wr = 0) or writes a line of device memory. Operands: wr, pa, key, data, poisoned. -/
  | cxlMemRequest
  /-- ROUTE_LOSS_TIMEOUT (R258): no route to the remote home of request op for 1 ms. Operands: op. -/
  | routeLossTimeout
  /-- KICK (R303): the host writes v to KICK of queue q. Operands: vf, q, v. -/
  | kick
  /-- QCFG_WRITE (R301): the host writes v to QCFG of queue q. Operands: vf, q, v. -/
  | qcfgWrite
  /-- REGISTER_WRITE (R343): the host writes v at BAR 0 offset off of function f. Operands: f, off, v. -/
  | registerWrite
  /-- RUN (R304): the RUN record of graph run g starts. Operands: g. -/
  | runRec
  /-- MARK (R304): the MARK record g completes. Operands: g. -/
  | markRec
  /-- PASID_INVALIDATION (R322): the host IOMMU invalidates the PASID of queue q. Operands: vf, q. -/
  | pasidInvalidation
  /-- NODE_START (R318): a ready node is started (node n of graph run g). Operands: g, n. -/
  | nodeStart
  /-- JOIN_NODE (R311): a JOIN node runs (node n of graph run g). Operands: g, n. -/
  | joinNode
  /-- LAUNCH_NODE (R311): a LAUNCH node reads and checks its record (node n of graph run g). Operands: g, n. -/
  | launchNode
  /-- LAUNCH_POPULATE (R316): the launch populates its contexts (node n of graph run g). Operands: g, n. -/
  | launchPopulate
  /-- GANG_START (R274): the start cycle of launch l is reached. Operands: l. -/
  | gangStart
  /-- LAUNCH_COMPLETE (R321): launch l completes if R321 holds. Operands: l. -/
  | launchComplete
  /-- COPY_NODE (R407): a COPY node runs (node n of graph run g). Operands: g, n. -/
  | copyNode
  /-- SIGNAL_NODE (R311): a SIGNAL node runs (node n of graph run g). Operands: g, n. -/
  | signalNode
  /-- WAIT_NODE (R311): a WAIT node runs (node n of graph run g). Operands: g, n. -/
  | waitNode
  /-- WAIT_NODE_TIMEOUT (R311): the timeout of a WAIT node expires (node n of graph run g). Operands: g, n. -/
  | waitNodeTimeout
  /-- COND_NODE (R311): a COND node runs (node n of graph run g). Operands: g, n. -/
  | condNode
  /-- LOOP_NODE (R312): a LOOP node runs (node n of graph run g). Operands: g, n. -/
  | loopNode
  /-- COLL_NODE (R311): a COLL node runs (node n of graph run g). Operands: g, n. -/
  | collNode
  /-- PORT_NODE (R311): a PORT node runs (node n of graph run g). Operands: g, n. -/
  | portNode
  /-- MASK_NODE (R311): a MASK node runs (node n of graph run g). Operands: g, n. -/
  | maskNode
  /-- CROSS_DIE_EDGE (R320): edge k of node src of graph run g is carried to another die. Operands: g, src, k. -/
  | crossDieEdge
  /-- DETERMINISTIC_DECISION (R319): the decision cycle of a deterministic node (node n of graph run g). Operands: g, n. -/
  | deterministicDecision
  /-- RING_DOORBELL (R259): the engine of ring r observes its doorbell. Operands: r. -/
  | ringDoorbell
  /-- HOSTRD (R261): the engine record op is carried out. Operands: op. -/
  | hostrd
  /-- HOSTWR (R261): the engine record op is carried out. Operands: op. -/
  | hostwr
  /-- RDMAWR (R261): the engine record op is carried out. Operands: op. -/
  | rdmawr
  /-- RDMARD (R261): the engine record op is carried out. Operands: op. -/
  | rdmard
  /-- ALLRED (R263): the engine record op is carried out. Operands: op. -/
  | allred
  /-- REDSCAT (R263): the engine record op is carried out. Operands: op. -/
  | redscat
  /-- ALLGATH (R263): the engine record op is carried out. Operands: op. -/
  | allgath
  /-- BCAST (R263): the engine record op is carried out. Operands: op. -/
  | bcast
  /-- ENGINE_RECORD_COMPLETE (R260): the engine writes the status of record op. Operands: op. -/
  | engineRecordComplete
  /-- ENGINE_RECORD_TIMEOUT (R260): a peer or rank of record op did not respond within 10 ms. Operands: op. -/
  | engineRecordTimeout
  /-- LAYOUT (R348): the command in the mailbox of function f (0 is the PF). Operands: f. -/
  | layoutCmd
  /-- SETMODE (R342): the command in the mailbox of function f (0 is the PF). Operands: f. -/
  | setmode
  /-- MAPRANGE (R342): the command in the mailbox of function f (0 is the PF). Operands: f. -/
  | maprange
  /-- MAPPAGE (R408): the command in the mailbox of function f (0 is the PF). Operands: f. -/
  | mappage
  /-- GSWITCH (R352): the command in the mailbox of function f (0 is the PF). Operands: f. -/
  | gswitch
  /-- SLICE (R347): the command in the mailbox of function f (0 is the PF). Operands: f. -/
  | sliceCmd
  /-- BIND (R373): the command in the mailbox of function f (0 is the PF). Operands: f. -/
  | bindCmd
  /-- RELEASE (R374): the command in the mailbox of function f (0 is the PF). Operands: f. -/
  | releaseCmd
  /-- FAULTRING (R396): the command in the mailbox of function f (0 is the PF). Operands: f. -/
  | faultring
  /-- KEYNEW (R370): the command in the mailbox of function f (0 is the PF). Operands: f. -/
  | keynew
  /-- WADMIT (R359): the command in the mailbox of function f (0 is the PF). Operands: f. -/
  | wadmit
  /-- WREVOKE (R360): the command in the mailbox of function f (0 is the PF). Operands: f. -/
  | wrevoke
  /-- GCREATE (R370): the command in the mailbox of function f (0 is the PF). Operands: f. -/
  | gcreate
  /-- GACL (R369): the command in the mailbox of function f (0 is the PF). Operands: f. -/
  | gacl
  /-- GFREE (R369): the command in the mailbox of function f (0 is the PF). Operands: f. -/
  | gfree
  /-- GVIEW (R370): the command in the mailbox of function f (0 is the PF). Operands: f. -/
  | gview
  /-- GEXPORT (R371): the command in the mailbox of function f (0 is the PF). Operands: f. -/
  | gexport
  /-- GIMPORT (R371): the command in the mailbox of function f (0 is the PF). Operands: f. -/
  | gimport
  /-- DOMJOIN (R267): the command in the mailbox of function f (0 is the PF). Operands: f. -/
  | domjoin
  /-- DOMKEY (R267): the command in the mailbox of function f (0 is the PF). Operands: f. -/
  | domkey
  /-- GROUPSET (R267): the command in the mailbox of function f (0 is the PF). Operands: f. -/
  | groupset
  /-- QPCREATE (R267): the command in the mailbox of function f (0 is the PF). Operands: f. -/
  | qpcreate
  /-- QPDESTROY (R267): the command in the mailbox of function f (0 is the PF). Operands: f. -/
  | qpdestroy
  /-- AGREEMENT_TIMEOUT (R267): the command in the mailbox of function f (0 is the PF). Operands: f. -/
  | agreementTimeout
  /-- FLASH_UPDATE (R403): the PF mailbox rewrites flash item; good = 1 when the new copy verifies. Operands: item, good. -/
  | flashUpdate
  /-- FEATURE_LOCK (R345): the driver writes v to FCTL of a VF. Operands: vf, v. -/
  | featureLock
  /-- LOCK_INTERFACE (R346): TDISP message or reset of a VF. Operands: vf. -/
  | lockInterface
  /-- STOP_INTERFACE (R346): TDISP message or reset of a VF. Operands: vf. -/
  | stopInterface
  /-- MEASUREMENTS (R405): an SPDM MEASUREMENTS request. Operands: nonce. -/
  | measurements
  /-- VENDOR_DEFINED_REQUEST (R405): an SPDM VENDOR_DEFINED_REQUEST. Operands: nonce. -/
  | vendorDefinedRequest
  /-- PREEMPTION_REQUEST (R294): firmware requests pre-emption of a partition. Operands: vf, why. -/
  | preemptionRequest
  /-- CONTEXT_SAVE (R295): the contexts of a stopped partition are saved if R294 holds. Operands: vf. -/
  | contextSave
  /-- PARTITION_RESUME (R297): the resume cycle of a partition. Operands: vf. -/
  | partitionResume
  /-- SLICE_END (R347): the slice of a sliced partition ends. Operands: vf. -/
  | sliceEnd
  /-- KEYZ_ZEROISE (R376): a KEYZ write with FREE = 0 takes effect. Operands: op, v. -/
  | keyzZeroise
  /-- KEYZ_FREE (R376): a KEYZ write with FREE = 1 takes effect. Operands: op, v. -/
  | keyzFree
  /-- BNDREQ_BIND (R373): a BNDREQ bind takes effect. Operands: op, v. -/
  | bndreqBind
  /-- BNDREQ_RELEASE (R373): a BNDREQ release takes effect. Operands: op, v. -/
  | bndreqRelease
  /-- SCRUB_START (R380): a write v of SCCTL(j). Operands: op, j, v. -/
  | scrubStart
  /-- SCRUB_GRANULE (R381): the scrub engine of stack j finishes a granule. Operands: j. -/
  | scrubGranule
  /-- BZERO (R378): a write v of BZERO(d, c). Operands: op, d, c, v. -/
  | bzero
  /-- CHZERO (R378): a write v of CHZERO(d). Operands: op, d, v. -/
  | chzero
  /-- TQPOP (R392): a write of TQPOP of collector col. Operands: op, col. -/
  | tqpop
  /-- TQOVFN_CLEAR (R392): a write of 0 to TQOVFN of collector col. Operands: op, col. -/
  | tqovfnClear
  /-- CONTINUE (R393): a SUPCMD write v at collector col. Operands: op, col, v. -/
  | supContinue
  /-- RESTART (R291): a SUPCMD write v at collector col. Operands: op, col, v. -/
  | supRestart
  /-- KILL (R393): a SUPCMD write v at collector col. Operands: op, col, v. -/
  | supKill
  /-- STOP (R393): a SUPCMD write v at collector col. Operands: op, col, v. -/
  | supStop
  /-- BAD_ACTION (R393): a SUPCMD write v at collector col. Operands: op, col, v. -/
  | badAction
  /-- REPLAYPG_REPLAY (R395): a REPLAYPG write v with bit 0 clear. Operands: op, col, v. -/
  | replaypgReplay
  /-- REPLAYPG_UNFIXABLE (R395): a REPLAYPG write v with bit 0 set. Operands: op, col, v. -/
  | replaypgUnfixable
  /-- FAULT_RECORD_ARRIVE (R391): the oldest packet under way to collector col arrives. Operands: col. -/
  | faultRecordArrive
  /-- FAULT_DEADLINE_EXPIRE (R396): the deadline of an XLATE entry passes. Operands: vf, sub, page. -/
  | faultDeadlineExpire
  /-- INVALIDATION_COMPLETE (R201): invalidation k completes if R201 holds. Operands: k. -/
  | invalidationComplete
  /-- THERMAL_WARN (R35): die reaches 95 degrees. Operands: die. -/
  | thermalWarn
  /-- THERMAL_TRIP (R35): die reaches 105 degrees. Operands: die. -/
  | thermalTrip
  /-- COOLANT_FLOW_LOSS (R35): package event. -/
  | coolantFlowLoss
  /-- LINK_DELIVERY_FAILURE (R399): package event. -/
  | linkDeliveryFailure
  /-- SENSOR_REFRESH (R344): package event. -/
  | sensorRefresh
  /-- COLD_RESET (R401): package event. -/
  | coldReset
  /-- WARM_RESET (R401): package event. -/
  | warmReset
  /-- MANAGEMENT_RESTART (R402): package event. -/
  | managementRestart
  /-- DIE_FIRMWARE_RESTART (R402): the firmware watchdog of a die expires. Operands: die. -/
  | dieFirmwareRestart
  /-- FUNCTION_LEVEL_RESET (R350): TDISP message or reset of a VF. Operands: vf. -/
  | functionLevelReset
  /-- REPLY_ENTRY_AVAILABLE (R225): an entry of reply queue q of thread t becomes available. Operands: t, q. -/
  | replyEntryAvailable
  /-- START_INTERFACE (R346): TDISP message or reset of a VF. Operands: vf. -/
  | startInterface
  /-- IDE_MAC_FAILURE (R398): a TLP of an IDE stream fails its MAC. Operands: stream. -/
  | ideMacFailure
  /-- SOFT_ERROR (R204): a stored item is corrupted of itself. Operands: kind, a, b. -/
  | softError
  /-- MEMBER_AGREEMENT (R267): package pkg agrees (ok = 1) or fails attestation (ok = 0) for the command of function f. Operands: f, pkg, ok. -/
  | memberAgreement
  /-- UNASSIGNED_MAILBOX_OPCODE (R342): the command in the mailbox of function f (0 is the PF). Operands: f. -/
  | unassignedMailboxOpcode
deriving DecidableEq, Repr

/-- A decoded bundle (R36): its header bits and the instruction of each slot, `.nop` in an empty one. -/
structure Bundle where
  sw : Bool := false
  sp : Bool := false
  spx : Nat := 0
  sS : Instr := .nop
  sV : Instr := .nop
  sM : Instr := .nop
  sL : Instr := .nop
  sX : Instr := .nop
deriving DecidableEq, Repr

/-- The five slots of a bundle (R36). -/
inductive Slot where
  | S | V | M | L | X
deriving DecidableEq, Repr

end Sys2Proof
end

