-- ==== Sys2Proof/Machine/Encoding.lean ====
section
/-! DEFINITION. The encoding conditions of decode that one slot alone decides (02 R62 causes 2 to 5), as a check on
the fields of each instruction, and the opcode map (R67). -/

namespace Sys2Proof.Machine

open Sys2Proof

/-- The lowest cause number among the conditions of causes 2, 3, 4 and 5 that hold (R65). -/
def lowestCause (c2 c3 c4 c5 : Bool) : Option Nat :=
  if c2 then some 2 else if c3 then some 3 else if c4 then some 4 else if c5 then some 5 else none

/-- A field that the instruction does not use must be zero (R41). -/
def unused (used : Bool) (x : Nat) : Bool := !used && x != 0

/-- A scalar destination code 32 to 63 is out of range (R42). -/
def badSDst (d : Nat) : Bool := 32 <= d

/-- A vector code 48 to 63 is out of range (R44). -/
def badVec (v : Nat) : Bool := 48 <= v

/-- A predicate operand code 8 to 63 is out of range (R45). -/
def badPOpd (p : Nat) : Bool := 8 <= p

/-- A predicate destination is p1 to p7 (R45). -/
def badPDst (p : Nat) : Bool := p == 0 || 8 <= p

/-- Form A: which of d, a, b, c are used, and whether funct is acceptable. -/
def causeA (o : AOp) (uD uA uB uC fnOk : Bool) : Option Nat :=
  lowestCause (unused uD o.d || unused uA o.a || unused uB o.b || unused uC o.c || !fnOk)
    (uD && badSDst o.d) false false

/-- Form I with an immediate that the instruction limits. -/
def causeI (o : IOp) (uD uA immOk : Bool) : Option Nat :=
  lowestCause (unused uD o.d || unused uA o.a || !immOk) (uD && badSDst o.d) false false

/-- Form J. -/
def causeJ (o : JOp) (uA : Bool) : Option Nat :=
  lowestCause (unused uA o.a || o.rsv != 0) false false false

/-- The role of a form V field (R113). -/
inductive Role where
  | v | s | p | none
deriving DecidableEq, Repr

/-- A used source field whose code is out of range for its role. -/
def badSrc (r : Role) (held : Bool) (x : Nat) : Bool :=
  match r with
  | .v => !held && badVec x
  | .s => false
  | .p => badPOpd x
  | .none => false

/-- A destination field whose code is out of range for its role. -/
def badDst (r : Role) (x : Nat) : Bool :=
  match r with
  | .v => badVec x
  | .s => badSDst x
  | .p => badPDst x
  | .none => false

/-- A hold bit may be set only for a field of role v, which must then be zero (R60, R113). -/
def badHold (r : Role) (held : Bool) (x : Nat) : Bool := held && (r != .v || x != 0)

/-- The hold bits of a form V field triple: [12] is A, [11] is B, [10] is C (R60). -/
def holdA (o : VOp) : Bool := o.hold / 4 % 2 == 1
def holdB (o : VOp) : Bool := o.hold / 2 % 2 == 1
def holdC (o : VOp) : Bool := o.hold % 2 == 1

/-- Element width of a type code (R47); codes 11 to 15 are reserved. -/
def tyWidth (t : Nat) : Nat :=
  match t with
  | 0 => 8 | 1 => 16 | 2 => 32 | 3 => 64 | 4 => 8 | 5 => 16 | 6 => 32 | 7 => 64
  | 8 => 32 | 9 => 16 | 10 => 16 | _ => 8

/-- Type codes 8 to 10 are floating (R47). -/
def tyFloat (t : Nat) : Bool := 8 <= t && t <= 10

/-- Type codes 0 to 3 are signed integers (R47). -/
def tySigned (t : Nat) : Bool := t <= 3

/-- Type codes 0 to 7 are integers (R47). -/
def tyInt (t : Nat) : Bool := t <= 7

/-- Every assigned type code. -/
def tyAll (t : Nat) : Bool := t <= 10

/-- Which rounding codes an instruction allows (R114). -/
inductive RoundUse where
  | any | noRSR | zero
deriving DecidableEq, Repr

/-- A rounding code that the row does not allow; integer types allow only 0. -/
def badRound (u : RoundUse) (t rm : Nat) : Bool :=
  match u with
  | .any => !tyFloat t && rm != 0
  | .noRSR => (!tyFloat t && rm != 0) || rm == 2
  | .zero => rm != 0

/-- Form V: roles of d, a, b, c, acceptable types, use of round, acceptable funct (R113 to R115). -/
def causeV (o : VOp) (rd ra rb rc : Role) (tyOk : Bool) (ru : RoundUse) (fnOk : Bool) : Option Nat :=
  lowestCause
    (unused (ra != .none) o.a || unused (rb != .none) o.b || unused (rc != .none) o.c
      || badHold ra (holdA o) o.a || badHold rb (holdB o) o.b || badHold rc (holdC o) o.c || !fnOk)
    (badDst rd o.d || badSrc ra (holdA o) o.a || badSrc rb (holdB o) o.b || badSrc rc (holdC o) o.c)
    (!tyOk || badRound ru o.ty o.rm) false

/-- The round field of a conversion from type s to type t (R126): any when a floating type takes part. -/
def badConvRound (t s rm : Nat) : Bool := !(tyFloat t || tyFloat s) && rm != 0

/-- The conversions (R126 to R128), funct being the source type. -/
def causeConv (o : VOp) (rb : Role) (pairOk : Bool) : Option Nat :=
  lowestCause
    (unused (rb != .none) o.b || o.c != 0 || badHold .v (holdA o) o.a || badHold rb (holdB o) o.b || (holdC o))
    (badVec o.d || badSrc .v (holdA o) o.a || badSrc rb (holdB o) o.b)
    (!tyAll o.ty || !tyAll o.fn || !pairOk || badConvRound o.ty o.fn o.rm) false

/-- The source and destination types that VUNPK allows (R129). -/
def unpkPair (s t : Nat) : Bool :=
  match s with
  | 0 => t == 1 || t == 9 || t == 10
  | 4 => t == 5 || t == 1 || t == 9 || t == 10
  | 1 => t == 2 || t == 8
  | 5 => t == 6 || t == 2 || t == 8
  | 2 => t == 3
  | 6 => t == 7 || t == 3
  | 9 => t == 8
  | 10 => t == 8
  | _ => false

/-- VUNPK: the round field is the half selector (R129). -/
def causeUnpk (o : VOp) : Option Nat :=
  lowestCause (o.b != 0 || o.c != 0 || badHold .v (holdA o) o.a || (holdB o) || (holdC o))
    (badVec o.d || badSrc .v (holdA o) o.a) (!unpkPair o.fn o.ty || 2 <= o.rm) false

/-- A source code 6 or 7 of the matrix unit is not assigned (R141). -/
def badSource (x : Nat) : Bool := 6 <= x

/-- A destination code of MDRAIN and MSTACC: the weight store is never one (R154). -/
def badDest (x : Nat) : Bool := x == 4 || 6 <= x

/-- The permitted format contexts (R139). -/
def fmtOk (atype btype acct : Nat) : Bool :=
  (atype <= 2 && btype <= 2) || (atype == 3 && btype == 3 && acct == 0)

/-- The MMA family (R154): the sparse and accumulate flags are fixed by the opcode. -/
def causeMma (o : MOp) (flags : Nat) : Option Nat :=
  lowestCause (badSource o.sa || badSource o.sb || o.fl / 2 != flags || o.fn != 0) (2 <= o.acc) false false

/-- The other M-slot instructions. -/
def causeM (o : MOp) (uAcc uA uB uN : Bool) (saOk flOk fnOk vec fmt : Bool) : Option Nat :=
  lowestCause (unused uAcc o.acc || unused uA o.a || unused uB o.b || unused uN o.n || !saOk || o.sb != 0
      || o.fl != 0 || !flOk || !fnOk)
    ((uAcc && 2 <= o.acc) || (vec && badVec o.a)) (!fmt) false

/-- Form L-I: the role of d (written or read), and the sizes allowed (R207). -/
def causeLI (szOk bad : Bool) : Option Nat := lowestCause false bad (!szOk) false

/-- Form L-A (R207). -/
def causeLA (o : LAOp) (uD uA uB uC : Bool) (fnOk bad szOk : Bool) : Option Nat :=
  lowestCause (unused uD o.d || unused uA o.a || unused uB o.b || unused uC o.c || !fnOk) bad (!szOk) false

/-- The types of CPRED (R223). -/
def predType (t : Nat) : Bool := t == 2 || t == 3 || t == 6 || t == 7 || t == 8 || t == 9

/-- Form X (R208, R366). -/
def causeX (o : XOp) (uD uA uB uIdx : Bool) : Option Nat :=
  lowestCause (unused uD o.d || unused uA o.a || unused uB o.b || o.c != 0 || unused uIdx o.idx || o.fn != 0)
    (uD && badSDst o.d) false false

/-- The lowest cause of 2 to 5 that the fields of a slot instruction meet; an event is no slot instruction, and
answers with cause 1. -/
def slotCause (i : Instr) : Option Nat :=
  match i with
  | .nop => none
  | .add o => causeA o true true true false (o.fn == 0)
  | .sub o => causeA o true true true false (o.fn == 0)
  | .andS o => causeA o true true true false (o.fn == 0)
  | .orS o => causeA o true true true false (o.fn == 0)
  | .xorS o => causeA o true true true false (o.fn == 0)
  | .andn o => causeA o true true true false (o.fn == 0)
  | .shl o => causeA o true true true false (o.fn == 0)
  | .shr o => causeA o true true true false (o.fn == 0)
  | .sra o => causeA o true true true false (o.fn == 0)
  | .rol o => causeA o true true true false (o.fn == 0)
  | .mul o => causeA o true true true false (o.fn == 0)
  | .mulh o => causeA o true true true false (o.fn == 0)
  | .mulhn o => causeA o true true true false (o.fn == 0)
  | .div o => causeA o true true true false (o.fn == 0)
  | .divn o => causeA o true true true false (o.fn == 0)
  | .rem o => causeA o true true true false (o.fn == 0)
  | .remn o => causeA o true true true false (o.fn == 0)
  | .minS o => causeA o true true true false (o.fn == 0)
  | .maxS o => causeA o true true true false (o.fn == 0)
  | .minn o => causeA o true true true false (o.fn == 0)
  | .maxn o => causeA o true true true false (o.fn == 0)
  | .cmpeq o => causeA o true true true false (o.fn == 0)
  | .cmpne o => causeA o true true true false (o.fn == 0)
  | .cmplt o => causeA o true true true false (o.fn == 0)
  | .cmpltn o => causeA o true true true false (o.fn == 0)
  | .rhash o => causeA o true true true false (o.fn == 0)
  | .sel o => causeA o true true true true (o.fn == 0)
  | .clz o => causeA o true true false false (o.fn == 0)
  | .ctz o => causeA o true true false false (o.fn == 0)
  | .popc o => causeA o true true false false (o.fn == 0)
  | .addsat o => causeA o true true true false (decide (o.fn < 2))
  | .subsat o => causeA o true true true false (decide (o.fn < 2))
  | .addx o => causeA o true true true false (decide (o.fn < 8))
  | .extr o => causeA o true true false false true
  | .insr o => causeA o true true false false (decide (o.fn < 4096))
  | .jr o => causeA o false true false false (o.fn == 0)
  | .sleepu o => causeA o false true false false (o.fn == 0)
  | .ret o => causeA o false false false false (o.fn == 0)
  | .exitT o => causeA o false false false false (o.fn == 0)
  | .resumeStub o => causeA o false false false false (o.fn == 0)
  | .gnext o => causeA o true false false false (o.fn == 0)
  | .addi o => causeI o true true true
  | .andi o => causeI o true true true
  | .ori o => causeI o true true true
  | .xori o => causeI o true true true
  | .cmpeqi o => causeI o true true true
  | .cmplti o => causeI o true true true
  | .muli o => causeI o true true true
  | .shli o => causeI o true true (decide (o.imm < 64))
  | .shri o => causeI o true true (decide (o.imm < 64))
  | .srai o => causeI o true true (decide (o.imm < 64))
  | .movc o => lowestCause (o.a != 0) (badSDst o.d) false (decide (13 <= o.imm))
  | .movtc o => lowestCause (o.d != 0) false false (decide (o.imm < 2) || decide (7 <= o.imm))
  | .syncD o => causeI o false false (decide (o.imm < 16))
  | .trap o => causeI o false true (decide (o.imm < 65536))
  | .brkpt o => causeI o false false (decide (o.imm < 65536))
  | .liK o => lowestCause false (badSDst o.d) false false
  | .lih o => lowestCause (decide (2 ^ 30 <= o.imm)) (badSDst o.d) false false
  | .br o => causeJ o false
  | .call o => causeJ o false
  | .loop o => causeJ o false
  | .loopn o => causeJ o false
  | .bz o => causeJ o true
  | .bnz o => causeJ o true
  | .bltz o => causeJ o true
  | .bgez o => causeJ o true
  | .vadd o => causeV o .v .v .v .none (tyAll o.ty) .any (o.fn == 0)
  | .vsub o => causeV o .v .v .v .none (tyAll o.ty) .any (o.fn == 0)
  | .vmul o => causeV o .v .v .v .none (tyAll o.ty) .any (o.fn == 0)
  | .vfma o => causeV o .v .v .v .v (tyAll o.ty) .any (o.fn == 0)
  | .vfnma o => causeV o .v .v .v .v (tyAll o.ty) .any (o.fn == 0)
  | .vmin o => causeV o .v .v .v .none (tyAll o.ty) .zero (o.fn == 0)
  | .vmax o => causeV o .v .v .v .none (tyAll o.ty) .zero (o.fn == 0)
  | .vand o => causeV o .v .v .v .none (tyAll o.ty) .zero (o.fn == 0)
  | .vor o => causeV o .v .v .v .none (tyAll o.ty) .zero (o.fn == 0)
  | .vxor o => causeV o .v .v .v .none (tyAll o.ty) .zero (o.fn == 0)
  | .vabs o => causeV o .v .v .none .none (tyAll o.ty) .zero (o.fn == 0)
  | .vneg o => causeV o .v .v .none .none (tyAll o.ty) .zero (o.fn == 0)
  | .vshl o => causeV o .v .v .v .none (tyInt o.ty) .zero (o.fn == 0)
  | .vshr o => causeV o .v .v .v .none (tyInt o.ty) .zero (o.fn == 0)
  | .vsra o => causeV o .v .v .v .none (tyInt o.ty) .zero (o.fn == 0)
  | .vadds o => causeV o .v .v .v .none (tyInt o.ty) .zero (o.fn == 0)
  | .vsubs o => causeV o .v .v .v .none (tyInt o.ty) .zero (o.fn == 0)
  | .vmulh o => causeV o .v .v .v .none (tyInt o.ty) .zero (o.fn == 0)
  | .vmulq o => causeV o .v .v .v .none (decide (o.ty <= 2)) .zero (o.fn == 0)
  | .vmacw o => causeV o .v .v .v .v (o.ty == 0 || o.ty == 4 || o.ty == 1 || o.ty == 5 || o.ty == 9 || o.ty == 10) .any (o.fn == 0)
  | .vdot4 o => causeV o .v .v .v .v (o.ty == 0 || o.ty == 4) .zero (o.fn == 0)
  | .vdiv o => causeV o .v .v .v .none (tyFloat o.ty) .noRSR (o.fn == 0)
  | .vsqrt o => causeV o .v .v .none .none (tyFloat o.ty) .noRSR (o.fn == 0)
  | .vrcp o => causeV o .v .v .none .none (tyFloat o.ty) .zero (o.fn == 0)
  | .vrsq o => causeV o .v .v .none .none (tyFloat o.ty) .zero (o.fn == 0)
  | .vexp2q o => causeV o .v .v .none .none (o.ty == 8) .zero (o.fn == 0)
  | .vcvt o => causeConv o .none true
  | .vpack o => causeConv o .v (tyWidth o.fn == 2 * tyWidth o.ty)
  | .vunpk o => causeUnpk o
  | .vcmpeq o => causeV o .p .v .v .none (tyAll o.ty) .zero (decide (o.fn < 2))
  | .vcmpne o => causeV o .p .v .v .none (tyAll o.ty) .zero (decide (o.fn < 2))
  | .vcmplt o => causeV o .p .v .v .none (tyAll o.ty) .zero (decide (o.fn < 2))
  | .vcmple o => causeV o .p .v .v .none (tyAll o.ty) .zero (decide (o.fn < 2))
  | .vclass o => causeV o .v .v .none .none (tyFloat o.ty) .zero (o.fn == 0)
  | .pand o => causeV o .p .p .p .none (o.ty == 0) .zero (o.fn == 0)
  | .por o => causeV o .p .p .p .none (o.ty == 0) .zero (o.fn == 0)
  | .pxor o => causeV o .p .p .p .none (o.ty == 0) .zero (o.fn == 0)
  | .pnot o => causeV o .p .p .none .none (o.ty == 0) .zero (o.fn == 0)
  | .pcnt o => causeV o .s .p .none .none (o.ty == 0) .zero (o.fn == 0)
  | .vradd o => causeV o .s .v .none .none (tyAll o.ty) .zero (o.fn == 0)
  | .vrmax o => causeV o .s .v .none .none (tyAll o.ty) .zero (o.fn == 0)
  | .vrmin o => causeV o .s .v .none .none (tyAll o.ty) .zero (o.fn == 0)
  | .vpsum o => causeV o .v .v .none .none (tyAll o.ty) .zero (o.fn == 0)
  | .vfind o => causeV o .s .v .s .none (tyAll o.ty) .zero (o.fn == 0)
  | .vperm o => causeV o .v .v .v .v (tyAll o.ty) .zero (o.fn == 0)
  | .vsplat o => causeV o .v .s .none .none (tyAll o.ty) .zero (o.fn == 0)
  | .vins o => causeV o .v .s .s .none (tyAll o.ty) .zero (o.fn == 0)
  | .vext o => causeV o .s .v .s .none (tyAll o.ty) .zero (o.fn == 0)
  | .vsel o => causeV o .v .v .v .none (tyAll o.ty) .zero (o.fn == 0)
  | .vslide o => causeV o .v .v .v .s (tyAll o.ty) .zero (o.fn == 0)
  | .mfmt o => causeM o false true true true (o.sa == 0) true (decide (o.fn < 32)) false (fmtOk (o.fn % 4) (o.fn / 4 % 4) (o.fn / 16 % 2))
  | .mma o => causeMma o 1
  | .mmaz o => causeMma o 0
  | .mmas o => causeMma o 3
  | .mmasz o => causeMma o 2
  | .mhad o => causeM o true false false false (o.sa == 0) true (decide (o.fn < 64)) false true
  | .mdrain o => causeM o true true false false (!badDest o.sa) true (decide (o.fn % 8 < 6)) false true
  | .mdrainv o => causeM o true true true false (o.sa == 0) true (decide (o.fn % 8 < 3)) true true
  | .mzero o => causeM o true false false false (o.sa == 0) true (o.fn == 0) false true
  | .mldacc o => causeM o true true false false (!badSource o.sa) true (o.fn == 0) false true
  | .mstacc o => causeM o true true false false (!badDest o.sa) true (o.fn == 0) false true
  | .mseed o => causeM o false true false false (o.sa == 0) true (o.fn == 0) false true
  | .ldL o => causeLI (decide (o.sz <= 3)) (badSDst o.d)
  | .ldp o => causeLI (decide (o.sz <= 3)) (badSDst o.d)
  | .pld o => causeLI (decide (o.sz <= 3)) (badSDst o.d)
  | .stL o => causeLI (decide (o.sz <= 3)) false
  | .vld o => causeLI (o.sz == 4) (badVec o.d)
  | .vst o => causeLI (o.sz == 4) (badVec o.d)
  | .vldp o => causeLI (o.sz == 4) (badVec o.d)
  | .vldw o => causeLI (o.sz == 4) (badVec o.d)
  | .pst o => causeLI (decide (o.sz <= 4)) (o.sz == 4 && badVec o.d)
  | .vlds o => causeLA o true true true false (o.fn == 0) (badVec o.d) (decide (o.sz <= 3))
  | .vsts o => causeLA o true true true false (o.fn == 0) (badVec o.d) (decide (o.sz <= 3))
  | .vgath o => causeLA o true true true false (o.fn == 0) (badVec o.d || badVec o.b) (decide (o.sz <= 3))
  | .vscat o => causeLA o true true true false (o.fn == 0) (badVec o.d || badVec o.b) (decide (o.sz <= 3))
  | .atadd o => causeLA o true true true false (o.fn == 0) (badSDst o.d) (o.sz == 2 || o.sz == 3)
  | .atand o => causeLA o true true true false (o.fn == 0) (badSDst o.d) (o.sz == 2 || o.sz == 3)
  | .ator o => causeLA o true true true false (o.fn == 0) (badSDst o.d) (o.sz == 2 || o.sz == 3)
  | .atxor o => causeLA o true true true false (o.fn == 0) (badSDst o.d) (o.sz == 2 || o.sz == 3)
  | .atswp o => causeLA o true true true false (o.fn == 0) (badSDst o.d) (o.sz == 2 || o.sz == 3)
  | .atmin o => causeLA o true true true false (decide (o.fn < 2)) (badSDst o.d) (o.sz == 2 || o.sz == 3)
  | .atmax o => causeLA o true true true false (decide (o.fn < 2)) (badSDst o.d) (o.sz == 2 || o.sz == 3)
  | .atcas o => causeLA o true true true true (o.fn == 0) (badSDst o.d) (o.sz == 2 || o.sz == 3)
  | .takeW o => causeLA o true true false false (o.fn == 0) (badSDst o.d) (o.sz == 3)
  | .fullq o => causeLA o true true false false (o.fn == 0) (badSDst o.d) (o.sz == 3)
  | .putW o => causeLA o false true true false (o.fn == 0) false (o.sz == 3)
  | .emptyw o => causeLA o false true false false (o.fn == 0) false (o.sz == 3)
  | .cpin o => causeLA o false true true true (o.fn == 0) false (o.sz == 0)
  | .cpout o => causeLA o false true true true (o.fn == 0) false (o.sz == 0)
  | .cpin2 o => causeLA o false true true true (o.fn == 0) false (o.sz == 0)
  | .cpout2 o => causeLA o false true true true (o.fn == 0) false (o.sz == 0)
  | .cpw o => causeLA o false true true true (o.fn == 0) false (o.sz == 0)
  | .cpfill o => causeLA o false true true true (o.fn == 0) false (o.sz == 0)
  | .cpred o => causeLA o false true true true (o.fn / 4 % 16 == 0) false (o.sz == 0 && predType (o.fn / 64) && o.fn % 4 != 3)
  | .maskq o => causeLA o false true true true (decide (o.fn < 512)) false true
  | .fence o => causeLA o false false false false (o.fn == 0) false true
  | .flushsig o => causeLA o false (o.fn == 1) (o.fn == 1) false (decide (o.fn < 2)) false (o.sz == 0)
  | .sigset o => causeLA o false true true false (o.fn == 0) false (o.sz == 0)
  | .sigw o => causeLA o true true true false (o.fn == 0) (badSDst o.d) (o.sz == 0)
  | .epop o => causeLA o true false false false (o.fn == 0) (badSDst o.d) (decide (o.sz <= 3))
  | .prld o => causeLA o true true true false (o.fn == 0) (badSDst o.d) (o.sz == 3)
  | .prst o => causeLA o false true true true (o.fn == 0) false (o.sz == 3)
  | .winrd o => causeLA o true true true false (o.fn == 0) (badSDst o.d) (o.sz == 0)
  | .winwr o => causeLA o false true true true (o.fn == 0) false (o.sz == 0)
  | .send o => causeX o false true true true
  | .mbclr o => causeX o false false false true
  | .gsig o => causeX o false true false false
  | .gwait o => causeX o false true true false
  | .gpoll o => causeX o true true true false
  | .gread o => causeX o false true false false
  | .bundleIssue => some 1
  | .sleepuWake => some 1
  | .matrixCommandStart => some 1
  | .matrixCommandComplete => some 1
  | .peerBankAccess => some 1
  | .registerResultLand => some 1
  | .copyTranslate => some 1
  | .copyComplete => some 1
  | .maskAccept => some 1
  | .maskComplete => some 1
  | .flushTokenArrive => some 1
  | .privilegedReply => some 1
  | .privilegedUnreachableTimeout => some 1
  | .messageArrive => some 1
  | .messageRetry => some 1
  | .sendWindowReturn => some 1
  | .greadReturn => some 1
  | .gateSignalRequest => some 1
  | .gateTokenAdd => some 1
  | .gateCounterIncrement => some 1
  | .gateMirrorUpdate => some 1
  | .lineRead => some 1
  | .lineWrite => some 1
  | .flitReceive => some 1
  | .cxlMemRequest => some 1
  | .routeLossTimeout => some 1
  | .kick => some 1
  | .qcfgWrite => some 1
  | .registerWrite => some 1
  | .runRec => some 1
  | .markRec => some 1
  | .pasidInvalidation => some 1
  | .nodeStart => some 1
  | .joinNode => some 1
  | .launchNode => some 1
  | .launchPopulate => some 1
  | .gangStart => some 1
  | .launchComplete => some 1
  | .copyNode => some 1
  | .signalNode => some 1
  | .waitNode => some 1
  | .waitNodeTimeout => some 1
  | .condNode => some 1
  | .loopNode => some 1
  | .collNode => some 1
  | .portNode => some 1
  | .maskNode => some 1
  | .crossDieEdge => some 1
  | .deterministicDecision => some 1
  | .ringDoorbell => some 1
  | .hostrd => some 1
  | .hostwr => some 1
  | .rdmawr => some 1
  | .rdmard => some 1
  | .allred => some 1
  | .redscat => some 1
  | .allgath => some 1
  | .bcast => some 1
  | .engineRecordComplete => some 1
  | .engineRecordTimeout => some 1
  | .layoutCmd => some 1
  | .setmode => some 1
  | .maprange => some 1
  | .mappage => some 1
  | .gswitch => some 1
  | .sliceCmd => some 1
  | .bindCmd => some 1
  | .releaseCmd => some 1
  | .faultring => some 1
  | .keynew => some 1
  | .wadmit => some 1
  | .wrevoke => some 1
  | .gcreate => some 1
  | .gacl => some 1
  | .gfree => some 1
  | .gview => some 1
  | .gexport => some 1
  | .gimport => some 1
  | .domjoin => some 1
  | .domkey => some 1
  | .groupset => some 1
  | .qpcreate => some 1
  | .qpdestroy => some 1
  | .agreementTimeout => some 1
  | .flashUpdate => some 1
  | .featureLock => some 1
  | .lockInterface => some 1
  | .stopInterface => some 1
  | .measurements => some 1
  | .vendorDefinedRequest => some 1
  | .preemptionRequest => some 1
  | .contextSave => some 1
  | .partitionResume => some 1
  | .sliceEnd => some 1
  | .keyzZeroise => some 1
  | .keyzFree => some 1
  | .bndreqBind => some 1
  | .bndreqRelease => some 1
  | .scrubStart => some 1
  | .scrubGranule => some 1
  | .bzero => some 1
  | .chzero => some 1
  | .tqpop => some 1
  | .tqovfnClear => some 1
  | .supContinue => some 1
  | .supRestart => some 1
  | .supKill => some 1
  | .supStop => some 1
  | .badAction => some 1
  | .replaypgReplay => some 1
  | .replaypgUnfixable => some 1
  | .faultRecordArrive => some 1
  | .faultDeadlineExpire => some 1
  | .invalidationComplete => some 1
  | .thermalWarn => some 1
  | .thermalTrip => some 1
  | .coolantFlowLoss => some 1
  | .linkDeliveryFailure => some 1
  | .sensorRefresh => some 1
  | .coldReset => some 1
  | .warmReset => some 1
  | .managementRestart => some 1
  | .dieFirmwareRestart => some 1
  | .functionLevelReset => some 1
  | .replyEntryAvailable => some 1
  | .startInterface => some 1
  | .ideMacFailure => some 1
  | .softError => some 1
  | .memberAgreement => some 1
  | .unassignedMailboxOpcode => some 1

/-- The slot and opcode of a slot instruction (R67); `.nop` and the events have none here. -/
def opcodeOf (i : Instr) : Option (Slot × Nat) :=
  match i with
  | .add _ => some (.S, 0x01)
  | .sub _ => some (.S, 0x02)
  | .andS _ => some (.S, 0x03)
  | .orS _ => some (.S, 0x04)
  | .xorS _ => some (.S, 0x05)
  | .andn _ => some (.S, 0x06)
  | .shl _ => some (.S, 0x07)
  | .shr _ => some (.S, 0x08)
  | .sra _ => some (.S, 0x09)
  | .rol _ => some (.S, 0x0A)
  | .mul _ => some (.S, 0x0B)
  | .mulh _ => some (.S, 0x0C)
  | .mulhn _ => some (.S, 0x0D)
  | .div _ => some (.S, 0x0E)
  | .divn _ => some (.S, 0x0F)
  | .rem _ => some (.S, 0x10)
  | .remn _ => some (.S, 0x11)
  | .minS _ => some (.S, 0x12)
  | .maxS _ => some (.S, 0x13)
  | .minn _ => some (.S, 0x14)
  | .maxn _ => some (.S, 0x15)
  | .cmpeq _ => some (.S, 0x16)
  | .cmpne _ => some (.S, 0x17)
  | .cmplt _ => some (.S, 0x18)
  | .cmpltn _ => some (.S, 0x19)
  | .sel _ => some (.S, 0x1A)
  | .clz _ => some (.S, 0x1B)
  | .ctz _ => some (.S, 0x1C)
  | .popc _ => some (.S, 0x1D)
  | .addsat _ => some (.S, 0x1E)
  | .subsat _ => some (.S, 0x1F)
  | .addi _ => some (.S, 0x20)
  | .andi _ => some (.S, 0x21)
  | .ori _ => some (.S, 0x22)
  | .xori _ => some (.S, 0x23)
  | .shli _ => some (.S, 0x24)
  | .shri _ => some (.S, 0x25)
  | .srai _ => some (.S, 0x26)
  | .cmpeqi _ => some (.S, 0x27)
  | .cmplti _ => some (.S, 0x28)
  | .muli _ => some (.S, 0x29)
  | .liK _ => some (.S, 0x2A)
  | .lih _ => some (.S, 0x2B)
  | .addx _ => some (.S, 0x2C)
  | .extr _ => some (.S, 0x2D)
  | .insr _ => some (.S, 0x2E)
  | .rhash _ => some (.S, 0x2F)
  | .movc _ => some (.S, 0x30)
  | .movtc _ => some (.S, 0x31)
  | .br _ => some (.S, 0x40)
  | .bz _ => some (.S, 0x41)
  | .bnz _ => some (.S, 0x42)
  | .bltz _ => some (.S, 0x43)
  | .bgez _ => some (.S, 0x44)
  | .jr _ => some (.S, 0x45)
  | .call _ => some (.S, 0x46)
  | .ret _ => some (.S, 0x47)
  | .loop _ => some (.S, 0x48)
  | .loopn _ => some (.S, 0x49)
  | .syncD _ => some (.S, 0x50)
  | .sleepu _ => some (.S, 0x51)
  | .exitT _ => some (.S, 0x52)
  | .gnext _ => some (.S, 0x53)
  | .trap _ => some (.S, 0x54)
  | .brkpt _ => some (.S, 0x55)
  | .resumeStub _ => some (.S, 0x56)
  | .vadd _ => some (.V, 0x01)
  | .vsub _ => some (.V, 0x02)
  | .vmul _ => some (.V, 0x03)
  | .vfma _ => some (.V, 0x04)
  | .vfnma _ => some (.V, 0x05)
  | .vmin _ => some (.V, 0x06)
  | .vmax _ => some (.V, 0x07)
  | .vabs _ => some (.V, 0x08)
  | .vneg _ => some (.V, 0x09)
  | .vand _ => some (.V, 0x0A)
  | .vor _ => some (.V, 0x0B)
  | .vxor _ => some (.V, 0x0C)
  | .vshl _ => some (.V, 0x0D)
  | .vshr _ => some (.V, 0x0E)
  | .vsra _ => some (.V, 0x0F)
  | .vadds _ => some (.V, 0x10)
  | .vsubs _ => some (.V, 0x11)
  | .vmulh _ => some (.V, 0x12)
  | .vmulq _ => some (.V, 0x13)
  | .vmacw _ => some (.V, 0x14)
  | .vdot4 _ => some (.V, 0x15)
  | .vdiv _ => some (.V, 0x16)
  | .vsqrt _ => some (.V, 0x17)
  | .vrcp _ => some (.V, 0x18)
  | .vrsq _ => some (.V, 0x19)
  | .vexp2q _ => some (.V, 0x1A)
  | .vcvt _ => some (.V, 0x1B)
  | .vpack _ => some (.V, 0x1C)
  | .vunpk _ => some (.V, 0x1D)
  | .vcmpeq _ => some (.V, 0x20)
  | .vcmpne _ => some (.V, 0x21)
  | .vcmplt _ => some (.V, 0x22)
  | .vcmple _ => some (.V, 0x23)
  | .vclass _ => some (.V, 0x24)
  | .pand _ => some (.V, 0x28)
  | .por _ => some (.V, 0x29)
  | .pxor _ => some (.V, 0x2A)
  | .pnot _ => some (.V, 0x2B)
  | .pcnt _ => some (.V, 0x2C)
  | .vradd _ => some (.V, 0x30)
  | .vrmax _ => some (.V, 0x31)
  | .vrmin _ => some (.V, 0x32)
  | .vpsum _ => some (.V, 0x33)
  | .vfind _ => some (.V, 0x34)
  | .vperm _ => some (.V, 0x38)
  | .vsplat _ => some (.V, 0x39)
  | .vins _ => some (.V, 0x3A)
  | .vext _ => some (.V, 0x3B)
  | .vsel _ => some (.V, 0x3C)
  | .vslide _ => some (.V, 0x3D)
  | .mfmt _ => some (.M, 0x01)
  | .mma _ => some (.M, 0x02)
  | .mmaz _ => some (.M, 0x03)
  | .mmas _ => some (.M, 0x04)
  | .mmasz _ => some (.M, 0x05)
  | .mhad _ => some (.M, 0x06)
  | .mdrain _ => some (.M, 0x07)
  | .mdrainv _ => some (.M, 0x08)
  | .mzero _ => some (.M, 0x09)
  | .mldacc _ => some (.M, 0x0A)
  | .mstacc _ => some (.M, 0x0B)
  | .mseed _ => some (.M, 0x0C)
  | .ldL _ => some (.L, 0x01)
  | .stL _ => some (.L, 0x02)
  | .vld _ => some (.L, 0x03)
  | .vst _ => some (.L, 0x04)
  | .vlds _ => some (.L, 0x05)
  | .vsts _ => some (.L, 0x06)
  | .vgath _ => some (.L, 0x07)
  | .vscat _ => some (.L, 0x08)
  | .pld _ => some (.L, 0x09)
  | .pst _ => some (.L, 0x0A)
  | .ldp _ => some (.L, 0x0B)
  | .vldp _ => some (.L, 0x0C)
  | .vldw _ => some (.L, 0x0D)
  | .atadd _ => some (.L, 0x10)
  | .atmin _ => some (.L, 0x11)
  | .atmax _ => some (.L, 0x12)
  | .atand _ => some (.L, 0x13)
  | .ator _ => some (.L, 0x14)
  | .atxor _ => some (.L, 0x15)
  | .atswp _ => some (.L, 0x16)
  | .atcas _ => some (.L, 0x17)
  | .takeW _ => some (.L, 0x18)
  | .putW _ => some (.L, 0x19)
  | .fullq _ => some (.L, 0x1A)
  | .emptyw _ => some (.L, 0x1B)
  | .cpin _ => some (.L, 0x20)
  | .cpout _ => some (.L, 0x21)
  | .cpin2 _ => some (.L, 0x22)
  | .cpout2 _ => some (.L, 0x23)
  | .cpw _ => some (.L, 0x24)
  | .cpred _ => some (.L, 0x25)
  | .cpfill _ => some (.L, 0x26)
  | .maskq _ => some (.L, 0x28)
  | .fence _ => some (.L, 0x30)
  | .flushsig _ => some (.L, 0x31)
  | .sigset _ => some (.L, 0x32)
  | .sigw _ => some (.L, 0x33)
  | .epop _ => some (.L, 0x38)
  | .prld _ => some (.L, 0x3C)
  | .prst _ => some (.L, 0x3D)
  | .winrd _ => some (.L, 0x3E)
  | .winwr _ => some (.L, 0x3F)
  | .send _ => some (.X, 0x01)
  | .mbclr _ => some (.X, 0x03)
  | .gsig _ => some (.X, 0x10)
  | .gwait _ => some (.X, 0x11)
  | .gpoll _ => some (.X, 0x12)
  | .gread _ => some (.X, 0x13)
  | .nop => none
  | .bundleIssue => none
  | .sleepuWake => none
  | .matrixCommandStart => none
  | .matrixCommandComplete => none
  | .peerBankAccess => none
  | .registerResultLand => none
  | .copyTranslate => none
  | .copyComplete => none
  | .maskAccept => none
  | .maskComplete => none
  | .flushTokenArrive => none
  | .privilegedReply => none
  | .privilegedUnreachableTimeout => none
  | .messageArrive => none
  | .messageRetry => none
  | .sendWindowReturn => none
  | .greadReturn => none
  | .gateSignalRequest => none
  | .gateTokenAdd => none
  | .gateCounterIncrement => none
  | .gateMirrorUpdate => none
  | .lineRead => none
  | .lineWrite => none
  | .flitReceive => none
  | .cxlMemRequest => none
  | .routeLossTimeout => none
  | .kick => none
  | .qcfgWrite => none
  | .registerWrite => none
  | .runRec => none
  | .markRec => none
  | .pasidInvalidation => none
  | .nodeStart => none
  | .joinNode => none
  | .launchNode => none
  | .launchPopulate => none
  | .gangStart => none
  | .launchComplete => none
  | .copyNode => none
  | .signalNode => none
  | .waitNode => none
  | .waitNodeTimeout => none
  | .condNode => none
  | .loopNode => none
  | .collNode => none
  | .portNode => none
  | .maskNode => none
  | .crossDieEdge => none
  | .deterministicDecision => none
  | .ringDoorbell => none
  | .hostrd => none
  | .hostwr => none
  | .rdmawr => none
  | .rdmard => none
  | .allred => none
  | .redscat => none
  | .allgath => none
  | .bcast => none
  | .engineRecordComplete => none
  | .engineRecordTimeout => none
  | .layoutCmd => none
  | .setmode => none
  | .maprange => none
  | .mappage => none
  | .gswitch => none
  | .sliceCmd => none
  | .bindCmd => none
  | .releaseCmd => none
  | .faultring => none
  | .keynew => none
  | .wadmit => none
  | .wrevoke => none
  | .gcreate => none
  | .gacl => none
  | .gfree => none
  | .gview => none
  | .gexport => none
  | .gimport => none
  | .domjoin => none
  | .domkey => none
  | .groupset => none
  | .qpcreate => none
  | .qpdestroy => none
  | .agreementTimeout => none
  | .flashUpdate => none
  | .featureLock => none
  | .lockInterface => none
  | .stopInterface => none
  | .measurements => none
  | .vendorDefinedRequest => none
  | .preemptionRequest => none
  | .contextSave => none
  | .partitionResume => none
  | .sliceEnd => none
  | .keyzZeroise => none
  | .keyzFree => none
  | .bndreqBind => none
  | .bndreqRelease => none
  | .scrubStart => none
  | .scrubGranule => none
  | .bzero => none
  | .chzero => none
  | .tqpop => none
  | .tqovfnClear => none
  | .supContinue => none
  | .supRestart => none
  | .supKill => none
  | .supStop => none
  | .badAction => none
  | .replaypgReplay => none
  | .replaypgUnfixable => none
  | .faultRecordArrive => none
  | .faultDeadlineExpire => none
  | .invalidationComplete => none
  | .thermalWarn => none
  | .thermalTrip => none
  | .coolantFlowLoss => none
  | .linkDeliveryFailure => none
  | .sensorRefresh => none
  | .coldReset => none
  | .warmReset => none
  | .managementRestart => none
  | .dieFirmwareRestart => none
  | .functionLevelReset => none
  | .replyEntryAvailable => none
  | .startInterface => none
  | .ideMacFailure => none
  | .softError => none
  | .memberAgreement => none
  | .unassignedMailboxOpcode => none


end Sys2Proof.Machine
end

