-- ==== Sys2Proof/WellFormed.lean ====
section
/-! DEFINITION. Well-formedness of instructions and bundles: operands in range and no encoding condition met. -/

namespace Sys2Proof

open Sys2Proof.Machine

/-- The fields of each form lie within their widths (R39). -/
def AOp.inWidth (o : AOp) : Bool :=
  o.d < 64 && o.a < 64 && o.b < 64 && o.c < 64 && o.p < 8 && o.fn < 8192
def IOp.inWidth (o : IOp) : Bool := o.d < 64 && o.a < 64 && o.imm < 2 ^ 28
def KOp.inWidth (o : KOp) : Bool := o.d < 64 && o.imm < 2 ^ 34
def JOp.inWidth (o : JOp) : Bool := o.a < 64 && o.rsv < 1024 && o.off < 2 ^ 24
def VOp.inWidth (o : VOp) : Bool :=
  o.d < 64 && o.a < 64 && o.b < 64 && o.c < 64 && o.p < 8 && o.hold < 8 && o.ty < 16 && o.rm < 4 && o.fn < 16
def MOp.inWidth (o : MOp) : Bool :=
  o.acc < 8 && o.a < 64 && o.b < 64 && o.n < 64 && o.sa < 8 && o.sb < 8 && o.fl < 8 && o.fn < 1024
def LAOp.inWidth (o : LAOp) : Bool :=
  o.d < 64 && o.a < 64 && o.b < 64 && o.c < 64 && o.p < 8 && o.fn < 1024 && o.sz < 8
def LIOp.inWidth (o : LIOp) : Bool := o.d < 64 && o.a < 64 && o.sz < 8 && o.imm < 2 ^ 25
def XOp.inWidth (o : XOp) : Bool :=
  o.d < 64 && o.a < 64 && o.b < 64 && o.c < 64 && o.p < 8 && o.fn < 256 && o.idx < 32

/-- A SLOTID that names a thread context (R32). -/
def slotidOk (t : Nat) : Bool := t < 2 ^ 14 && t / 2048 < 4 && t / 8 % 256 < 144

/-- The operands of an instruction lie within the ranges its fields or identifiers have. -/
def inWidth (i : Instr) : Bool :=
  match i with
  | .nop => true
  | .add o => o.inWidth
  | .sub o => o.inWidth
  | .andS o => o.inWidth
  | .orS o => o.inWidth
  | .xorS o => o.inWidth
  | .andn o => o.inWidth
  | .shl o => o.inWidth
  | .shr o => o.inWidth
  | .sra o => o.inWidth
  | .rol o => o.inWidth
  | .mul o => o.inWidth
  | .mulh o => o.inWidth
  | .mulhn o => o.inWidth
  | .div o => o.inWidth
  | .divn o => o.inWidth
  | .rem o => o.inWidth
  | .remn o => o.inWidth
  | .minS o => o.inWidth
  | .maxS o => o.inWidth
  | .minn o => o.inWidth
  | .maxn o => o.inWidth
  | .cmpeq o => o.inWidth
  | .cmpne o => o.inWidth
  | .cmplt o => o.inWidth
  | .cmpltn o => o.inWidth
  | .sel o => o.inWidth
  | .clz o => o.inWidth
  | .ctz o => o.inWidth
  | .popc o => o.inWidth
  | .addsat o => o.inWidth
  | .subsat o => o.inWidth
  | .addx o => o.inWidth
  | .extr o => o.inWidth
  | .insr o => o.inWidth
  | .rhash o => o.inWidth
  | .jr o => o.inWidth
  | .ret o => o.inWidth
  | .sleepu o => o.inWidth
  | .exitT o => o.inWidth
  | .gnext o => o.inWidth
  | .resumeStub o => o.inWidth
  | .addi o => o.inWidth
  | .andi o => o.inWidth
  | .ori o => o.inWidth
  | .xori o => o.inWidth
  | .shli o => o.inWidth
  | .shri o => o.inWidth
  | .srai o => o.inWidth
  | .cmpeqi o => o.inWidth
  | .cmplti o => o.inWidth
  | .muli o => o.inWidth
  | .movc o => o.inWidth
  | .movtc o => o.inWidth
  | .syncD o => o.inWidth
  | .trap o => o.inWidth
  | .brkpt o => o.inWidth
  | .liK o => o.inWidth
  | .lih o => o.inWidth
  | .br o => o.inWidth
  | .bz o => o.inWidth
  | .bnz o => o.inWidth
  | .bltz o => o.inWidth
  | .bgez o => o.inWidth
  | .call o => o.inWidth
  | .loop o => o.inWidth
  | .loopn o => o.inWidth
  | .vadd o => o.inWidth
  | .vsub o => o.inWidth
  | .vmul o => o.inWidth
  | .vfma o => o.inWidth
  | .vfnma o => o.inWidth
  | .vmin o => o.inWidth
  | .vmax o => o.inWidth
  | .vabs o => o.inWidth
  | .vneg o => o.inWidth
  | .vand o => o.inWidth
  | .vor o => o.inWidth
  | .vxor o => o.inWidth
  | .vshl o => o.inWidth
  | .vshr o => o.inWidth
  | .vsra o => o.inWidth
  | .vadds o => o.inWidth
  | .vsubs o => o.inWidth
  | .vmulh o => o.inWidth
  | .vmulq o => o.inWidth
  | .vmacw o => o.inWidth
  | .vdot4 o => o.inWidth
  | .vdiv o => o.inWidth
  | .vsqrt o => o.inWidth
  | .vrcp o => o.inWidth
  | .vrsq o => o.inWidth
  | .vexp2q o => o.inWidth
  | .vcvt o => o.inWidth
  | .vpack o => o.inWidth
  | .vunpk o => o.inWidth
  | .vcmpeq o => o.inWidth
  | .vcmpne o => o.inWidth
  | .vcmplt o => o.inWidth
  | .vcmple o => o.inWidth
  | .vclass o => o.inWidth
  | .pand o => o.inWidth
  | .por o => o.inWidth
  | .pxor o => o.inWidth
  | .pnot o => o.inWidth
  | .pcnt o => o.inWidth
  | .vradd o => o.inWidth
  | .vrmax o => o.inWidth
  | .vrmin o => o.inWidth
  | .vpsum o => o.inWidth
  | .vfind o => o.inWidth
  | .vperm o => o.inWidth
  | .vsplat o => o.inWidth
  | .vins o => o.inWidth
  | .vext o => o.inWidth
  | .vsel o => o.inWidth
  | .vslide o => o.inWidth
  | .mfmt o => o.inWidth
  | .mma o => o.inWidth
  | .mmaz o => o.inWidth
  | .mmas o => o.inWidth
  | .mmasz o => o.inWidth
  | .mhad o => o.inWidth
  | .mdrain o => o.inWidth
  | .mdrainv o => o.inWidth
  | .mzero o => o.inWidth
  | .mldacc o => o.inWidth
  | .mstacc o => o.inWidth
  | .mseed o => o.inWidth
  | .ldL o => o.inWidth
  | .stL o => o.inWidth
  | .vld o => o.inWidth
  | .vst o => o.inWidth
  | .pld o => o.inWidth
  | .pst o => o.inWidth
  | .ldp o => o.inWidth
  | .vldp o => o.inWidth
  | .vldw o => o.inWidth
  | .vlds o => o.inWidth
  | .vsts o => o.inWidth
  | .vgath o => o.inWidth
  | .vscat o => o.inWidth
  | .atadd o => o.inWidth
  | .atmin o => o.inWidth
  | .atmax o => o.inWidth
  | .atand o => o.inWidth
  | .ator o => o.inWidth
  | .atxor o => o.inWidth
  | .atswp o => o.inWidth
  | .atcas o => o.inWidth
  | .takeW o => o.inWidth
  | .putW o => o.inWidth
  | .fullq o => o.inWidth
  | .emptyw o => o.inWidth
  | .cpin o => o.inWidth
  | .cpout o => o.inWidth
  | .cpin2 o => o.inWidth
  | .cpout2 o => o.inWidth
  | .cpw o => o.inWidth
  | .cpred o => o.inWidth
  | .cpfill o => o.inWidth
  | .maskq o => o.inWidth
  | .fence o => o.inWidth
  | .flushsig o => o.inWidth
  | .sigset o => o.inWidth
  | .sigw o => o.inWidth
  | .epop o => o.inWidth
  | .prld o => o.inWidth
  | .prst o => o.inWidth
  | .winrd o => o.inWidth
  | .winwr o => o.inWidth
  | .send o => o.inWidth
  | .mbclr o => o.inWidth
  | .gsig o => o.inWidth
  | .gwait o => o.inWidth
  | .gpoll o => o.inWidth
  | .gread o => o.inWidth
  | .bundleIssue => true
  | .sleepuWake => true
  | .matrixCommandStart => true
  | .matrixCommandComplete => true
  | .peerBankAccess => true
  | .registerResultLand => true
  | .copyTranslate => true
  | .copyComplete => true
  | .maskAccept => true
  | .maskComplete => true
  | .flushTokenArrive => true
  | .privilegedReply => true
  | .privilegedUnreachableTimeout => true
  | .messageArrive => true
  | .messageRetry => true
  | .sendWindowReturn => true
  | .greadReturn => true
  | .gateSignalRequest => true
  | .gateTokenAdd => true
  | .gateCounterIncrement => true
  | .gateMirrorUpdate => true
  | .lineRead => true
  | .lineWrite => true
  | .flitReceive => true
  | .cxlMemRequest => true
  | .routeLossTimeout => true
  | .kick => true
  | .qcfgWrite => true
  | .registerWrite => true
  | .runRec => true
  | .markRec => true
  | .pasidInvalidation => true
  | .nodeStart => true
  | .joinNode => true
  | .launchNode => true
  | .launchPopulate => true
  | .gangStart => true
  | .launchComplete => true
  | .copyNode => true
  | .signalNode => true
  | .waitNode => true
  | .waitNodeTimeout => true
  | .condNode => true
  | .loopNode => true
  | .collNode => true
  | .portNode => true
  | .maskNode => true
  | .crossDieEdge => true
  | .deterministicDecision => true
  | .ringDoorbell => true
  | .hostrd => true
  | .hostwr => true
  | .rdmawr => true
  | .rdmard => true
  | .allred => true
  | .redscat => true
  | .allgath => true
  | .bcast => true
  | .engineRecordComplete => true
  | .engineRecordTimeout => true
  | .layoutCmd => true
  | .setmode => true
  | .maprange => true
  | .mappage => true
  | .gswitch => true
  | .sliceCmd => true
  | .bindCmd => true
  | .releaseCmd => true
  | .faultring => true
  | .keynew => true
  | .wadmit => true
  | .wrevoke => true
  | .gcreate => true
  | .gacl => true
  | .gfree => true
  | .gview => true
  | .gexport => true
  | .gimport => true
  | .domjoin => true
  | .domkey => true
  | .groupset => true
  | .qpcreate => true
  | .qpdestroy => true
  | .agreementTimeout => true
  | .flashUpdate => true
  | .featureLock => true
  | .lockInterface => true
  | .stopInterface => true
  | .measurements => true
  | .vendorDefinedRequest => true
  | .preemptionRequest => true
  | .contextSave => true
  | .partitionResume => true
  | .sliceEnd => true
  | .keyzZeroise => true
  | .keyzFree => true
  | .bndreqBind => true
  | .bndreqRelease => true
  | .scrubStart => true
  | .scrubGranule => true
  | .bzero => true
  | .chzero => true
  | .tqpop => true
  | .tqovfnClear => true
  | .supContinue => true
  | .supRestart => true
  | .supKill => true
  | .supStop => true
  | .badAction => true
  | .replaypgReplay => true
  | .replaypgUnfixable => true
  | .faultRecordArrive => true
  | .faultDeadlineExpire => true
  | .invalidationComplete => true
  | .thermalWarn => true
  | .thermalTrip => true
  | .coolantFlowLoss => true
  | .linkDeliveryFailure => true
  | .sensorRefresh => true
  | .coldReset => true
  | .warmReset => true
  | .managementRestart => true
  | .dieFirmwareRestart => true
  | .functionLevelReset => true
  | .replyEntryAvailable => true
  | .startInterface => true
  | .ideMacFailure => true
  | .softError => true
  | .memberAgreement => true
  | .unassignedMailboxOpcode => true

/-- A well-formed instruction: operands in range and, for a slot instruction, no encoding condition of causes 2 to 5. -/
def wellFormed (i : Instr) : Bool :=
  inWidth i && (opcodeOf i == none || slotCause i == none)

/-- A slot of a bundle holds NOP or a well-formed instruction of that slot. -/
def slotOk (sl : Slot) (i : Instr) : Bool :=
  i == .nop || (wellFormed i && (opcodeOf i).map (·.1) == some sl)

/-- A well-formed bundle: SPX is 10 bits and zero without SP (R36, R37), and every slot holds an instruction of its own.
-/
def Bundle.wellFormed (b : Bundle) : Bool :=
  b.spx < 1024 && (b.sp || b.spx == 0)
    && slotOk .S b.sS && slotOk .V b.sV && slotOk .M b.sM && slotOk .L b.sL && slotOk .X b.sX

end Sys2Proof
end

