-- ==== Sys2Proof/Decode.lean ====
section
/-! DEFINITION. The decoder of bundles and slots, total on any bits and rejecting with the place and cause of 02 R62,
and after it the encoder, written from the same tables (R36, R39, R67). -/

namespace Sys2Proof

open Sys2Proof.Machine

/-- Bits [lo + n - 1 : lo] of w. -/
def bitsAt (w lo n : Nat) : Nat := w / 2 ^ lo % 2 ^ n

/-- The fields of a 48-bit slot in each form (R39). -/
def fieldsA (w : Nat) : AOp :=
  { d := bitsAt w 34 6, a := bitsAt w 28 6, b := bitsAt w 22 6, c := bitsAt w 16 6, p := bitsAt w 13 3, fn := bitsAt w 0 13 }
def fieldsI (w : Nat) : IOp := { d := bitsAt w 34 6, a := bitsAt w 28 6, imm := bitsAt w 0 28 }
def fieldsK (w : Nat) : KOp := { d := bitsAt w 34 6, imm := bitsAt w 0 34 }
def fieldsJ (w : Nat) : JOp := { a := bitsAt w 34 6, rsv := bitsAt w 24 10, off := bitsAt w 0 24 }
def fieldsV (w : Nat) : VOp :=
  { d := bitsAt w 34 6, a := bitsAt w 28 6, b := bitsAt w 22 6, c := bitsAt w 16 6, p := bitsAt w 13 3,
    hold := bitsAt w 10 3, ty := bitsAt w 6 4, rm := bitsAt w 4 2, fn := bitsAt w 0 4 }
def fieldsM (w : Nat) : MOp :=
  { acc := bitsAt w 37 3, a := bitsAt w 31 6, b := bitsAt w 25 6, n := bitsAt w 19 6, sa := bitsAt w 16 3,
    sb := bitsAt w 13 3, fl := bitsAt w 10 3, fn := bitsAt w 0 10 }
def fieldsLA (w : Nat) : LAOp :=
  { d := bitsAt w 34 6, a := bitsAt w 28 6, b := bitsAt w 22 6, c := bitsAt w 16 6, p := bitsAt w 13 3,
    fn := bitsAt w 3 10, sz := bitsAt w 0 3 }
def fieldsLI (w : Nat) : LIOp := { d := bitsAt w 34 6, a := bitsAt w 28 6, sz := bitsAt w 25 3, imm := bitsAt w 0 25 }
def fieldsX (w : Nat) : XOp :=
  { d := bitsAt w 34 6, a := bitsAt w 28 6, b := bitsAt w 22 6, c := bitsAt w 16 6, p := bitsAt w 13 3,
    fn := bitsAt w 5 8, idx := bitsAt w 0 5 }

/-- The S slot of the opcode map (R67): the instruction of an opcode, its fields not yet checked. -/
def rawS (op w : Nat) : Option Instr :=
  match op with
  | 0x01 => some (.add (fieldsA w))
  | 0x02 => some (.sub (fieldsA w))
  | 0x03 => some (.andS (fieldsA w))
  | 0x04 => some (.orS (fieldsA w))
  | 0x05 => some (.xorS (fieldsA w))
  | 0x06 => some (.andn (fieldsA w))
  | 0x07 => some (.shl (fieldsA w))
  | 0x08 => some (.shr (fieldsA w))
  | 0x09 => some (.sra (fieldsA w))
  | 0x0A => some (.rol (fieldsA w))
  | 0x0B => some (.mul (fieldsA w))
  | 0x0C => some (.mulh (fieldsA w))
  | 0x0D => some (.mulhn (fieldsA w))
  | 0x0E => some (.div (fieldsA w))
  | 0x0F => some (.divn (fieldsA w))
  | 0x10 => some (.rem (fieldsA w))
  | 0x11 => some (.remn (fieldsA w))
  | 0x12 => some (.minS (fieldsA w))
  | 0x13 => some (.maxS (fieldsA w))
  | 0x14 => some (.minn (fieldsA w))
  | 0x15 => some (.maxn (fieldsA w))
  | 0x16 => some (.cmpeq (fieldsA w))
  | 0x17 => some (.cmpne (fieldsA w))
  | 0x18 => some (.cmplt (fieldsA w))
  | 0x19 => some (.cmpltn (fieldsA w))
  | 0x1A => some (.sel (fieldsA w))
  | 0x1B => some (.clz (fieldsA w))
  | 0x1C => some (.ctz (fieldsA w))
  | 0x1D => some (.popc (fieldsA w))
  | 0x1E => some (.addsat (fieldsA w))
  | 0x1F => some (.subsat (fieldsA w))
  | 0x20 => some (.addi (fieldsI w))
  | 0x21 => some (.andi (fieldsI w))
  | 0x22 => some (.ori (fieldsI w))
  | 0x23 => some (.xori (fieldsI w))
  | 0x24 => some (.shli (fieldsI w))
  | 0x25 => some (.shri (fieldsI w))
  | 0x26 => some (.srai (fieldsI w))
  | 0x27 => some (.cmpeqi (fieldsI w))
  | 0x28 => some (.cmplti (fieldsI w))
  | 0x29 => some (.muli (fieldsI w))
  | 0x2A => some (.liK (fieldsK w))
  | 0x2B => some (.lih (fieldsK w))
  | 0x2C => some (.addx (fieldsA w))
  | 0x2D => some (.extr (fieldsA w))
  | 0x2E => some (.insr (fieldsA w))
  | 0x2F => some (.rhash (fieldsA w))
  | 0x30 => some (.movc (fieldsI w))
  | 0x31 => some (.movtc (fieldsI w))
  | 0x40 => some (.br (fieldsJ w))
  | 0x41 => some (.bz (fieldsJ w))
  | 0x42 => some (.bnz (fieldsJ w))
  | 0x43 => some (.bltz (fieldsJ w))
  | 0x44 => some (.bgez (fieldsJ w))
  | 0x45 => some (.jr (fieldsA w))
  | 0x46 => some (.call (fieldsJ w))
  | 0x47 => some (.ret (fieldsA w))
  | 0x48 => some (.loop (fieldsJ w))
  | 0x49 => some (.loopn (fieldsJ w))
  | 0x50 => some (.syncD (fieldsI w))
  | 0x51 => some (.sleepu (fieldsA w))
  | 0x52 => some (.exitT (fieldsA w))
  | 0x53 => some (.gnext (fieldsA w))
  | 0x54 => some (.trap (fieldsI w))
  | 0x55 => some (.brkpt (fieldsI w))
  | 0x56 => some (.resumeStub (fieldsA w))
  | _ => none

/-- The V slot of the opcode map (R67): the instruction of an opcode, its fields not yet checked. -/
def rawV (op w : Nat) : Option Instr :=
  match op with
  | 0x01 => some (.vadd (fieldsV w))
  | 0x02 => some (.vsub (fieldsV w))
  | 0x03 => some (.vmul (fieldsV w))
  | 0x04 => some (.vfma (fieldsV w))
  | 0x05 => some (.vfnma (fieldsV w))
  | 0x06 => some (.vmin (fieldsV w))
  | 0x07 => some (.vmax (fieldsV w))
  | 0x08 => some (.vabs (fieldsV w))
  | 0x09 => some (.vneg (fieldsV w))
  | 0x0A => some (.vand (fieldsV w))
  | 0x0B => some (.vor (fieldsV w))
  | 0x0C => some (.vxor (fieldsV w))
  | 0x0D => some (.vshl (fieldsV w))
  | 0x0E => some (.vshr (fieldsV w))
  | 0x0F => some (.vsra (fieldsV w))
  | 0x10 => some (.vadds (fieldsV w))
  | 0x11 => some (.vsubs (fieldsV w))
  | 0x12 => some (.vmulh (fieldsV w))
  | 0x13 => some (.vmulq (fieldsV w))
  | 0x14 => some (.vmacw (fieldsV w))
  | 0x15 => some (.vdot4 (fieldsV w))
  | 0x16 => some (.vdiv (fieldsV w))
  | 0x17 => some (.vsqrt (fieldsV w))
  | 0x18 => some (.vrcp (fieldsV w))
  | 0x19 => some (.vrsq (fieldsV w))
  | 0x1A => some (.vexp2q (fieldsV w))
  | 0x1B => some (.vcvt (fieldsV w))
  | 0x1C => some (.vpack (fieldsV w))
  | 0x1D => some (.vunpk (fieldsV w))
  | 0x20 => some (.vcmpeq (fieldsV w))
  | 0x21 => some (.vcmpne (fieldsV w))
  | 0x22 => some (.vcmplt (fieldsV w))
  | 0x23 => some (.vcmple (fieldsV w))
  | 0x24 => some (.vclass (fieldsV w))
  | 0x28 => some (.pand (fieldsV w))
  | 0x29 => some (.por (fieldsV w))
  | 0x2A => some (.pxor (fieldsV w))
  | 0x2B => some (.pnot (fieldsV w))
  | 0x2C => some (.pcnt (fieldsV w))
  | 0x30 => some (.vradd (fieldsV w))
  | 0x31 => some (.vrmax (fieldsV w))
  | 0x32 => some (.vrmin (fieldsV w))
  | 0x33 => some (.vpsum (fieldsV w))
  | 0x34 => some (.vfind (fieldsV w))
  | 0x38 => some (.vperm (fieldsV w))
  | 0x39 => some (.vsplat (fieldsV w))
  | 0x3A => some (.vins (fieldsV w))
  | 0x3B => some (.vext (fieldsV w))
  | 0x3C => some (.vsel (fieldsV w))
  | 0x3D => some (.vslide (fieldsV w))
  | _ => none

/-- The M slot of the opcode map (R67): the instruction of an opcode, its fields not yet checked. -/
def rawM (op w : Nat) : Option Instr :=
  match op with
  | 0x01 => some (.mfmt (fieldsM w))
  | 0x02 => some (.mma (fieldsM w))
  | 0x03 => some (.mmaz (fieldsM w))
  | 0x04 => some (.mmas (fieldsM w))
  | 0x05 => some (.mmasz (fieldsM w))
  | 0x06 => some (.mhad (fieldsM w))
  | 0x07 => some (.mdrain (fieldsM w))
  | 0x08 => some (.mdrainv (fieldsM w))
  | 0x09 => some (.mzero (fieldsM w))
  | 0x0A => some (.mldacc (fieldsM w))
  | 0x0B => some (.mstacc (fieldsM w))
  | 0x0C => some (.mseed (fieldsM w))
  | _ => none

/-- The L slot of the opcode map (R67): the instruction of an opcode, its fields not yet checked. -/
def rawL (op w : Nat) : Option Instr :=
  match op with
  | 0x01 => some (.ldL (fieldsLI w))
  | 0x02 => some (.stL (fieldsLI w))
  | 0x03 => some (.vld (fieldsLI w))
  | 0x04 => some (.vst (fieldsLI w))
  | 0x05 => some (.vlds (fieldsLA w))
  | 0x06 => some (.vsts (fieldsLA w))
  | 0x07 => some (.vgath (fieldsLA w))
  | 0x08 => some (.vscat (fieldsLA w))
  | 0x09 => some (.pld (fieldsLI w))
  | 0x0A => some (.pst (fieldsLI w))
  | 0x0B => some (.ldp (fieldsLI w))
  | 0x0C => some (.vldp (fieldsLI w))
  | 0x0D => some (.vldw (fieldsLI w))
  | 0x10 => some (.atadd (fieldsLA w))
  | 0x11 => some (.atmin (fieldsLA w))
  | 0x12 => some (.atmax (fieldsLA w))
  | 0x13 => some (.atand (fieldsLA w))
  | 0x14 => some (.ator (fieldsLA w))
  | 0x15 => some (.atxor (fieldsLA w))
  | 0x16 => some (.atswp (fieldsLA w))
  | 0x17 => some (.atcas (fieldsLA w))
  | 0x18 => some (.takeW (fieldsLA w))
  | 0x19 => some (.putW (fieldsLA w))
  | 0x1A => some (.fullq (fieldsLA w))
  | 0x1B => some (.emptyw (fieldsLA w))
  | 0x20 => some (.cpin (fieldsLA w))
  | 0x21 => some (.cpout (fieldsLA w))
  | 0x22 => some (.cpin2 (fieldsLA w))
  | 0x23 => some (.cpout2 (fieldsLA w))
  | 0x24 => some (.cpw (fieldsLA w))
  | 0x25 => some (.cpred (fieldsLA w))
  | 0x26 => some (.cpfill (fieldsLA w))
  | 0x28 => some (.maskq (fieldsLA w))
  | 0x30 => some (.fence (fieldsLA w))
  | 0x31 => some (.flushsig (fieldsLA w))
  | 0x32 => some (.sigset (fieldsLA w))
  | 0x33 => some (.sigw (fieldsLA w))
  | 0x38 => some (.epop (fieldsLA w))
  | 0x3C => some (.prld (fieldsLA w))
  | 0x3D => some (.prst (fieldsLA w))
  | 0x3E => some (.winrd (fieldsLA w))
  | 0x3F => some (.winwr (fieldsLA w))
  | _ => none

/-- The X slot of the opcode map (R67): the instruction of an opcode, its fields not yet checked. -/
def rawX (op w : Nat) : Option Instr :=
  match op with
  | 0x01 => some (.send (fieldsX w))
  | 0x03 => some (.mbclr (fieldsX w))
  | 0x10 => some (.gsig (fieldsX w))
  | 0x11 => some (.gwait (fieldsX w))
  | 0x12 => some (.gpoll (fieldsX w))
  | 0x13 => some (.gread (fieldsX w))
  | _ => none

/-- The instruction that slot sl holds when its 48 bits are w, its fields not yet checked. -/
def rawSlot (sl : Slot) (w : Nat) : Option Instr :=
  match sl with
  | .S => rawS (bitsAt w 40 8) w
  | .V => rawV (bitsAt w 40 8) w
  | .M => rawM (bitsAt w 40 8) w
  | .L => rawL (bitsAt w 40 8) w
  | .X => rawX (bitsAt w 40 8) w

/-- Decode one slot: the instruction, or the lowest cause 1 to 5 that the slot meets (R62, R65). -/
def decodeSlot (sl : Slot) (w : Nat) : Except Nat Instr :=
  if bitsAt w 40 8 = 0 then
    if bitsAt w 0 40 = 0 then .ok .nop else .error 2
  else
    match rawSlot sl w with
    | none => .error 1
    | some i =>
      match slotCause i with
      | none => .ok i
      | some k => .error k

/-- Position of a slot within the bundle (R36) and its number in fault records (R62). -/
def slotLow (sl : Slot) : Nat :=
  match sl with
  | .S => 192 | .V => 144 | .M => 96 | .L => 48 | .X => 0
def slotUnit (sl : Slot) : Nat :=
  match sl with
  | .S => 1 | .V => 2 | .M => 3 | .L => 4 | .X => 5

/-- The 48 bits of a slot of bundle w. -/
def slotBits (sl : Slot) (w : Nat) : Nat := bitsAt w (slotLow sl) 48

/-- The reserved header bits, and SPX without SP (R36, R37, R62 cause 2). -/
def headerBad (w : Nat) : Bool := bitsAt w 240 4 != 0 || (bitsAt w 254 1 == 0 && bitsAt w 244 10 != 0)

/-- A bundle is rejected with the place (0 header, 1 to 5 the slots) and the cause of R62. -/
structure Reject where
  place : Nat
  cause : Nat
deriving DecidableEq, Repr

/-- Decode one slot of a bundle, naming its place. -/
def decodeAt (sl : Slot) (w : Nat) : Except Reject Instr :=
  match decodeSlot sl (slotBits sl w) with
  | .ok i => .ok i
  | .error k => .error { place := slotUnit sl, cause := k }

/-- Decode a 256-bit bundle by its encoding alone (causes 1 to 5), the places checked in the order of R65. -/
def decodeBundle (w : Nat) : Except Reject Bundle :=
  if headerBad w then .error { place := 0, cause := 2 }
  else
    match decodeAt .S w, decodeAt .V w, decodeAt .M w, decodeAt .L w, decodeAt .X w with
    | .ok s, .ok v, .ok m, .ok l, .ok x =>
      .ok { sw := bitsAt w 255 1 == 1, sp := bitsAt w 254 1 == 1, spx := bitsAt w 244 10,
            sS := s, sV := v, sM := m, sL := l, sX := x }
    | .error e, _, _, _, _ => .error e
    | _, .error e, _, _, _ => .error e
    | _, _, .error e, _, _ => .error e
    | _, _, _, .error e, _ => .error e
    | _, _, _, _, .error e => .error e

/-- A little-endian number from bytes (R9). -/
def natOfBytes : List Byte → Nat
  | [] => 0
  | b :: bs => b.toNat + 256 * natOfBytes bs

/-- The n low bytes of a number, little-endian (R9). -/
def bytesOfNat (n x : Nat) : List Byte :=
  match n with
  | 0 => []
  | k + 1 => BitVec.ofNat 8 x :: bytesOfNat k (x / 256)

/-- Decode the bytes of a bundle: any list of bytes has an answer. -/
def decode (bs : List Byte) : Except Reject Bundle := decodeBundle (natOfBytes bs)

/-- The one instruction of a bundle all of whose other slots are empty; NOP for the all-NOP bundle. -/
def soleInstr (b : Bundle) : Option Instr :=
  match [b.sS, b.sV, b.sM, b.sL, b.sX].filter (· != .nop) with
  | [] => some .nop
  | [i] => some i
  | _ => none

/-- The instruction of an instruction word whose bits are w, numbered as the opcode table numbers them: w laid out
as a 256-bit bundle. A bundle with several instructions is read as the issue of a whole bundle. -/
def decodeTableWord (_nbits w : Nat) : Option Instr :=
  match decode (bytesOfNat 32 w) with
  | .error _ => none
  | .ok b =>
    match soleInstr b with
    | some i => some i
    | none => some .bundleIssue

/-- The encoder: the fields of each form placed as R39 gives them. -/
def encA (o : AOp) : Nat :=
  o.d * 2 ^ 34 + o.a * 2 ^ 28 + o.b * 2 ^ 22 + o.c * 2 ^ 16 + o.p * 2 ^ 13 + o.fn
def encI (o : IOp) : Nat := o.d * 2 ^ 34 + o.a * 2 ^ 28 + o.imm
def encK (o : KOp) : Nat := o.d * 2 ^ 34 + o.imm
def encJ (o : JOp) : Nat := o.a * 2 ^ 34 + o.rsv * 2 ^ 24 + o.off
def encV (o : VOp) : Nat :=
  o.d * 2 ^ 34 + o.a * 2 ^ 28 + o.b * 2 ^ 22 + o.c * 2 ^ 16 + o.p * 2 ^ 13 + o.hold * 2 ^ 10 + o.ty * 2 ^ 6
    + o.rm * 2 ^ 4 + o.fn
def encM (o : MOp) : Nat :=
  o.acc * 2 ^ 37 + o.a * 2 ^ 31 + o.b * 2 ^ 25 + o.n * 2 ^ 19 + o.sa * 2 ^ 16 + o.sb * 2 ^ 13 + o.fl * 2 ^ 10 + o.fn
def encLA (o : LAOp) : Nat :=
  o.d * 2 ^ 34 + o.a * 2 ^ 28 + o.b * 2 ^ 22 + o.c * 2 ^ 16 + o.p * 2 ^ 13 + o.fn * 2 ^ 3 + o.sz
def encLI (o : LIOp) : Nat := o.d * 2 ^ 34 + o.a * 2 ^ 28 + o.sz * 2 ^ 25 + o.imm
def encX (o : XOp) : Nat :=
  o.d * 2 ^ 34 + o.a * 2 ^ 28 + o.b * 2 ^ 22 + o.c * 2 ^ 16 + o.p * 2 ^ 13 + o.fn * 2 ^ 5 + o.idx

/-- The low 40 bits of an instruction's slot; zero for NOP and for events. -/
def encFields (i : Instr) : Nat :=
  match i with
  | .add o => encA o
  | .sub o => encA o
  | .andS o => encA o
  | .orS o => encA o
  | .xorS o => encA o
  | .andn o => encA o
  | .shl o => encA o
  | .shr o => encA o
  | .sra o => encA o
  | .rol o => encA o
  | .mul o => encA o
  | .mulh o => encA o
  | .mulhn o => encA o
  | .div o => encA o
  | .divn o => encA o
  | .rem o => encA o
  | .remn o => encA o
  | .minS o => encA o
  | .maxS o => encA o
  | .minn o => encA o
  | .maxn o => encA o
  | .cmpeq o => encA o
  | .cmpne o => encA o
  | .cmplt o => encA o
  | .cmpltn o => encA o
  | .sel o => encA o
  | .clz o => encA o
  | .ctz o => encA o
  | .popc o => encA o
  | .addsat o => encA o
  | .subsat o => encA o
  | .addx o => encA o
  | .extr o => encA o
  | .insr o => encA o
  | .rhash o => encA o
  | .jr o => encA o
  | .ret o => encA o
  | .sleepu o => encA o
  | .exitT o => encA o
  | .gnext o => encA o
  | .resumeStub o => encA o
  | .addi o => encI o
  | .andi o => encI o
  | .ori o => encI o
  | .xori o => encI o
  | .shli o => encI o
  | .shri o => encI o
  | .srai o => encI o
  | .cmpeqi o => encI o
  | .cmplti o => encI o
  | .muli o => encI o
  | .movc o => encI o
  | .movtc o => encI o
  | .syncD o => encI o
  | .trap o => encI o
  | .brkpt o => encI o
  | .liK o => encK o
  | .lih o => encK o
  | .br o => encJ o
  | .bz o => encJ o
  | .bnz o => encJ o
  | .bltz o => encJ o
  | .bgez o => encJ o
  | .call o => encJ o
  | .loop o => encJ o
  | .loopn o => encJ o
  | .vadd o => encV o
  | .vsub o => encV o
  | .vmul o => encV o
  | .vfma o => encV o
  | .vfnma o => encV o
  | .vmin o => encV o
  | .vmax o => encV o
  | .vabs o => encV o
  | .vneg o => encV o
  | .vand o => encV o
  | .vor o => encV o
  | .vxor o => encV o
  | .vshl o => encV o
  | .vshr o => encV o
  | .vsra o => encV o
  | .vadds o => encV o
  | .vsubs o => encV o
  | .vmulh o => encV o
  | .vmulq o => encV o
  | .vmacw o => encV o
  | .vdot4 o => encV o
  | .vdiv o => encV o
  | .vsqrt o => encV o
  | .vrcp o => encV o
  | .vrsq o => encV o
  | .vexp2q o => encV o
  | .vcvt o => encV o
  | .vpack o => encV o
  | .vunpk o => encV o
  | .vcmpeq o => encV o
  | .vcmpne o => encV o
  | .vcmplt o => encV o
  | .vcmple o => encV o
  | .vclass o => encV o
  | .pand o => encV o
  | .por o => encV o
  | .pxor o => encV o
  | .pnot o => encV o
  | .pcnt o => encV o
  | .vradd o => encV o
  | .vrmax o => encV o
  | .vrmin o => encV o
  | .vpsum o => encV o
  | .vfind o => encV o
  | .vperm o => encV o
  | .vsplat o => encV o
  | .vins o => encV o
  | .vext o => encV o
  | .vsel o => encV o
  | .vslide o => encV o
  | .mfmt o => encM o
  | .mma o => encM o
  | .mmaz o => encM o
  | .mmas o => encM o
  | .mmasz o => encM o
  | .mhad o => encM o
  | .mdrain o => encM o
  | .mdrainv o => encM o
  | .mzero o => encM o
  | .mldacc o => encM o
  | .mstacc o => encM o
  | .mseed o => encM o
  | .ldL o => encLI o
  | .stL o => encLI o
  | .vld o => encLI o
  | .vst o => encLI o
  | .pld o => encLI o
  | .pst o => encLI o
  | .ldp o => encLI o
  | .vldp o => encLI o
  | .vldw o => encLI o
  | .vlds o => encLA o
  | .vsts o => encLA o
  | .vgath o => encLA o
  | .vscat o => encLA o
  | .atadd o => encLA o
  | .atmin o => encLA o
  | .atmax o => encLA o
  | .atand o => encLA o
  | .ator o => encLA o
  | .atxor o => encLA o
  | .atswp o => encLA o
  | .atcas o => encLA o
  | .takeW o => encLA o
  | .putW o => encLA o
  | .fullq o => encLA o
  | .emptyw o => encLA o
  | .cpin o => encLA o
  | .cpout o => encLA o
  | .cpin2 o => encLA o
  | .cpout2 o => encLA o
  | .cpw o => encLA o
  | .cpred o => encLA o
  | .cpfill o => encLA o
  | .maskq o => encLA o
  | .fence o => encLA o
  | .flushsig o => encLA o
  | .sigset o => encLA o
  | .sigw o => encLA o
  | .epop o => encLA o
  | .prld o => encLA o
  | .prst o => encLA o
  | .winrd o => encLA o
  | .winwr o => encLA o
  | .send o => encX o
  | .mbclr o => encX o
  | .gsig o => encX o
  | .gwait o => encX o
  | .gpoll o => encX o
  | .gread o => encX o
  | .nop => 0
  | .bundleIssue => 0
  | .sleepuWake => 0
  | .matrixCommandStart => 0
  | .matrixCommandComplete => 0
  | .peerBankAccess => 0
  | .registerResultLand => 0
  | .copyTranslate => 0
  | .copyComplete => 0
  | .maskAccept => 0
  | .maskComplete => 0
  | .flushTokenArrive => 0
  | .privilegedReply => 0
  | .privilegedUnreachableTimeout => 0
  | .messageArrive => 0
  | .messageRetry => 0
  | .sendWindowReturn => 0
  | .greadReturn => 0
  | .gateSignalRequest => 0
  | .gateTokenAdd => 0
  | .gateCounterIncrement => 0
  | .gateMirrorUpdate => 0
  | .lineRead => 0
  | .lineWrite => 0
  | .flitReceive => 0
  | .cxlMemRequest => 0
  | .routeLossTimeout => 0
  | .kick => 0
  | .qcfgWrite => 0
  | .registerWrite => 0
  | .runRec => 0
  | .markRec => 0
  | .pasidInvalidation => 0
  | .nodeStart => 0
  | .joinNode => 0
  | .launchNode => 0
  | .launchPopulate => 0
  | .gangStart => 0
  | .launchComplete => 0
  | .copyNode => 0
  | .signalNode => 0
  | .waitNode => 0
  | .waitNodeTimeout => 0
  | .condNode => 0
  | .loopNode => 0
  | .collNode => 0
  | .portNode => 0
  | .maskNode => 0
  | .crossDieEdge => 0
  | .deterministicDecision => 0
  | .ringDoorbell => 0
  | .hostrd => 0
  | .hostwr => 0
  | .rdmawr => 0
  | .rdmard => 0
  | .allred => 0
  | .redscat => 0
  | .allgath => 0
  | .bcast => 0
  | .engineRecordComplete => 0
  | .engineRecordTimeout => 0
  | .layoutCmd => 0
  | .setmode => 0
  | .maprange => 0
  | .mappage => 0
  | .gswitch => 0
  | .sliceCmd => 0
  | .bindCmd => 0
  | .releaseCmd => 0
  | .faultring => 0
  | .keynew => 0
  | .wadmit => 0
  | .wrevoke => 0
  | .gcreate => 0
  | .gacl => 0
  | .gfree => 0
  | .gview => 0
  | .gexport => 0
  | .gimport => 0
  | .domjoin => 0
  | .domkey => 0
  | .groupset => 0
  | .qpcreate => 0
  | .qpdestroy => 0
  | .agreementTimeout => 0
  | .flashUpdate => 0
  | .featureLock => 0
  | .lockInterface => 0
  | .stopInterface => 0
  | .measurements => 0
  | .vendorDefinedRequest => 0
  | .preemptionRequest => 0
  | .contextSave => 0
  | .partitionResume => 0
  | .sliceEnd => 0
  | .keyzZeroise => 0
  | .keyzFree => 0
  | .bndreqBind => 0
  | .bndreqRelease => 0
  | .scrubStart => 0
  | .scrubGranule => 0
  | .bzero => 0
  | .chzero => 0
  | .tqpop => 0
  | .tqovfnClear => 0
  | .supContinue => 0
  | .supRestart => 0
  | .supKill => 0
  | .supStop => 0
  | .badAction => 0
  | .replaypgReplay => 0
  | .replaypgUnfixable => 0
  | .faultRecordArrive => 0
  | .faultDeadlineExpire => 0
  | .invalidationComplete => 0
  | .thermalWarn => 0
  | .thermalTrip => 0
  | .coolantFlowLoss => 0
  | .linkDeliveryFailure => 0
  | .sensorRefresh => 0
  | .coldReset => 0
  | .warmReset => 0
  | .managementRestart => 0
  | .dieFirmwareRestart => 0
  | .functionLevelReset => 0
  | .replyEntryAvailable => 0
  | .startInterface => 0
  | .ideMacFailure => 0
  | .softError => 0
  | .memberAgreement => 0
  | .unassignedMailboxOpcode => 0

/-- The 48 bits of a slot that holds i. -/
def encodeSlot (i : Instr) : Nat :=
  match opcodeOf i with
  | some (_, op) => op * 2 ^ 40 + encFields i
  | none => 0

/-- The 256 bits of a bundle (R36). -/
def encodeBundle (b : Bundle) : Nat :=
  (if b.sw then 1 else 0) * 2 ^ 255 + (if b.sp then 1 else 0) * 2 ^ 254 + b.spx * 2 ^ 244
    + encodeSlot b.sS * 2 ^ 192 + encodeSlot b.sV * 2 ^ 144 + encodeSlot b.sM * 2 ^ 96
    + encodeSlot b.sL * 2 ^ 48 + encodeSlot b.sX

/-- The bundle that holds i alone in its slot. -/
def bundleOf (i : Instr) : Bundle :=
  match opcodeOf i with
  | some (.S, _) => { sS := i }
  | some (.V, _) => { sV := i }
  | some (.M, _) => { sM := i }
  | some (.L, _) => { sL := i }
  | some (.X, _) => { sX := i }
  | none => {}

/-- The word of an instruction: the bundle that holds it alone. -/
def encode (i : Instr) : Nat := encodeBundle (bundleOf i)

end Sys2Proof
end

