-- ==== Sys2Proof/Machine/Map.lean ====
section
/-! DEFINITION. Sparse maps from numbers as sorted lists of (key, value), an unlisted key reading as a value of its own;
and the memory of bytes, which lists no byte equal to what an unlisted one reads as, so that equal memories are equal data. -/

namespace Sys2Proof

/-- A sparse map: keys strictly rising. -/
abbrev Map (α : Type) := List (Nat × α)

namespace Machine

variable {α : Type}

/-- The value at key i, d where none is listed. -/
def mapGet (d : α) (m : Map α) (i : Nat) : α :=
  match m with
  | [] => d
  | (k, v) :: t => if i = k then v else if i < k then d else mapGet d t i

/-- List v at key i. -/
def mapPut (m : Map α) (i : Nat) (v : α) : Map α :=
  match m with
  | [] => [(i, v)]
  | (k, x) :: t =>
    if i = k then (k, v) :: t
    else if i < k then (i, v) :: (k, x) :: t
    else (k, x) :: mapPut t i v

/-- Unlist key i. -/
def mapDel (m : Map α) (i : Nat) : Map α :=
  match m with
  | [] => []
  | (k, x) :: t => if i = k then t else if i < k then (k, x) :: t else (k, x) :: mapDel t i

/-- Make key i read as v, d being what an unlisted key reads as: nothing changes where it does already. -/
def mapSet [DecidableEq α] (d : α) (m : Map α) (i : Nat) (v : α) : Map α :=
  if mapGet d m i = v then m else mapPut m i v

/-- Make key i read as v and list it only if v is not d: the canonical form is kept. -/
def mapStore [DecidableEq α] (d : α) (m : Map α) (i : Nat) (v : α) : Map α :=
  if v = d then mapDel m i else mapPut m i v

/-- Keys strictly above lo, strictly rising, and no value equal to d. -/
def mapWfFrom [DecidableEq α] (d : α) (lo : Nat) (m : Map α) : Bool :=
  match m with
  | [] => true
  | (k, v) :: t => decide (lo ≤ k) && decide (v ≠ d) && mapWfFrom d (k + 1) t

/-- The canonical form of a map. -/
def mapWf [DecidableEq α] (d : α) (m : Map α) : Bool := mapWfFrom d 0 m

end Machine

/-- A memory of bytes (Host.Cell): what it does not list reads as 0. -/
abbrev Memory := Map Byte

/-- The canonical form of a memory: addresses strictly rising, no listed byte equal to what an unlisted one reads as. -/
def Memory.wf (m : Memory) : Bool := Machine.mapWf (0 : Byte) m

end Sys2Proof
end

