-- ==== Sys2Proof/Machine/State.lean ====
section
/-! DEFINITION. The state of the package as plain data, its reset value, and the ways a step can stop. -/

namespace Sys2Proof.Machine

open Sys2Proof

/-- Ways in which a step stops. Every fault that the spec gives the S9 is a next state, so only this one is left. -/
inductive Fault where
  /-- A bundle issue that names no thread context (R32: DIE ≥ 4 or CORE ≥ 144). Raised by bundleIssue. Safe: no such
  thread exists. -/
  | noContext (slotid : Nat)
deriving DecidableEq, Repr

/-- Reasons to have no meaning for an instruction. -/
inductive Refusal where
  /-- An instruction not modelled. Raised by an arm of exec only. Safe: the run ends. -/
  | notModelled (mnemonic : String)
deriving DecidableEq, Repr

/-- A fault raised by a slot at issue (R66, R388): code, CAUSE, UNIT, ADDR and DETAIL words 5 to 7. -/
structure Trap where
  code : Nat
  cause : Nat := 0
  unit : Nat := 0
  addr : Nat := 0
  d5 : Nat := 0
  d6 : Nat := 0
  d7 : Nat := 0
deriving DecidableEq, Repr

/-- What firmware does about a fatal record once it is admitted, or read from the overflow latch (R394): it kills a
launch, ends a request with a fault code, completes a launch as ORPHAN_OP, ends a partition, or lets a failed graph end.
-/
inductive Heal where
  | none
  | launch (l code : Nat)
  | op (id code : Nat)
  | orphan (l id : Nat)
  | part (vf : Nat)
  | graph (g : Nat)
deriving DecidableEq, Repr

/-- A fault record (R387); ops lists the held requests whose XLATE packets it stands for (R390, R396). -/
structure FaultRec where
  code : Nat := 0
  cause : Nat := 0
  unit : Nat := 0
  fatal : Bool := false
  merged : Bool := false
  sidv : Bool := false
  slotid : Nat := 0
  vf : Nat := 0
  mer : Nat := 0
  pc : Nat := 0
  nextpc : Nat := 0
  tgt : Nat := 0
  dsl : Nat := 0
  launch : Nat := 0
  instar : Nat := 0
  addr : Nat := 0
  d5 : Nat := 0
  d6 : Nat := 0
  d7 : Nat := 0
  heal : Heal := .none
  ops : List Nat := []
deriving DecidableEq, Repr

/-- Where a pending register result lands (R55). The last five are the control registers that MOVTC and the loops
write, flags ORed into FST, and bank-cost turns added to TST.BCC. -/
inductive Dest where
  | s (i : Nat) | v (phys : Nat) | p (i : Nat)
  | lc | rrb | seed | fst | tst | phase | fstOr | bccAdd
deriving DecidableEq, Repr

/-- A register result in flight: it lands in cycle due, results of one cycle in order of seq; mask selects the bits
written (R55, R56, R111). -/
structure Pend where
  due : Nat
  seq : Nat
  dest : Dest
  val : Nat
  mask : Nat
deriving DecidableEq, Repr

/-- An entry of a reply queue (R53): its value, the cycle in which it is available once that is known, the operation
that fills it, and the region that issued that operation (R291). -/
structure Reply where
  val : Nat := 0
  avail : Option Nat := none
  op : Nat := 0
  region : Nat := 0
deriving DecidableEq, Repr

/-- A pending branch: its target, the delay-slot bundles still to issue, and the RRB that applies at the target. -/
structure Branch where
  tgt : Nat
  left : Nat
  rot : Option Nat
deriving DecidableEq, Repr

/-- The format context of the matrix unit (R138). -/
structure FmtCtx where
  atype : Nat := 0
  btype : Nat := 0
  acct : Nat := 0
  aoff : Nat := 0
  boff : Nat := 0
  moff : Nat := 0
  mseedv : Nat := 0
deriving DecidableEq, Repr

/-- The queued commands of the matrix unit (R145). -/
inductive MKind where
  | mma (zero sparse : Bool) | mhad | mdrain | mdrainv | mzero | mldacc | mstacc
deriving DecidableEq, Repr

/-- A queued matrix command with the operands and context it captured (R138, R145). buf holds the operand words read
so far by flat word number, bad whether one of them was poisoned. -/
structure MCmd where
  id : Nat
  kind : MKind
  acc : Nat
  addrA : Nat := 0
  addrB : Nat := 0
  nb : Nat := 0
  srcA : Nat := 0
  srcB : Nat := 0
  tb : Bool := false
  fn : Nat := 0
  phys : Nat := 0
  row : Nat := 0
  fmt : FmtCtx := {}
  m0 : Nat
  last : Nat
  f : Nat
  pc : Nat := 0
  buf : Map Word := []
  bad : Bool := false
deriving DecidableEq, Repr

/-- A safe-point record (R74); rsv is the OR of its reserved bits. -/
structure SafeRec where
  stubAt : Nat := 0
  resumeAt : Nat := 0
  lSeed : Bool := false
  lRrb : Bool := false
  lLc : Bool := false
  lAcc : Nat := 0
  lP : Nat := 0
  lV : Nat := 0
  lX : Nat := 0
  lS : Nat := 0
  rsv : Nat := 0
deriving DecidableEq, Repr

/-- A message in an inbox, on its way or held (R182, R234, R235); lid is its sender's launch. -/
structure Msg where
  src : Nat := 0
  lid : Nat := 0
  dst : Nat := 0
  reg : Nat := 0
  val : Word := 0
  vf : Nat := 0
  instar : Nat := 0
  cross : Bool := false
  held : Bool := false
deriving DecidableEq, Repr

/-- The reasons for which a thread is parked (R271). -/
inductive Park where
  | results (till : Nat) | cost (till : Nat) | xreg | replyEmpty | replyFull | copyLimit
  | missed | mqFull | take (word : Nat) | put (word : Nat) | sync (dom : Nat) | sleep (till : Nat)
  | sigw (op : Nat) | fence (scope upto : Nat) | gate (op : Nat) | send | priv (op : Nat)
deriving DecidableEq, Repr

/-- The states of a thread context (R270). -/
inductive ThreadSt where
  | empty | populated | running | parked | frozen | stopped | saved | exited
deriving DecidableEq, Repr

/-- What a restart returns a thread to (R290, R291): the live registers of its last safe point, by code. With mUpto set
the tiles are still to be taken, when the commands numbered below it are complete (R152). seq is the number of the first
result issued after the safe point, and rot the RRB with which its vector registers are named. -/
structure Ckpt where
  pc : Nat := 0
  spx : Option Nat := none
  live : SafeRec := {}
  sreg : Map Word := []
  vreg : Map Vec := []
  preg : Map Pred := []
  lc : Word := 0
  rrb : Nat := 0
  seed : BitVec 32 := 0
  phase : BitVec 4 := 0
  cursor : Nat := 0
  fmt : FmtCtx := {}
  tiles : Map Half := []
  tbad : Nat := 0
  mUpto : Option Nat := none
  seq : Nat := 0
  rot : Nat := 0
deriving DecidableEq, Repr

/-- A POISON to be raised at the first bundle issued in a cycle of at least at (R151, R205, R237). -/
structure Deferred where
  at_ : Nat
  cause : Nat
  addr : Nat
  unit : Nat
deriving DecidableEq, Repr

/-- A thread context (R23, R49, R138, R140, R270, R273). homes lists the dies, as 8·package + die, that home lines
which the thread has written (R231); drainDue is the cycle after the turn at whose end the inbox drains (R183); inPlace
says that a pre-emption stops it where it is parked, and unborn that it does so before its gang's start (R294). broken is
the record with which a thread that is frozen already freezes again in place of its gate park (R369). -/
structure Thread where
  st : ThreadSt := .empty
  fault : Nat := 0
  parks : List Park := []
  vf : Nat := 0
  lid : Nat := 0
  pc : Nat := 0
  nextTurn : Nat := 0
  reached : Bool := false
  exiting : Bool := false
  sreg : Map Word := []
  vreg : Map Vec := []
  preg : Map Pred := []
  xreg : Map Word := []
  pres : BitVec 32 := 0
  inbox : List Msg := []
  lc : Word := 0
  rrb : Nat := 0
  seed : BitVec 32 := 0
  fst : BitVec 5 := 0
  tst : BitVec 33 := 0
  phase : BitVec 4 := 0
  spcnt : BitVec 32 := 0
  lidx : BitVec 32 := 0
  launch : BitVec 32 := 0
  latA : Vec := 0
  latB : Vec := 0
  latC : Vec := 0
  e0 : List Reply := []
  e1 : List Reply := []
  e2 : List Reply := []
  e3 : List Reply := []
  popped : List (Nat × Reply) := []
  region : Nat := 0
  pend : List Pend := []
  hist1 : Bool := false
  hist2 : Bool := false
  br : Option Branch := none
  cursor : Nat := 0
  sliceEnd : Nat := 0
  ckpt : Ckpt := {}
  stub : Bool := false
  fmt : FmtCtx := {}
  tiles : Map Half := []
  tbad : Nat := 0
  mq : List MCmd := []
  mlast : Nat := 0
  scPrev : Nat := 0
  deferred : List Deferred := []
  parity : List Nat := []
  frec : FaultRec := {}
  wasParked : List Park := []
  stopAsked : Bool := false
  inPlace : Bool := false
  unborn : Bool := false
  broken : Option FaultRec := none
  trapNow : Option Trap := none
  homes : List Nat := []
  drainDue : Option Nat := none
deriving DecidableEq, Repr

/-- A launch (R314 to R317, R321). ntile lists the tile counts of the levels, perm the levels from outermost; kern holds
the bundles read from its record, start the announced start cycle. -/
structure Launch where
  vf : Nat := 0
  id : Nat := 0
  die : Nat := 0
  klen : Nat := 0
  entry : Nat := 0
  sptab : List SafeRec := []
  spmax : Nat := 4096
  syncmask : Nat := 0
  ntile : List Nat := []
  perm : List Nat := []
  quota : Nat := 0
  cores : List Nat := []
  members : List Nat := []
  race : Bool := false
  wload : Bool := false
  seed : Nat := 0
  args : List Word := []
  kern : Nat := 0
  start : Nat := 0
  running : Bool := false
  killed : Option Nat := none
  aborted : Bool := false
  orphan : Bool := false
  graph : Option (Nat × Nat) := none
  done : Bool := false
deriving DecidableEq, Repr

/-- Parties' requests that stay outstanding (R220, R169, R231 to R233, R237, R306 to R311, R259 to R264, R368). -/
inductive OpKind where
  | copy | mask | flush | sigset | sigw | peer | priv | gsig | gwait | gread
  | nodeCopy | nodeSignal | nodeWait | nodeMask | engine | cpl
deriving DecidableEq, Repr

/-- One 8-byte word that a request moves. src and dst are device virtual addresses or flat local addresses; got and put
say whether the read and the write have been performed or posted; at_ is the cycle drawn for the read, due that of a
local write that has been entered, 0 for none (R227), crc says that the packet which carries it failed its check (R399),
and bytes is 8 but in the last word of an engine's buffer (R263). -/
structure Part where
  src : Nat := 0
  dst : Nat := 0
  srcDev : Bool := false
  dstDev : Bool := false
  data : Word := 0
  bad : Bool := false
  got : Bool := false
  put : Bool := false
  performed : Bool := false
  at_ : Nat := 0
  due : Nat := 0
  crc : Bool := false
  bytes : Nat := 8
deriving DecidableEq, Repr

/-- A device page of a request (R199, R201): access 0 read, 1 write, 2 reduce; pa and key once translated. -/
structure PageReq where
  page : Nat
  acc : Nat
  pa : Option Nat := none
  key : Nat := 0
  sc : Bool := false
deriving DecidableEq, Repr

/-- What an engine has found out about a mask request (R173): its status, the CLASS field read, the class's base mask and
exceptions, whether its class entry was read, and whether some word was poisoned. -/
structure MaskHead where
  status : Nat := 0
  cls : Nat := 0xFFFFFFFF
  base : Nat := 0
  first : Nat := 0
  count : Nat := 0
  header : Nat := 0
  cursor : Nat := 0
  entry : Bool := false
  bad : Bool := false
deriving DecidableEq, Repr

/-- A value that a device word or a gate's counter held after a request was issued until the cycle till, and which the
request may still return (R175, R368). -/
structure Old where
  place : Nat
  val : Nat
  bad : Bool := false
  till : Nat
deriving DecidableEq, Repr

/-- An outstanding request. retry and rargs are the event that carries it on once a held page is replayed; size is a
threshold or a value for the kinds that have one; head is what a mask engine read of its tables at acceptance; crc says
that a packet with what it reads or writes besides its parts failed its check (R399). -/
structure Op where
  kind : OpKind := .copy
  opc : Nat := 0
  vf : Nat := 0
  sub : Nat := 0
  die : Nat := 0
  core : Nat := 0
  thread : Option Nat := none
  lid : Option Nat := none
  node : Option (Nat × Nat) := none
  ring : Option (Nat × Nat) := none
  region : Nat := 0
  instar : Nat := 0
  c : Nat := 0
  t0 : Nat := 0
  p : Nat := 0
  a : Nat := 0
  b : Nat := 0
  n : Nat := 0
  ty : Nat := 0
  dest : Dest := .s 0
  size : Nat := 0
  pages : List PageReq := []
  parts : List Part := []
  held : Option Nat := none
  heldAt : Nat := 0
  dies : List Nat := []
  sc : Bool := false
  after : List Nat := []
  granted : Bool := false
  status : Nat := 0
  result : Nat := 0
  complete : Bool := false
  performed : Bool := false
  missed : Bool := false
  watching : Bool := false
  recNo : Nat := 0
  retry : Instr := .nop
  rargs : List Nat := []
  failed : Bool := false
  head : Option MaskHead := none
  olds : List Old := []
  crc : Bool := false
deriving DecidableEq, Repr

/-- What a drawn word access of the scratchpad or weight store does when its cycle comes (R148, R175, R216, R227). -/
inductive WKind where
  | opRead (op part : Nat)
  | opWrite (op part : Nat)
  | store (val : Word) (bytes : Nat) (bad : Bool) (loc : Nat)
  | mread (t id : Nat)
deriving DecidableEq, Repr

/-- A word access waiting for its cycle: word is the flat word number, mx says whether it is the matrix
unit's, and owner is the SLOTID of the thread of a command or atomic; a store knows the local address it writes. -/
structure WAct where
  at_ : Nat
  mx : Bool := false
  owner : Nat := 0
  word : Nat
  kind : WKind
deriving DecidableEq, Repr

/-- A dated step: from inside the package (agenda) or from outside it (inputs). -/
structure Item where
  cycle : Nat
  seq : Nat := 0
  ev : Instr
  args : List Nat := []
deriving DecidableEq, Repr

/-- A bank access of a thread or peer port, for RMW_COLLISION and the port order of R188; marks holds, for the first store
to its word in its cycle, the poison mark and the single-bit error with which the cycle found the word. -/
structure Access where
  core : Nat
  bank : Nat
  cycle : Nat
  rmw : Bool
  word : Nat
  wmask : Nat
  peer : Bool := false
  marks : Option (Bool × Bool) := none
deriving DecidableEq, Repr

/-- A parked taker or putter of a word (R218): dest is the scalar a taker writes. -/
structure Waiter where
  t : Nat
  taker : Bool
  dest : Nat
  val : Word
deriving DecidableEq, Repr

/-- What a logic die holds beside the bytes of a 64-byte line: the key slot and key generation it was written under,
its counter, the clean mark, and whether its MAC (1) or ECC (3) has been damaged (R355 to R358, R381). -/
structure LineMeta where
  clean : Bool := true
  key : Nat := 0
  gen : Nat := 0
  ctr : Nat := 0
  bad : Nat := 0
deriving DecidableEq, Repr

/-- Granule states (R372). -/
inductive GranSt where
  | dirty | clean | bound (vf : Nat)
deriving DecidableEq, Repr

/-- Key slots (R353, R376). gen counts the fillings of the slot and stands for its key material. -/
structure KeySlot where
  st : Nat := 0
  owner : Nat := 0
  kind : Nat := 0
  gen : Nat := 0
deriving DecidableEq, Repr

/-- A gate (R362, R365). -/
structure Gate where
  active : Bool := false
  acl : BitVec 256 := 0
  wkey : Nat := 0
  level : Nat := 0
  burst : Nat := 0
  rate : Nat := 0
  owner : Nat := 0
  gen : Nat := 0
  counter : Nat := 0
  epoch : Nat := 0
  fifo : List Nat := []
  quiesced : Bool := false
deriving DecidableEq, Repr

/-- A gate view entry (R363). -/
structure GView where
  valid : Bool := false
  index : Nat := 0
  rights : Nat := 0
  gen : Nat := 0
deriving DecidableEq, Repr

/-- A layout descriptor (R339). -/
structure Layout where
  slots : Nat := 0
  dies : Nat := 0
  mode : Nat := 0
  syncd : Nat := 0
  keyid : Nat := 0
  crate : Nat := 0
  stksh : Nat := 0
  wreg : Nat := 0
  vrate : Nat := 0
  meng : Nat := 0
  ceng : Nat := 0
  peng : Nat := 0
deriving DecidableEq, Repr

/-- A range-table entry (R196). -/
structure RangeEntry where
  valid : Bool := false
  sc : Bool := false
  win : Bool := false
  keyid : Nat := 0
  home : Nat := 0
  rot : Nat := 0
  pr : Bool := false
  pw : Bool := false
  pd : Bool := false
  offset : Nat := 0
  limit : Nat := 0
  base : Nat := 0
deriving DecidableEq, Repr

/-- A page-table entry (R198): a leaf, or a pointer to the table of the next level. -/
structure Leaf where
  valid : Bool := false
  leaf : Bool := true
  span : Bool := false
  sc : Bool := false
  pr : Bool := false
  pw : Bool := false
  pd : Bool := false
  addr : Nat := 0
deriving DecidableEq, Repr

/-- A command queue of a virtual function (R300 to R303, R351). fetching is 1 while a record's fetch is outstanding and
2 when its response will be discarded, and awaited says that an invalidation of the queue's PASID waits for its return
(R322). -/
structure Queue where
  qbase : Nat := 0
  cfg : Nat := 0
  ci : Nat := 0
  cplerr : Bool := false
  cfgerr : Bool := false
  orphan : Bool := false
  kickerr : Bool := false
  sub : Nat := 0
  pi : Nat := 0
  fetching : Nat := 0
  awaited : Bool := false
deriving DecidableEq, Repr

/-- TDISP interface states (R346). -/
inductive Tdisp where
  | unlocked | locked | run | error
deriving DecidableEq, Repr

/-- Where a partition stands in a pre-emption (R294 to R297). why: 0 slice, 1 layout commit, 2 migration, 3 a hold of the
package, 4 a commit given up. cut: it was saved for a commit under which its launches do not go on (R349). -/
inductive PreSt where
  | none | stopping (why : Nat) | saved (why : Nat) | cut
deriving DecidableEq, Repr

/-- A function: number 0 is the physical function, of which only the mailbox, MSI-X table and configuration space are
used (R335 to R346). pasid is the PASID of its mailbox and engines (R261, R341), config what the host has written to its
configuration space by word (R343); roots holds the root pointers of its page tables by sub-context, and pages their
entries (R198). -/
structure Vf where
  layout : Layout := {}
  resident : Bool := false
  instar : Nat := 0
  cmdaddr : Nat := 0
  cmdRun : Bool := false
  cmdStatus : Nat := 0
  cmdRec : Nat := 0
  cmdStep : Nat := 0
  cursub : Nat := 0
  faccept : Nat := 0
  locked : Bool := false
  refused : Bool := false
  tstop : Bool := false
  queues : Map Queue := []
  msix : Map Word := []
  msixPend : Nat := 0
  ranges : Map RangeEntry := []
  pages : Map Leaf := []
  roots : Map Nat := []
  pasid : Nat := 0
  config : Map Word := []
  tdisp : Tdisp := .unlocked
  ring : Nat := 0
  ringOff : Bool := false
  fdead : Nat := 0
  ringSeq : Nat := 0
  nextLaunch : Nat := 1
  wbase : Map Nat := []
  chan : Map Nat := []
  nodeChan : Map Nat := []
  nodeSc : Map Nat := []
  pre : PreSt := .none
  sliceTill : Nat := 0
  waitFrom : Nat := 0
  picked : Bool := false
  barred : Bool := false
  halted : Bool := false
deriving DecidableEq, Repr

/-- Node states (R310). -/
inductive NodeSt where
  | pending | ready | running | done | skipped
deriving DecidableEq, Repr

/-- A node of a running graph (R307, R308): body holds words 2 to 7. checked says of a LAUNCH that its record has been read,
and of a deterministic COPY to the weight store that it has what it needs from its decision cycle on (R315, R319). -/
structure Node where
  ty : Nat := 0
  die : Nat := 0
  prio : Nat := 0
  npred : Nat := 0
  off : Nat := 0
  succ : List Nat := []
  body : Nat := 0
  st : NodeSt := .pending
  readyAt : Nat := 0
  count : Nat := 1
  base : Nat := 0
  lid : Option Nat := none
  op : Option Nat := none
  checked : Bool := false
deriving DecidableEq, Repr

/-- A record taken from a queue and its graph (R304 to R313). edges maps 4·src + k to 1 live or 2 dead; recs counts the
records of it that firmware has not acted on, before which it does not end (R394). -/
structure Graph where
  vf : Nat := 0
  q : Nat := 0
  idx : Nat := 0
  sub : Nat := 0
  die : Nat := 0
  opc : Nat := 0
  cplval : Nat := 0
  cpladdr : Nat := 0
  base : Nat := 0
  irq : Bool := false
  order : Bool := false
  det : Bool := false
  dva : Nat := 0
  nodes : List Node := []
  edges : Map Nat := []
  status : Nat := 0
  node : Nat := 0xFFFF
  fcode : Nat := 0
  started : Bool := false
  failed : Bool := false
  mute : Bool := false
  recs : Nat := 0
  done : Bool := false
deriving DecidableEq, Repr

/-- An engine ring (R259): kind 0 port, 1 collective. -/
structure Ring where
  vf : Nat := 0
  kind : Nat := 0
  die : Nat := 0
  base : Nat := 0
  bell : Nat := 0
  consumed : Nat := 0
  taken : Nat := 0
  seen : Nat := 0
  open_ : List Nat := []
deriving DecidableEq, Repr

/-- A collector and its trap queue (R391, R392); each queue entry says whether it holds a reserved place. ackAt is the
cycle of the last acknowledgement sent for it (R393). -/
structure Collector where
  queue : List (FaultRec × Bool) := []
  input : List FaultRec := []
  sumMissed : Nat := 0
  sumLatent : Nat := 0
  ovf : Nat := 0
  ovfn : Nat := 0
  ovq : List FaultRec := []
  supstat : Nat := 0
  replayvf : Nat := 0
  svc : List FaultRec := []
  ackAt : Nat := 0
deriving DecidableEq, Repr

/-- A scrub engine (R379): st 0 IDLE, 1 RUNNING, 2 DONE, 3 INTERRUPTED; lo, hi and next are physical addresses. -/
structure Scrub where
  lo : Nat := 0
  hi : Nat := 0
  next : Nat := 0
  st : Nat := 0
deriving DecidableEq, Repr

/-- The banks of a partition whose contexts are saved (R295), by local address; its threads stand in State.threads under
SLOTIDs of the store that holds them (Machine/Ops.lean). -/
structure Saved where
  mem : Memory := []
  empties : Map Bool := []
  poison : Map Bool := []
  shadows : Map Nat := []
  feq : Map (List Waiter) := []
deriving DecidableEq, Repr

/-- A collective group (R262, R267): its ranks as (package, function) and its domain key. -/
structure Group where
  valid : Bool := false
  ranks : List (Nat × Nat) := []
  dkey : Nat := 0
deriving DecidableEq, Repr

/-- A RoCEv2 queue pair (R266, R267): its owner and descriptor. -/
structure QPair where
  vf : Nat := 0
  desc : Nat := 0
deriving DecidableEq, Repr

/-- A layout journal entry (R348): phase 1 PREPARED, 2 APPLIED, with its CRC-32C. -/
structure Journal where
  vf : Nat
  old : Layout
  new : Layout
  phase : Nat
  crc : Nat
deriving DecidableEq, Repr

/-- A teardown journal entry (R374, R383): step 0 while its key slot is to be zeroised, 1 while its range is scrubbed, 2
while its key slot is to be freed; again is set when a reset has found it open (R401). -/
structure Teardown where
  vf : Nat
  key : Nat
  base : Nat
  len : Nat
  lay : Layout
  step : Nat
  again : Bool := false
deriving DecidableEq, Repr

/-- An invalidation (R201) of a device range of a sub-context (16 means every sub-context, 17 that the range is
physical, 18 that base is a key slot): complete when no request of vf that was translated there has accesses to perform.
what says what follows: 0 a MAPRANGE of the mailbox fn, 1 GSWITCH, 2 WREVOKE, 3 RELEASE, 4 a BNDREQ release of request fn,
5 a MAPPAGE. The change of a mapping command takes effect with the completion (R408): entry is what it writes, and place
its index or level, or the sub-context that a GSWITCH makes current. -/
structure Invalid where
  vf : Nat
  sub : Nat
  base : Nat
  len : Nat
  what : Nat
  fn : Nat
  place : Nat := 0
  entry : Nat := 0
  till : Nat := 0
deriving DecidableEq, Repr

/-- A node of a stack's counter tree (R356): the counter that its parent holds for it, and whether its stored image has
been damaged. -/
structure TreeNode where
  ctr : Nat := 0
  bad : Bool := false
deriving DecidableEq, Repr

/-- A Geuth table (R404): its magic number, version and reserved fields, the last ORed, are checked at boot. -/
structure Geuth where
  fcol : List (Nat × Nat)
  foffer : Nat
  kdom : Bool
  kwin : Bool
  dslice : Nat
  fdead : Nat
  svn : Nat
  version : Nat
  reserved : Nat
  magic : Nat := 0x48544547
deriving DecidableEq, Repr

/-- One flash copy of a boot item (R403): whether each of its two signatures verifies, the hashes of the public keys
that they verify against, its security version, and the table that a copy of the Geuth table holds, whose version is its
SVN. -/
structure FlashCopy where
  rsa : Bool := true
  slh : Bool := true
  rsaKey : Nat := 0
  slhKey : Nat := 0
  svn : Nat := 0
  table : Option Geuth := none
deriving DecidableEq, Repr

/-- The fuses that boot checks against (R403): the hashes of the two public keys and the lowest security version. -/
structure Fuses where
  rsaKey : Nat := 0
  slhKey : Nat := 0
  svn : Nat := 0
deriving DecidableEq, Repr

/-- What the host or an outside verifier receives: interrupts, SPDM answers, each with the signature of its transcript
by the key of a certificate slot, register values read, and the completion of a PASID invalidation. -/
inductive Out where
  | msix (f vec : Nat)
  | spdm (nonce index value : Nat)
  | spdmSigned (nonce own slot sig : Nat)
  | spdmSig (nonce : Nat) (sig : Nat)
  | cxl (pa : Nat) (data : List Byte) (poisoned : Bool)
  | remote (qpn addr : Nat) (data : List Byte)
  | gsync (die : Nat)
  | reg (f off : Nat) (val : Word)
  | pasidDone (vf q : Nat)
  | line (pa val : Nat) (poisoned : Bool)
deriving DecidableEq, Repr

/-- Package registers and tables outside the functions (R256, R267, R341, R344, R345, R401 to R405). cmdq lists the
functions whose commands run or wait, in doorbell order; copies holds the two flash copies of each boot item, in the
order in which boot loads them, and fuses what they are checked against; kept holds what the always-on domain keeps of
the functions while the root is in recovery, when none exists; measure says where the free values of the four measured
images start, bootPkg the package number measured at boot, certs the certificate slots, and spdm the transcript hash of
the answer to each nonce; treeKey counts the tree keys that cold resets have generated (R356), and stepping is the
module's (R1). table is the rank table that a GROUPSET under way has read (R267). crcNext lists device lines whose next packet
to a command core, to an engine that reads a record, or out of the package fails its check (R399). hold is the cause for which the
package is held until a cold reset, and holdDie the die of a cause 1; TCAUSE and TDIE show them once every partition is
frozen (R35). -/
structure Pkg where
  geuth : Geuth
  copies : List (FlashCopy × FlashCopy) := []
  fuses : Fuses := {}
  kept : Map Vf := []
  recovery : Bool := false
  numVfs : Nat := 2048
  cmdq : List Nat := []
  pwr : Word := 0
  temp : Word := 0
  temp1 : Word := 0
  warn : Bool := false
  trip : Bool := false
  tcause : Nat := 0
  tdie : Nat := 0
  hold : Nat := 0
  holdDie : Nat := 0
  pkg : Nat := 0
  inDom : Bool := false
  domId : Nat := 0
  members : Nat := 0
  agreed : List (Nat × Nat) := []
  table : List Nat := []
  groups : Map Group := []
  qps : Map QPair := []
  nextQpn : Nat := 1
  slice : Map Nat := []
  journal : List Journal := []
  teardowns : List Teardown := []
  wdog : Map Nat := []
  ide : Map Bool := []
  ideFn : Map Nat := []
  crcNext : List Nat := []
  bndstat : Nat := 0
  brkarm : Map Nat := []
  correct : Map Nat := []
  measure : Nat := 0
  treeKey : Nat := 0
  stepping : Nat := 0xB1
  bootPkg : Nat := 0
  certs : List Nat := [0]
  spdm : Map Nat := []
deriving DecidableEq, Repr

/-- The state of the package. mer is the meridian counter, cur the SLOTID whose bundle issues, free the number of free
values that each partition has drawn, seq the next identifier. mem holds every byte of the package and of host memory by
flat address; poison, flips (words with a correctable error, R204), empties, shadows and feq are kept by flat word number;
tree holds the nodes of the counter trees, and cached the verified ones that the logic dies keep (R356). -/
structure State where
  mer : Nat
  cur : Nat
  args : List Nat
  free : Map Nat
  seq : Nat
  agenda : List Item
  inputs : List Item
  threads : Map Thread
  mem : Memory
  poison : Map Bool
  flips : Map Bool
  empties : Map Bool
  shadows : Map Nat
  feq : Map (List Waiter)
  accesses : List Access
  wacts : List WAct
  lines : Map LineMeta
  tree : Map TreeNode
  cached : List Nat
  granules : Map GranSt
  keys : Map KeySlot
  admits : Map Nat
  gates : Map Gate
  gviews : Map GView
  mirrors : Map Nat
  gwaiters : List Nat
  vfs : Map Vf
  launches : Map Launch
  ops : Map Op
  msgs : Map Msg
  windows : Map Nat
  graphs : Map Graph
  rings : Map Ring
  cols : Map Collector
  scrubs : Map Scrub
  saved : Map Saved
  invs : Map Invalid
  maskFree : Map Nat
  pkg : Pkg
  out : List Out
deriving DecidableEq, Repr

/-- The Geuth table of the module (R404): the columns, offered word and deadlines are the model's own. DESIGN CHOICE,
log 3. -/
def geuth0 : Geuth :=
  { fcol := [(16, 17), (16, 17), (16, 17), (16, 17)], foffer := 0x0FFF, kdom := true, kwin := true,
    dslice := 2000, fdead := 1000000, svn := 0, version := 2, reserved := 0 }

/-- The flash of the module (R403): two good copies of the management firmware, the Geuth table and the compute-die
firmware. DESIGN CHOICE, log 3. -/
def flash0 : List (FlashCopy × FlashCopy) :=
  let t : FlashCopy := { table := some geuth0 }
  [({}, {}), (t, t), ({}, {})]

/-- The scrub engine of stack j as boot starts it (R383): the whole range of its die, from its first granule. -/
def scrub0 (j : Nat) : Nat × Scrub :=
  (j, { lo := j / 2 * 2 ^ 39, hi := j / 2 * 2 ^ 39 + 2 ^ 37, next := j / 2 * 2 ^ 39 + j % 2 * 4096, st := 1 })

/-- The package right after a cold reset and boot (R383, R401, R403): no layout, no thread, every granule DIRTY, key slot
0 of firmware ACTIVE, the boot scrub running, the sensors about to be refreshed. -/
def State.reset : State :=
  { mer := 0, cur := 0, args := [], free := [(0, 4)], seq := 16,
    agenda := (List.range 8).map (fun j => { cycle := 128, seq := j, ev := .scrubGranule, args := [j] })
      ++ [{ cycle := 4000000, seq := 8, ev := .sensorRefresh }],
    inputs := [], threads := [], mem := [], poison := [], flips := [], empties := [], shadows := [], feq := [],
    accesses := [], wacts := [], lines := [], tree := [], cached := [], granules := [],
    keys := [(0, { st := 1, owner := 0, kind := 0, gen := 1 })], admits := [], gates := [], gviews := [],
    mirrors := [], gwaiters := [], vfs := [], launches := [], ops := [], msgs := [], windows := [], graphs := [],
    rings := [], cols := [], scrubs := (List.range 8).map scrub0, saved := [], invs := [], maskFree := [],
    pkg := { geuth := geuth0, copies := flash0 }, out := [] }

end Sys2Proof.Machine
end

