-- ==== Sys2Proof/Machine/Ops.lean ====
section
/-! DEFINITION. The named operations over the state that every meaning is written with: thread contexts, registers and
results in flight, free values, dated steps, memory and poison, fault records, and the freezing of a thread. -/

namespace Sys2Proof.Machine

/-- The parts of a SLOTID (R32). A saved context is kept under the SLOTID of the rank of its slot (R349) plus 2^14 times
one more than its function, so that what ends or freezes threads reaches it in the store that holds it. DESIGN CHOICE,
log 59. -/
def dieOf (t : Nat) : Nat := t / 2048 % 8
def isSaved (t : Nat) : Bool := decide (2 ^ 14 ≤ t)
def savedId (vf t : Nat) : Nat := 2 ^ 14 * (vf + 1) + t % 2 ^ 14
def coreOf (t : Nat) : Nat := t / 8 % 256
def slotOf (t : Nat) : Nat := t % 8
def slotid (die core slot : Nat) : Nat := die * 2048 + core * 8 + slot

/-- The column, row and cluster position of a core (R18, R141). -/
def colOf (core : Nat) : Nat := core / 8
def rowOf (core : Nat) : Nat := core % 8
def posOf (core : Nat) : Nat := core % 4

/-- A context by SLOTID, and its replacement. -/
def getTh (s : State) (t : Nat) : Thread := mapGet {} s.threads t
def putTh (s : State) (t : Nat) (x : Thread) : State := { s with threads := mapSet {} s.threads t x }
def modTh (s : State) (t : Nat) (f : Thread → Thread) : State := putTh s t (f (getTh s t))

/-- The context whose bundle issues. -/
def curTh (s : State) : Thread := getTh s s.cur
def modCur (s : State) (f : Thread → Thread) : State := modTh s s.cur f

/-- Functions, launches, requests and collectors by number. The PASID of a function is its number. DESIGN CHOICE, log
58. -/
def vf0 (v : Nat) : Vf := { pasid := v }
def getVf (s : State) (v : Nat) : Vf := mapGet (vf0 v) s.vfs v
def modVf (s : State) (v : Nat) (f : Vf → Vf) : State := { s with vfs := mapSet (vf0 v) s.vfs v (f (getVf s v)) }
def getLaunch (s : State) (l : Nat) : Launch := mapGet {} s.launches l
def modLaunch (s : State) (l : Nat) (f : Launch → Launch) : State :=
  { s with launches := mapSet {} s.launches l (f (getLaunch s l)) }
def getOp (s : State) (o : Nat) : Op := mapGet {} s.ops o
def modOp (s : State) (o : Nat) (f : Op → Op) : State := { s with ops := mapSet {} s.ops o (f (getOp s o)) }
def delOp (s : State) (o : Nat) : State := { s with ops := mapDel s.ops o }
def getCol (s : State) (c : Nat) : Collector := mapGet {} s.cols c
def modCol (s : State) (c : Nat) (f : Collector → Collector) : State :=
  { s with cols := mapSet {} s.cols c (f (getCol s c)) }
def getGraph (s : State) (g : Nat) : Graph := mapGet {} s.graphs g
def modGraph (s : State) (g : Nat) (f : Graph → Graph) : State :=
  { s with graphs := mapSet {} s.graphs g (f (getGraph s g)) }

/-- Operand k of the event being carried out. -/
def argN (s : State) (k : Nat) : Nat := s.args.getD k 0

/-- A free value of partition vf between lo and hi (R4): the next one of its Config.freeWord, reduced into the range; 0
is the package. DESIGN CHOICE, log 2. -/
def draw (s : State) (vf lo hi : Nat) : Nat × State :=
  let k := mapGet 0 s.free vf
  (lo + (Config.freeWord vf k).toNat % (hi - lo + 1), { s with free := mapSet 0 s.free vf (k + 1) })

/-- A fresh identifier. -/
def fresh (s : State) : Nat × State := (s.seq, { s with seq := s.seq + 1 })

/-- Enter a dated step. -/
def sched (s : State) (cycle : Nat) (ev : Instr) (args : List Nat) : State :=
  { s with seq := s.seq + 1, agenda := s.agenda ++ [{ cycle := cycle, seq := s.seq, ev := ev, args := args }] }

/-- The first cycle at or after c in which slot k issues (R7). -/
def slotCycle (c k : Nat) : Nat := c + (k + 8 - c % 8) % 8

/-- Rotation (R58). -/
def physV (rrb code : Nat) : Nat := if code < 24 then code else 24 + (code - 24 + rrb) % 24

/-- Scalar operands (R42): s0 reads as zero, codes 32 to 63 name x registers. -/
def rdS (th : Thread) (code : Nat) : Word :=
  if code = 0 then 0 else if code < 32 then mapGet 0 th.sreg code else mapGet 0 th.xreg (code - 32)

/-- Vector operands, by code and by physical register (R44, R58). -/
def rdVp (th : Thread) (phys : Nat) : Vec := mapGet 0 th.vreg phys
def rdV (th : Thread) (code : Nat) : Vec := rdVp th (physV th.rrb code)

/-- Predicates (R45): p0 reads all-true. -/
def rdP (th : Thread) (code : Nat) : Pred := if code = 0 then 0xFFFF else mapGet 0 th.preg code

/-- The governing bit of S-slot, L-slot and X-slot instructions (R45). -/
def predOn (th : Thread) (p : Nat) : Bool := (rdP th p).toNat % 2 == 1

/-- Scalar writes (R42): a write to s0 is discarded. -/
def wrS (th : Thread) (i : Nat) (v : Word) : Thread :=
  if i = 0 then th else { th with sreg := mapSet 0 th.sreg i v }

/-- Vector and predicate writes of the bits that mask names (R111); p0 is never written. -/
def merge (n old val mask : Nat) : Nat := (old &&& (2 ^ n - 1 - mask % 2 ^ n)) ||| (val &&& mask)
def wrVp (th : Thread) (phys val mask : Nat) : Thread :=
  { th with vreg := mapSet 0 th.vreg phys (BitVec.ofNat 512 (merge 512 (rdVp th phys).toNat val mask)) }
def wrP (th : Thread) (i val mask : Nat) : Thread :=
  if i = 0 then th else
    { th with preg := mapSet 0 th.preg i (BitVec.ofNat 16 (merge 16 (rdP th i).toNat val mask)) }

/-- Slot sets are 8-bit masks; firmware owns every slot of its cores. -/
def maskHas (m i : Nat) : Bool := m / 2 ^ i % 2 == 1
def bitsOf (m n : Nat) : List Nat := (List.range n).filter (maskHas m)

/-- TST with n turns added to BCC, saturating (R51, R59). -/
def addBcc (tst : BitVec 33) (n : Nat) : BitVec 33 :=
  BitVec.ofNat 33 (tst.toNat / 2 ^ 32 * 2 ^ 32 + min (tst.toNat % 2 ^ 32 + n) (2 ^ 32 - 1))

/-- A register written afresh has good parity (R400). Parity codes: a scalar register's number, 128 and a predicate, 192
and the operand code of a mailbox register, 256 and a latch, and for the 64-bit pieces of a vector register, which have a
parity each (R398), 512 and eight times the physical register and the piece; 1,024 and the number of a tile element. -/
def goodParity (th : Thread) (k : Nat) : Thread := { th with parity := th.parity.filter (· != k) }
def vparity (phys piece : Nat) : Nat := 512 + 8 * phys + piece
def vparities (phys : Nat) : List Nat := (List.range 8).map (vparity phys)

/-- The pieces of a vector register of which a write under mask covers every bit have good parity. DEDUCED, log 14. -/
def goodPieces (th : Thread) (phys mask : Nat) : Thread :=
  (List.range 8).foldl (fun a k =>
    if mask / 2 ^ (64 * k) % 2 ^ 64 = 2 ^ 64 - 1 then goodParity a (vparity phys k) else a) th

/-- The checkpoint of a thread takes a live register's result that was in flight at its safe point (R290): the bits in
mask of the register that a code names. -/
def landCkpt (c : Ckpt) (p : Pend) : Ckpt :=
  if c.seq ≤ p.seq then c
  else
    match p.dest with
    | .s i => if maskHas c.live.lS i then { c with sreg := mapSet 0 c.sreg i (BitVec.ofNat 64 p.val) } else c
    | .v i =>
      (bitsOf c.live.lV 48).foldl (fun a k =>
        if physV c.rot k = i then
          { a with vreg := mapSet 0 a.vreg k (BitVec.ofNat 512 (merge 512 (mapGet 0 a.vreg k).toNat p.val p.mask)) }
        else a) c
    | .p i =>
      if maskHas c.live.lP i then
        { c with preg := mapSet 0 c.preg i (BitVec.ofNat 16 (merge 16 (mapGet 0 c.preg i).toNat p.val p.mask)) }
      else c
    | .lc => if c.live.lLc then { c with lc := BitVec.ofNat 64 p.val } else c
    | .rrb => if c.live.lRrb then { c with rrb := p.val % 24 } else c
    | .seed => if c.live.lSeed then { c with seed := BitVec.ofNat 32 p.val } else c
    | .phase => { c with phase := BitVec.ofNat 4 p.val }
    | .fst | .tst | .fstOr | .bccAdd => c

/-- The register that a result is for takes it (R55, R111, R112). DEDUCED, log 14. -/
def landReg (th : Thread) (p : Pend) : Thread :=
  match p.dest with
  | .s i => goodParity (wrS th i (BitVec.ofNat 64 p.val)) i
  | .v i => goodPieces (wrVp th i p.val p.mask) i p.mask
  | .p i => let x := wrP th i p.val p.mask; if p.mask = 2 ^ 16 - 1 then goodParity x (128 + i) else x
  | .lc => { th with lc := BitVec.ofNat 64 p.val }
  | .rrb => { th with rrb := p.val % 24 }
  | .seed => { th with seed := BitVec.ofNat 32 p.val }
  | .fst => { th with fst := BitVec.ofNat 5 p.val }
  | .tst => { th with tst := BitVec.ofNat 33 p.val }
  | .phase => { th with phase := BitVec.ofNat 4 p.val }
  | .fstOr => { th with fst := th.fst ||| BitVec.ofNat 5 p.val }
  | .bccAdd => { th with tst := addBcc th.tst p.val }

/-- One result lands: in its register, and in the checkpoint that it was in flight at (R55, R290). -/
def landOne (th : Thread) (p : Pend) : Thread :=
  let x := landReg th p
  { x with ckpt := landCkpt x.ckpt p }

/-- Results are held in the order in which they land: by cycle, and within a cycle by issue (R56). -/
def insPend (l : List Pend) (p : Pend) : List Pend :=
  match l with
  | [] => [p]
  | q :: t => if p.due < q.due ∨ (p.due = q.due ∧ p.seq < q.seq) then p :: q :: t else q :: insPend t p

/-- Every result due in a cycle of at most c lands. -/
def landUpto (th : Thread) (c : Nat) : Thread :=
  let due := th.pend.takeWhile (fun p => decide (p.due ≤ c))
  { due.foldl landOne th with pend := th.pend.dropWhile (fun p => decide (p.due ≤ c)) }

/-- A scalar register written outside a turn in cycle c (R218, R233): results due by then have landed before it (R56). -/
def giveS (th : Thread) (c i : Nat) (v : Word) : Thread := goodParity (wrS (landUpto th c) i v) i

/-- The same for a value that arrives at thread t after wait cycles more: it is in flight until then. -/
def giveLate (s : State) (t i : Nat) (v : Word) (wait : Nat) : State :=
  if wait = 0 then modTh s t fun th => giveS th s.mer i v
  else
    sched (modTh { s with seq := s.seq + 1 } t fun th =>
      { th with pend := insPend th.pend { due := s.mer + wait, seq := s.seq, dest := .s i, val := v.toNat, mask := 0 } })
      (s.mer + wait) .registerResultLand [t]

/-- A result of the current thread that lands lat turns after this cycle (R55). -/
def pushPend (s : State) (dest : Dest) (val mask lat : Nat) : State :=
  modCur { s with seq := s.seq + 1 } fun th =>
    { th with pend := insPend th.pend { due := s.mer + 8 * lat, seq := s.seq, dest := dest, val := val, mask := mask } }

/-- A scalar result; one for s0 is in flight as any other and is discarded when it lands (R42). DEDUCED, log 12. -/
def pushS (s : State) (d : Nat) (v : Word) (lat : Nat) : State := pushPend s (.s d) v.toNat 0 lat

/-- A vector result of the bits in mask; the register code is resolved through RRB at issue (R109). -/
def pushV (s : State) (d val mask lat : Nat) : State :=
  pushPend s (.v (physV (curTh s).rrb d)) val mask lat

/-- A predicate result of the bits in mask. -/
def pushP (s : State) (d val mask lat : Nat) : State := pushPend s (.p d) val mask lat

/-- Floating flags raised by a result, ORed into FST when it lands (R112). -/
def pushFlags (s : State) (fl lat : Nat) : State := if fl = 0 then s else pushPend s .fstOr fl 0 lat

/-- Flat addresses of the one memory: scratchpads, weight stores, device memory by physical address, host memory by PASID
and IOVA, and the instruction-store share of a launch on a core (R185, R191, R194, R316, R322). DESIGN CHOICE, log 1. -/
def scratchBase (die core : Nat) : Nat := (die * 256 + core) * 2 ^ 18
def weightBase (die : Nat) : Nat := 2 ^ 40 + die * 2 ^ 29
def istoreBase (l die core : Nat) : Nat := 2 ^ 100 + (l * 1024 + die * 256 + core) * 2 ^ 18
def deviceBase : Nat := 2 ^ 48
def hostBase : Nat := 2 ^ 64
def hostAddr (pasid iova : Nat) : Nat := hostBase + pasid % 2 ^ 20 * 2 ^ 64 + iova % 2 ^ 64

/-- Bytes of memory, little-endian (R9). DESIGN CHOICE, log 20. -/
def rdByte (m : Memory) (a : Nat) : Byte := mapGet 0 m a
def wrByte (m : Memory) (a : Nat) (b : Byte) : Memory := mapStore 0 m a b
def rdMem (m : Memory) (a n : Nat) : Nat := natOfBytes ((List.range n).map fun i => rdByte m (a + i))
def wrBytes (m : Memory) (a : Nat) (bs : List Byte) : Memory :=
  match bs with
  | [] => m
  | b :: t => wrBytes (wrByte m a b) (a + 1) t
def wrMem (m : Memory) (a n v : Nat) : Memory := wrBytes m a (bytesOfNat n v)

/-- The poison mark of a word (R204), and its setting. -/
def poisoned (s : State) (w : Nat) : Bool := mapGet false s.poison w
def setPoison (s : State) (w : Nat) (b : Bool) : State := { s with poison := mapSet false s.poison w b }

/-- Overwrite a whole 8-byte word, clean or poisoned (R205, R206); an error of its old contents is gone. -/
def putWord (s : State) (w v : Nat) (bad : Bool) : State :=
  setPoison { s with mem := wrMem s.mem (8 * w) 8 v, flips := mapSet false s.flips w false } w bad

/-- A word is read by core c: a correctable error is corrected and counted for the core (R204). -/
def correctWord (s : State) (c w : Nat) : State :=
  if mapGet false s.flips w then
    { s with
      flips := mapSet false s.flips w false
      pkg := { s.pkg with correct := mapSet 0 s.pkg.correct c (mapGet 0 s.pkg.correct c + 1) } }
  else s

/-- Number of one bits among the n low bits (R100). -/
def popc (n x : Nat) : Nat := (bitsOf x n).length

/-- The slots and dies of a partition, and its number of slots (R185, R339). -/
def slotsOf (s : State) (vf : Nat) : Nat := if vf = 0 then 255 else (getVf s vf).layout.slots
def diesOf (s : State) (vf : Nat) : Nat := if vf = 0 then 15 else (getVf s vf).layout.dies
def slotCount (s : State) (vf : Nat) : Nat := (bitsOf (slotsOf s vf) 8).length

/-- Bytes of a partition's local space on a core (R185). -/
def localSize (s : State) (vf : Nat) : Nat := slotCount s vf * 32768

/-- Partition bank, physical bank and offset in the core's array of local word w (R185). -/
def partBank (k w : Nat) : Nat := w % (8 * k)
def physBank (s : State) (vf w : Nat) : Nat :=
  let sl := bitsOf (slotsOf s vf) 8
  let j := partBank sl.length w
  8 * sl.getD (j / 8) 0 + j % 8
def localOff (s : State) (vf w : Nat) : Nat := physBank s vf w * 4096 + w / (8 * slotCount s vf) * 8

/-- The flat word number of local word w of a partition on a core. -/
def localWord (s : State) (vf die core w : Nat) : Nat := (scratchBase die core + localOff s vf w) / 8

/-- A local address as a flat address. -/
def localAddr (s : State) (vf die core a : Nat) : Nat := localWord s vf die core (a / 8) * 8 + a % 8

/-- Read n bytes at local address a: bytes of one word, or whole words. -/
def rdLocal (s : State) (vf die core a n : Nat) : Nat :=
  if n ≤ 8 then rdMem s.mem (localAddr s vf die core a) n
  else natOfBytes ((List.range n).map fun i => rdByte s.mem (localAddr s vf die core (a + i)))

/-- Local words that n bytes at a touch. -/
def localWords (a n : Nat) : List Nat := (List.range ((a % 8 + n + 7) / 8)).map fun i => a / 8 + i

/-- Whether a core belongs to the firmware column pair of its die (R19, R20). -/
def isFirmware (s : State) (die core : Nat) : Bool :=
  let p := s.pkg.geuth.fcol.getD die (0, 0)
  colOf core == p.1 || colOf core == p.2

/-- A SLOTID with the rank of its slot in the slot set of a partition, and back; the context that a saved one will be in
its slot (R349). -/
def rankId (s : State) (vf t : Nat) : Nat := t / 8 * 8 + (bitsOf (slotsOf s vf) 8).idxOf (t % 8)
def unrank (s : State) (vf t : Nat) : Nat := t % 2 ^ 14 / 8 * 8 + (bitsOf (slotsOf s vf) 8).getD (t % 8) 0
def realId (s : State) (vf t : Nat) : Nat := if isSaved t then unrank s vf t else t

/-- The contexts of a partition are saved, so the requests of its threads wait (R295); those of its graph nodes and
engines use nothing that is saved. -/
def swapped (s : State) (o : Op) : Bool :=
  match (getVf s o.vf).pre with
  | .saved _ => o.thread.isSome
  | _ => false

/-- Instar of a partition (R298). -/
def instarOf (s : State) (vf : Nat) : Nat := (getVf s vf).instar

/-- Kinds of fault codes (R388): fatal codes, and the records that are queued for a supervisor's choice. -/
def isFatal (code : Nat) : Bool := code == 0x08 || code == 0x10 || code == 0x21 || code == 0x23 || code == 0x25
def isInfo (code : Nat) : Bool := code == 0x22 || code == 0x24

/-- A collector's number: die and row (R389). -/
def collector (die row : Nat) : Nat := die * 8 + row
def threadCol (t : Nat) : Nat := collector (dieOf t) (rowOf (coreOf t))

/-- A bitmap of cores in DETAIL words 5 to 7 (R388), the bitmap of a record, and the union of two records of one page
(R390). -/
def withCores (r : FaultRec) (b : Nat) : FaultRec :=
  { r with d5 := b % 2 ^ 64, d6 := b / 2 ^ 64 % 2 ^ 64, d7 := b / 2 ^ 128 % 2 ^ 64 }
def coresOf (r : FaultRec) : Nat := r.d5 + r.d6 * 2 ^ 64 + r.d7 * 2 ^ 128
def mergeRec (a b : FaultRec) : FaultRec :=
  let m := coresOf a ||| coresOf b
  { withCores a m with ops := a.ops ++ b.ops, mer := min a.mer b.mer, merged := a.merged || b.merged || decide (2 ≤ popc 144 m) }

/-- Packets that merge (R390), and the union of a packet with the first of a list that it merges with. -/
def sameXlate (a b : FaultRec) : Bool :=
  a.code == 0x20 && b.code == 0x20 && a.vf == b.vf && a.cause == b.cause && a.addr == b.addr
def mergeIn (l : List FaultRec) (r : FaultRec) : List FaultRec :=
  match l with
  | [] => []
  | e :: t => if sameXlate e r then mergeRec e r :: t else e :: mergeIn t r

/-- A record enters the service channel towards a collector (R389): packets of one collector stay in order, and each
arrives after a free time; one that is on its way takes a further packet of its page with it (R390). DESIGN CHOICE, log
11. -/
def sendRec (s : State) (col : Nat) (r : FaultRec) : State :=
  if (getCol s col).svc.any fun e => sameXlate e r then modCol s col fun c => { c with svc := mergeIn c.svc r }
  else
    let d := draw s r.vf 1 256
    let last := (s.agenda.filter fun i => i.ev == .faultRecordArrive && i.args == [col]).foldl (fun m i => max m i.cycle) 0
    sched (modCol d.2 col fun c => { c with svc := c.svc ++ [r] }) (max (s.mer + d.1) last) .faultRecordArrive [col]

/-- The record of thread t for a fault of code code, before its code-specific parts (R387). -/
def threadRec (s : State) (t code : Nat) : FaultRec :=
  let th := getTh s t
  { code := code, sidv := true, slotid := realId s th.vf t, vf := th.vf, mer := s.mer, launch := th.launch.toNat,
    instar := instarOf s th.vf, fatal := isFatal code }

/-- Delay-slot bundles still to issue, and the pending target (R387). -/
def recBranch (th : Thread) (r : FaultRec) : FaultRec :=
  match th.br with
  | some b => { r with dsl := b.left, tgt := b.tgt }
  | none => { r with dsl := 0, tgt := 0 }

/-- The cycle in which the last result in flight has landed and the last matrix command is complete (R37, R147). -/
def drainCycle (th : Thread) (c : Nat) : Nat :=
  th.mq.foldl (fun m q => max m q.f) (th.pend.foldl (fun m p => max m p.due) c)

/-- Make the landings of a stopped thread happen in their own cycles. -/
def schedLandings (s : State) (t : Nat) : State :=
  (getTh s t).pend.foldl (fun a p => sched a p.due .registerResultLand [t]) s

/-- Freeze thread t with a record r (R385): its parks are held, its results still land, and a STOP that it was asked for
finds it frozen (R393). -/
def freezeTh (s : State) (t : Nat) (r : FaultRec) : State :=
  schedLandings
    (modTh s t fun th =>
      { th with st := .frozen, fault := r.code, frec := r, wasParked := th.parks, parks := [], stopAsked := false }) t

/-- TAKING AN EXCEPTION AT ISSUE (R66, R385, R387, R389): the bundle is suppressed, the current thread freezes with PC
and NEXTPC at that bundle and the branch state as it stood, its state word shows the code, and the record goes to the
collector of its row. -/
def raiseTrap (s : State) (e : Trap) : State :=
  let t := s.cur
  let th := getTh s t
  let r := recBranch th
    { threadRec s t e.code with
      cause := e.cause, unit := e.unit, pc := th.pc, nextpc := th.pc, addr := e.addr, d5 := e.d5, d6 := e.d6, d7 := e.d7
      heal := if e.code = 0x08 then .launch th.lid 0x08 else .none }
  sendRec (freezeTh s t r) (threadCol t) r

/-- The effect of one slot on the state, or the fault it raises at issue. -/
abbrev Eff := State → Except Trap State

/-- A slot instruction issued alone: its effect, or the exception it takes, which is a next state. -/
def runSlot (e : Eff) (s : State) : Host.Outcome State Fault Refusal :=
  match e s with
  | .ok s' => .next s'
  | .error t => .next (raiseTrap s t)

/-- A slot instruction under a predicate: with bit 0 clear it has no effect of its own (R45). -/
def predEff (p : Nat) (e : Eff) : Eff := fun s => if predOn (curTh s) p then e s else .ok s

/-- A bank access is remembered for the span in which another can meet it (R217). -/
def noteAccess (s : State) (a : Access) : State :=
  { s with accesses := a :: s.accesses.filter (fun x => decide (s.mer ≤ x.cycle + 16)) }

/-- Two bank accesses of which one holds a reservation of three cycles (R217). -/
def collide (a b : Access) : Bool :=
  a.core == b.core && a.bank == b.bank && (a.rmw || b.rmw)
    && decide (a.cycle ≤ b.cycle + (if b.rmw then 2 else 0)) && decide (b.cycle ≤ a.cycle + (if a.rmw then 2 else 0))

/-- An information record of a thread's core (R206). DEDUCED, log 33. -/
def latentRec (s : State) (t cause addr core : Nat) : State :=
  sendRec s (threadCol t) { threadRec s t 0x24 with cause := cause, addr := addr, d5 := core }

end Sys2Proof.Machine
end

