-- ==== Sys2Proof/Machine/Threads.lean ====
section
/-! DEFINITION. The life of threads: parks and their ends, full/empty waiters, sync domains, exit, the end of a launch and
its kill (11 R271, R278 to R280, R286; 12 R321; 18 R385, R386). -/

namespace Sys2Proof.Machine

/-- Park thread t for reason p after its bundle (R271). -/
def addPark (s : State) (t : Nat) (p : Park) : State :=
  modTh s t fun th => { th with parks := th.parks ++ [p], st := if th.st = .running then .parked else th.st }

/-- A thread parked for nothing runs. -/
def unparked (th : Thread) : Thread := if th.st = .parked ∧ th.parks = [] then { th with st := .running } else th

/-- End the parks of thread t that f picks: its next bundle issues at the first turn in or after cycle c. A park held by
a freeze ends as well (R385), and a thread that is exiting is looked at again (R286). -/
def endPark (s : State) (t : Nat) (f : Park → Bool) (c : Nat) : State :=
  let s1 := modTh s t fun th =>
    if th.parks.any f || th.wasParked.any f then
      unparked
        { th with
          parks := th.parks.filter (fun p => !f p)
          wasParked := th.wasParked.filter (fun p => !f p)
          nextTurn := max th.nextTurn c }
    else th
  if (getTh s t).exiting then sched s1 s.mer .registerResultLand [t] else s1

/-- What a FENCE of a scope still waits for among the requests numbered below upto (R230). DEDUCED, log 37. -/
def fenceOpen (s : State) (t scope upto : Nat) : Bool :=
  let lid := (getTh s t).lid
  (s.ops.any fun e =>
    decide (e.1 < upto) && e.2.thread == some t && e.2.lid == some lid
      && ((decide (1 ≤ scope) && !e.2.complete
            && (e.2.kind == .mask || (e.2.kind == .copy && (e.2.opc == 0x20 || e.2.opc == 0x22))))
          || (decide (2 ≤ scope) && e.2.kind == .peer)
          || (decide (3 ≤ scope) && e.2.kind == .copy && !e.2.complete)))
    || (decide (4 ≤ scope) && s.msgs.any fun e => decide (e.1 < upto) && e.2.src == t && e.2.lid == lid)

/-- Look at the FENCE of thread t again (R230). -/
def fenceCheck (s : State) (t : Nat) : State :=
  let th := getTh s t
  (th.parks ++ th.wasParked).foldl (fun a p =>
    match p with
    | .fence scope upto => if fenceOpen a t scope upto then a else endPark a t (· == p) s.mer
    | _ => a) s

/-- A thread holds the park p, whether frozen or not. -/
def holdsPark (th : Thread) (p : Park) : Bool := th.parks.contains p || th.wasParked.contains p

/-- The full/empty queue of a word (R218), and its replacement. -/
def getFeq (s : State) (w : Nat) : List Waiter := mapGet [] s.feq w
def setFeq (s : State) (w : Nat) (l : List Waiter) : State := { s with feq := mapSet [] s.feq w l }

/-- Remove the full/empty waiters of thread t (R219), those of a saved bank too. -/
def leaveFeq (t : Nat) (q : Map (List Waiter)) : Map (List Waiter) :=
  q.foldl (fun m e => mapSet [] m e.1 (e.2.filter fun w => w.t != t)) []
def leaveQueues (s : State) (t : Nat) : State :=
  { s with feq := leaveFeq t s.feq, saved := s.saved.map fun e => (e.1, { e.2 with feq := leaveFeq t e.2.feq }) }

/-- Requests that end with their thread: watches, gate waits, counter reads, privileged accesses, signal requests not
yet granted, and peer loads that have not reached their bank (R291, R369, R386). -/
def diesWithThread (o : Op) : Bool :=
  match o.kind with
  | .sigw | .gwait | .gread | .priv => true
  | .gsig => !o.granted
  | .peer => o.opc != 0x0A
  | _ => false
def dropOps (s : State) (gone : List Nat) : State :=
  { s with
    ops := s.ops.filter fun e => !gone.contains e.1
    gates := s.gates.map fun g => (g.1, { g.2 with fifo := g.2.fifo.filter fun o => !gone.contains o })
    gwaiters := s.gwaiters.filter fun o => !gone.contains o }
def threadOps (s : State) (t : Nat) (f : Op → Bool) : List Nat :=
  (s.ops.filter fun e => e.2.thread == some t && e.2.lid == some (getTh s t).lid && diesWithThread e.2 && f e.2).map (·.1)
def dropThreadOps (s : State) (t : Nat) : State := dropOps s (threadOps s t fun _ => true)

/-- The matrix commands of thread t are abandoned: what they have not yet read or written stays undone (R152). The last
cycle of an abandoned command still delays the next one (R145). DESIGN CHOICE, log 70. -/
def dropMatrix (s : State) (t : Nat) : State :=
  { modTh s t (fun th => { th with mq := [] }) with
    wacts := s.wacts.filter fun w => !(w.mx && w.owner == t) }

/-- What thread t waits for is given up for a restart (R291): queues, watches, and counter reads of the region. -/
def dropRegion (s : State) (t : Nat) : State :=
  dropOps (leaveQueues s t) (threadOps s t fun o => o.kind != .gread || o.region == (getTh s t).region)

/-- A member of a domain has arrived (R280): a frozen one has not. -/
def arrived (th : Thread) (d : Nat) : Bool :=
  th.parks.contains (.sync d) && (th.st == .parked || th.st == .stopped || th.st == .saved)

/-- The members of the domains of a launch: its threads that have not exited (R278). -/
def members (s : State) (l : Nat) : List Nat :=
  (getLaunch s l).members.filter fun t =>
    (getTh s t).lid == l && (getTh s t).st != .exited && (getTh s t).st != .empty

/-- Release of one member (R280): PHASE advances, and it issues from the first turn at or after c + 16. A member stopped
in place for a pre-emption, and not yet saved, runs again (R294). -/
def releaseOne (d c : Nat) (s : State) (t : Nat) : State :=
  endPark
    (modTh s t fun th =>
      { th with
        phase := th.phase + 1
        st := if th.st = .stopped ∧ th.inPlace ∧ !isSaved t then .parked else th.st
        inPlace := th.inPlace && isSaved t }) t (· == .sync d) (c + 16)

/-- Domain d of launch l releases when every member has arrived (R280). -/
def syncCheck (s : State) (l d : Nat) : State :=
  let ms := members s l
  if !ms.isEmpty && ms.all (fun t => arrived (getTh s t) d) then ms.foldl (releaseOne d s.mer) s else s

/-- Every domain of a launch is looked at again. -/
def syncCheckAll (s : State) (l : Nat) : State :=
  (bitsOf (getLaunch s l).syncmask 16).foldl (fun a d => syncCheck a l d) s

/-- A launch is complete (R321): every thread has exited or it was killed, and no operation of it is left. -/
def launchDone (s : State) (l : Nat) : Bool :=
  let x := getLaunch s l
  !x.done && !x.members.isEmpty
    && (x.killed.isSome || x.members.all fun t => (getTh s t).lid == l && (getTh s t).st == .exited)
    && !s.ops.any (fun e => e.2.lid == some l && !(diesWithThread e.2) && !(x.killed.isSome && e.2.failed))

/-- Enter the completion of a launch that is complete (R321). -/
def tryLaunch (s : State) (l : Nat) : State := if launchDone s l then sched s s.mer .launchComplete [l] else s

/-- Thread t enters EXITED and leaves its sync domains (R286). -/
def exitNow (s : State) (t : Nat) : State :=
  let l := (getTh s t).lid
  tryLaunch
    (syncCheckAll
      (modTh s t fun th => { th with st := .exited, parks := [], exiting := false, br := none }) l) l

/-- Peer loads of a thread that have not reached their bank (R37, R214). -/
def peerLoads (s : State) (t : Nat) : List Op :=
  (s.ops.filter fun e => e.2.kind == .peer && e.2.thread == some t && e.2.opc != 0x0A).map (·.2)

/-- The cycle from which nothing that thread t has issued is in flight (R37, R147). -/
def settledAt (s : State) (t c : Nat) : Nat :=
  (peerLoads s t).foldl (fun m o => max m (o.c + 24)) (drainCycle (getTh s t) c)

/-- A park for results or for a cost (R271 codes 1 and 2). -/
def shortPark (p : Park) : Bool :=
  match p with
  | .results _ | .cost _ => true
  | _ => false

/-- Nothing that thread t has issued is in flight. -/
def nothingInFlight (s : State) (t : Nat) : Bool :=
  (getTh s t).pend.isEmpty && (getTh s t).mq.isEmpty && (peerLoads s t).isEmpty

/-- An exiting thread with nothing in flight enters EXITED (R286). -/
def tryExit (s : State) (t : Nat) : State :=
  let th := getTh s t
  if th.exiting && nothingInFlight s t && th.st == .parked && th.parks.all shortPark then exitNow s t else s

/-- Parks that end at a known cycle are over in cycle c (R271). -/
def expired (c : Nat) (p : Park) : Bool :=
  match p with
  | .results n | .cost n => decide (n ≤ c)
  | _ => false
def expireTh (c : Nat) (th : Thread) : Thread :=
  if th.parks.any (expired c) ∧ !th.exiting then unparked { th with parks := th.parks.filter fun p => !expired c p } else th
def expireAll (s : State) (c : Nat) : State := { s with threads := s.threads.map fun e => (e.1, expireTh c e.2) }

/-- SPCNT, which saturates, grows by one in each turn of a thread in slot k, after cycle from_ and up to cycle c, in which
it is parked with code 1 or 2 (R289). DEDUCED, log 21. -/
def addSpcnt (x : BitVec 32) (n : Nat) : BitVec 32 := BitVec.ofNat 32 (min (x.toNat + n) (2 ^ 32 - 1))
def parkEnd (th : Thread) : Nat :=
  th.parks.foldl (fun m p =>
    match p with
    | .results n | .cost n => max m n
    | _ => m) 0
def countTurns (k from_ c : Nat) (th : Thread) : Thread :=
  if th.st = .parked ∧ th.parks.any shortPark then
    { th with spcnt := addSpcnt th.spcnt ((min c (parkEnd th - 1) + 8 - k) / 8 - (from_ + 8 - k) / 8) }
  else th
def countAll (s : State) (from_ c : Nat) : State :=
  { s with threads := s.threads.map fun e => (e.1, countTurns (e.1 % 8) from_ c e.2) }

/-- Every thread of a launch ends (R386): parks, results, queues and matrix commands are gone. DEDUCED, log 23. -/
def killThread (s : State) (t : Nat) : State :=
  if (getTh s t).st = .empty then s
  else
    modTh (dropMatrix (dropThreadOps (leaveQueues s t) t) t) t fun th =>
      { th with
        st := .exited, parks := [], wasParked := [], pend := [], br := none, exiting := false, stub := false
        deferred := [], stopAsked := false, trapNow := none, unborn := false, broken := none }

/-- A launch is killed (R386) with a fault code; aborted says that its node ends with ABORTED (R321). -/
def killLaunch (s : State) (l code : Nat) (aborted : Bool) : State :=
  let x := getLaunch s l
  if x.done ∨ x.killed.isSome ∨ x.members = [] then s
  else
    tryLaunch
      ((x.members.filter fun t => (getTh s t).lid == l).foldl killThread
        (modLaunch s l fun y => { y with killed := some code, aborted := aborted })) l

/-- Every launch of a partition is killed (R357, R350, R349). -/
def killPartition (s : State) (vf code : Nat) (aborted : Bool) : State :=
  ((s.launches.filter fun e => e.2.vf == vf && !e.2.done).map (·.1)).foldl (fun a l => killLaunch a l code aborted) s

end Sys2Proof.Machine
end

