-- ==== Sys2Proof/Machine/Banks.lean ====
section
/-! DEFINITION. Scratchpad banks and the weight store: the word accesses of engines and matrix units in their own cycles,
the checks of thread and peer accesses at issue, race shadows, and stores (07 R185 to R192, R204 to R206; 08 R210, R217,
R239, R240). -/

namespace Sys2Proof.Machine

/-- The bits that a set of bytes of a word covers. -/
def byteBits (mask : Nat) : Nat := ((bitsOf mask 8).map fun i => 255 * 256 ^ i).foldl (· + ·) 0

/-- Write the bytes of mask of a word; a whole word replaces its poison mark, a part keeps it (R206). -/
def mergeWord (s : State) (w val mask : Nat) (bad : Bool) : State :=
  if mask = 255 then putWord s w val bad
  else { s with mem := wrMem s.mem (8 * w) 8 (merge 64 (rdMem s.mem (8 * w) 8) val (byteBits mask)) }

/-- The place of an access in its cycle (R188): reads see the word before every write of the cycle, and writes follow in
the order engine, matrix, thread. -/
def wactRank (a : WAct) : Nat :=
  match a.kind with
  | .opRead _ _ | .mread _ _ => 0
  | .opWrite _ _ => 1
  | .store _ _ _ _ => if a.mx then 2 else 3

/-- Enter a word access in the order of its cycle and of its place in it. -/
def insWact (l : List WAct) (a : WAct) : List WAct :=
  match l with
  | [] => [a]
  | b :: t => if a.at_ < b.at_ ∨ (a.at_ = b.at_ ∧ wactRank a < wactRank b) then a :: b :: t else b :: insWact t a

/-- The scratchpad bank of a flat word, and its port that an access uses is taken in cycle c (R187): the engine's, or the
matrix unit's with mx. The weight store, from 2^40 on, has no such ports. -/
def bankOfWord (w : Nat) : Nat := w / 512
def portBusy (s : State) (mx : Bool) (w c : Nat) : Bool :=
  decide (8 * w < 2 ^ 40)
    && s.wacts.any fun a => a.at_ == c && a.mx == mx && bankOfWord a.word == bankOfWord w && wactRank a != 3

/-- From cycle c, the next cycle of the window from lo to hi that bad leaves free, among n. -/
def seekFrom (bad : Nat → Bool) (lo hi c n : Nat) : Nat :=
  match n with
  | 0 => c
  | k + 1 => if bad c then seekFrom bad lo hi (if c < hi then c + 1 else lo) k else c

/-- From cycle c, the first of n cycles that bad leaves free. -/
def seekUp (bad : Nat → Bool) (c n : Nat) : Nat :=
  match n with
  | 0 => c
  | k + 1 => if bad c then seekUp bad (c + 1) k else c

/-- The cycle that a drawn access gets: c or the next in the window from lo to hi that bad leaves free, and where the
window has none the first after it, among n. -/
def seekCycle (bad : Nat → Bool) (lo hi c n : Nat) : Nat :=
  let k := seekFrom bad lo hi c (hi + 1 - lo)
  if bad k then seekUp bad (hi + 1) n else k

/-- The refresh window of a weight bank (R192). -/
def refreshing (mer b : Nat) : Bool := decide (1024 * b ≤ mer % 65536) && decide (mer % 65536 ≤ 1024 * b + 255)
def weightBank (off : Nat) : Nat := off / 8192 % 64

/-- A flat word of the weight store is being refreshed in cycle c. -/
def wordRefreshing (w c : Nat) : Bool := decide (2 ^ 40 ≤ 8 * w) && refreshing c (weightBank (8 * w % 2 ^ 29))

/-- A drawn access of a word in the window from lo to hi takes the port of its bank, a word of the weight store outside
its refresh (R187, R192). An engine leaves a window without a free cycle, where each access keeps one cycle busy and a
refresh 256; a matrix command, whose window may be one owned cycle (R146, R148), does not. -/
def portCycle (s : State) (mx : Bool) (w lo hi c : Nat) : Nat :=
  let bad (k : Nat) : Bool := portBusy s mx w k || wordRefreshing w k
  if mx then seekFrom bad lo hi c (hi + 1 - lo) else seekCycle bad lo hi c (s.wacts.length + 1024)

/-- An engine write of cycle c that meets a reservation of its bank is applied after the read-modify-write (R217). -/
def afterRmw (s : State) (w c : Nat) : Nat :=
  s.accesses.foldl (fun m a =>
    if a.rmw ∧ a.core = w * 8 / 2 ^ 18 ∧ a.bank = w * 8 % 2 ^ 18 / 4096 ∧ a.cycle ≤ c ∧ c ≤ a.cycle + 2 then
      max m (a.cycle + 3) else m) c

/-- Enter a word access; an engine's write keeps clear of reservations. -/
def addWact (s : State) (a : WAct) : State :=
  { s with wacts := insWact s.wacts (if wactRank a = 1 then { a with at_ := afterRmw s a.word a.at_ } else a) }

/-- Part i of a request. -/
def setPart (o : Op) (i : Nat) (f : Part → Part) : Op :=
  { o with parts := (List.range o.parts.length).zipWith (fun k p => if k = i then f p else p) o.parts }

/-- The number of a core in access records and in the counts of corrected errors. -/
def coreKey (die core : Nat) : Nat := die * 256 + core

/-- The word that an access reads is corrected, for the core of the thread that it belongs to or of its bank; an access
that writes whole words reads none (R204). -/
def correctWact (s : State) (a : WAct) : State :=
  match a.kind with
  | .opRead _ _ => correctWord s (8 * a.word / 2 ^ 18) a.word
  | .mread t _ => correctWord s (coreKey (dieOf t) (coreOf t)) a.word
  | .store _ m _ _ => if m = 255 then s else correctWord s (coreKey (dieOf a.owner) (coreOf a.owner)) a.word
  | .opWrite _ _ => s

/-- A word access of a request waits while the request is held (R395) or its partition's contexts are saved (R295), or
until it is entered for the word w where it lies since. -/
def wactWaits (s : State) (o : Op) (a : WAct) (w : Nat) : Bool := o.held.isSome || swapped s o || w != a.word
def delayWact (s : State) (a : WAct) (w : Nat) : State :=
  addWact s { a with at_ := portCycle s a.mx w (s.mer + 1) (s.mer + 256) (s.mer + 256), word := w }

/-- Carry out a word access (R148, R175, R204, R206, R216, R227). Those of a held request wait (R395), a write whose
source has not been read in time is entered anew when it has, and a part of a poisoned word leaves it poisoned and sends
LATENT_POISON. -/
def performWact (s0 : State) (a : WAct) : State :=
  let s := correctWact s0 a
  match a.kind with
  | .opRead o i =>
    match (getOp s o).parts[i]? with
    | none => s0
    | some p =>
      if p.got then s0
      else if wactWaits s (getOp s o) a (p.src / 8) then delayWact s0 a (p.src / 8)
      else
        modOp s o fun x =>
          setPart x i fun q =>
            { q with data := BitVec.ofNat 64 (rdMem s.mem (8 * a.word) 8), bad := poisoned s a.word || q.crc, got := true }
  | .opWrite o i =>
    let x := getOp s o
    match x.parts[i]? with
    | none => s
    | some p =>
      if p.put then s
      else if !p.got then modOp s o fun y => setPart y i fun q => { q with due := 0 }
      else if wactWaits s x a (p.dst / 8) then delayWact s a (p.dst / 8)
      else
        modOp (putWord s a.word p.data.toNat p.bad) o fun y =>
          setPart y i fun q => { q with put := true, performed := true }
  | .store v m bad loc =>
    let s1 := mergeWord s a.word v.toNat m bad
    if m ≠ 255 ∧ poisoned s a.word then latentRec s1 a.owner 0 loc (coreOf a.owner) else s1
  | .mread t id =>
    modTh s t fun th =>
      { th with mq := th.mq.map fun q =>
          if q.id = id then
            { q with buf := mapSet 0 q.buf a.word (BitVec.ofNat 64 (rdMem s.mem (8 * a.word) 8))
                     bad := q.bad || poisoned s a.word }
          else q }

/-- Carry out every word access of a cycle before c. -/
def settle (s : State) (c : Nat) : State :=
  let due := s.wacts.takeWhile fun a => decide (a.at_ < c)
  due.foldl performWact { s with wacts := s.wacts.dropWhile fun a => decide (a.at_ < c) }

/-- Carry out the word accesses of word w of cycle c and before, ahead of a thread's write in c (R188). -/
def flushWord (s : State) (w c : Nat) : State :=
  let p (a : WAct) : Bool := a.word == w && decide (a.at_ ≤ c)
  (s.wacts.filter p).foldl performWact { s with wacts := s.wacts.filter fun a => !p a }

/-- Race checking and shadows (R239, R240). -/
def raceOn (s : State) (t : Nat) : Bool := (getLaunch s (getTh s t).lid).race
def raceWriter (t : Nat) : Nat := 8 * posOf (coreOf t) + slotOf t
def shadowOf (s : State) (w : Nat) : Nat := mapGet 0 s.shadows w
def raceBad (s : State) (t w : Nat) : Bool :=
  let x := shadowOf s w
  x / 512 == 1 && x / 16 % 32 != raceWriter t && x % 16 == (getTh s t).phase.toNat
def markShadow (s : State) (t w : Nat) (sync : Bool) : State :=
  if raceOn s t then
    let x := if sync then 2 * 512 + 31 * 16 else 512 + 16 * raceWriter t
    { s with shadows := mapSet 0 s.shadows w (x + (getTh s t).phase.toNat) }
  else s

/-- A local word in the source range of an incomplete CPOUT, CPOUT2 or CPRED of the partition (R240).
DEDUCED, log 31. -/
def sourceBusy (s : State) (vf w : Nat) : Bool :=
  s.ops.any fun e =>
    e.2.kind == .copy && e.2.vf == vf && !e.2.complete && (e.2.opc == 0x21 || e.2.opc == 0x23 || e.2.opc == 0x25)
      && e.2.parts.any fun p => !p.srcDev && p.src / 8 == w

/-- What an access asks of the checks of R210: its size, the core and cycle it reaches, and what it does. -/
structure Access0 where
  n : Nat
  die : Nat
  core : Nat
  cycle : Nat
  rmw : Bool := false
  rd : Bool := false
  wr : Bool := false
  exempt : Bool := false
  poisonNow : Bool := true
deriving DecidableEq, Repr

/-- The flat words that an access at local address a touches. -/
def accWords (s : State) (vf : Nat) (x : Access0) (a : Nat) : List Nat :=
  (localWords a x.n).map (localWord s vf x.die x.core)

/-- The bank accesses of one address. -/
def accOf (s : State) (vf : Nat) (x : Access0) (a : Nat) : List Access :=
  (localWords a x.n).map fun lw =>
    { core := coreKey x.die x.core, bank := physBank s vf lw, cycle := x.cycle, rmw := x.rmw
      word := localWord s vf x.die x.core lw
      wmask := if x.wr then (if x.n < 8 then (2 ^ x.n - 1) * 2 ^ (a % 8) else 255) else 0
      peer := !x.poisonNow }

/-- Whether an address meets a reservation (R217). -/
def meetsRmw (s : State) (vf : Nat) (x : Access0) (a : Nat) : Bool :=
  (accOf s vf x a).any fun p => s.accesses.any (collide p)

/-- The partition bank of the first word of an address that meets a reservation (R217, R388). -/
def rmwBank (s : State) (vf : Nat) (x : Access0) (a : Nat) : Nat :=
  let hit := (localWords a x.n).find? fun lw =>
    (accOf s vf { x with n := 8 } (8 * lw)).any fun p => s.accesses.any (collide p)
  partBank (slotCount s vf) (hit.getD (a / 8))

/-- Whether a word meets the race checker (R240), and whether an address does. -/
def raceWord (s : State) (t vf : Nat) (x : Access0) (w : Nat) : Bool := raceBad s t w || (x.wr && sourceBusy s vf w)
def meetsRace (s : State) (t vf : Nat) (x : Access0) (a : Nat) : Bool :=
  raceOn s t && !x.exempt && (accWords s vf x a).any (raceWord s t vf x)

/-- The first lane that a condition picks. -/
def firstLane (l : List (Nat × Int)) (bad : Int → Bool) : Option (Nat × Int) := l.find? fun y => bad y.2

/-- The checks of R210 on the enabled lanes of an access, in their order: ALIGN, LOCAL_RANGE, RMW_COLLISION, POISON,
RACE. Operands are local addresses plus 2^18 · position for peers; lim bounds the whole operand. -/
def checkAcc (s : State) (t : Nat) (x : Access0) (lim : Int) (lanes : List (Nat × Int)) : Option Trap :=
  let vf := (getTh s t).vf
  let loc (a : Int) : Nat := a.toNat % 2 ^ 18
  let adr (a : Int) : Nat := (BitVec.ofInt 64 a).toNat
  match firstLane lanes fun a => a % (x.n : Int) != 0 with
  | some (k, a) => some { code := 0x04, cause := k, unit := 4, addr := adr a }
  | none =>
    match firstLane lanes fun a => decide (a < 0) || decide (lim ≤ a) || decide (localSize s vf < loc a + x.n) with
    | some (k, a) => some { code := 0x03, cause := k, unit := 4, addr := adr a }
    | none =>
      match firstLane lanes fun a => meetsRmw s vf x (loc a) with
      | some (_, a) =>
        some { code := 0x06, unit := 4, addr := loc a, d5 := rmwBank s vf x (loc a) }
      | none =>
        match firstLane lanes fun a => x.rd && x.poisonNow && (accWords s vf x (loc a)).any (poisoned s) with
        | some (_, a) => some { code := 0x09, unit := 4, addr := adr a }
        | none =>
          match firstLane lanes fun a => meetsRace s t vf x (loc a) with
          | some (k, a) =>
            some { code := 0x05, cause := k, unit := 4, addr := loc a
                   d5 := shadowOf s (((accWords s vf x (loc a)).find? (raceWord s t vf x)).getD 0) }
          | none => none

/-- The bank accesses of an access that passed its checks are remembered, errors of the words that a local one reads are
corrected (R204), and its writes enter the shadows. -/
def noteAcc (s0 : State) (t : Nat) (x : Access0) (a : Nat) : State :=
  let vf := (getTh s0 t).vf
  let s := if x.poisonNow && (x.rd || x.rmw || decide (x.n < 8)) then
      (accWords s0 vf x a).foldl (fun q w => correctWord q (coreKey x.die x.core) w) s0
    else s0
  let s1 := (accOf s vf x a).foldl noteAccess s
  if x.wr then (accWords s vf x a).foldl (fun q w => markShadow q t w x.exempt) s1 else s1

/-- The bytes of a word that threads write in this cycle, which a peer's write of the cycle leaves alone (R188). -/
def threadMask (s : State) (w : Nat) : Nat :=
  s.accesses.foldl (fun m x => if x.word = w ∧ x.cycle = s.mer ∧ !x.peer then m ||| x.wmask else m) 0

/-- The poison mark and the single-bit error with which this cycle found word w, which is what the read of a store of a part
of it sees (R188, R206), and the note of both at the first store of the cycle. -/
def wordMarks (s : State) (w : Nat) : Bool × Bool :=
  (s.accesses.findSome? fun x => if x.word = w ∧ x.cycle = s.mer then x.marks else none).getD
    (poisoned s w, mapGet false s.flips w)
def noteMarks (s : State) (core bank w : Nat) : State :=
  noteAccess s
    { core := core, bank := bank, cycle := s.mer, rmw := false, word := w, wmask := 0, peer := true
      marks := some (wordMarks s w) }

/-- Store the low n bytes of val at local address a, n at most 8, in this cycle, but for the bytes of keep; a part
of a poisoned word leaves it poisoned and sends LATENT_POISON (R206). For a peer's store too, the core that counts a
corrected error (R204) and that the record names is the one whose bank holds the word. DESIGN CHOICE, logs 33 and 73. -/
def storePart (s : State) (t die core a n val keep : Nat) : State :=
  let vf := (getTh s t).vf
  let w := localWord s vf die core (a / 8)
  let m := wordMarks s w
  let s0 := flushWord (noteMarks s (coreKey die core) (physBank s vf (a / 8)) w) w s.mer
  let s1 := if n < 8 ∧ m.2 then correctWord { s0 with flips := mapSet false s0.flips w true } (coreKey die core) w else s0
  let s2 := mergeWord s1 w (val % 2 ^ (8 * n) * 2 ^ (8 * (a % 8))) (((2 ^ n - 1) * 2 ^ (a % 8)) &&& (255 - keep)) false
  if n < 8 ∧ m.1 then latentRec s2 t 0 a core else s2

/-- Store n bytes at local address a: one part of a word, or whole words. -/
def storeLocal (s : State) (t die core a n val : Nat) (keep : Nat → Nat) : State :=
  let w (x : Nat) : Nat := localWord s (getTh s t).vf die core (x / 8)
  if n ≤ 8 then storePart s t die core a n val (keep (w a))
  else
    (List.range (n / 8)).foldl (fun q i =>
      storePart q t die core (a + 8 * i) 8 (val / 2 ^ (64 * i) % 2 ^ 64) (keep (w (a + 8 * i)))) s

/-- Weight region of a partition on a die: base and size in bytes (R191). -/
def weightSize (s : State) (vf die : Nat) : Nat :=
  if vf = 0 ∨ !maskHas (diesOf s vf) die then 0 else (getVf s vf).layout.wreg * 2 ^ 19
def weightAddr (s : State) (vf die off : Nat) : Nat := weightBase die + mapGet 0 (getVf s vf).wbase die + off

/-- The checks of a weight-store read in their order: ALIGN, LOCAL_RANGE, REFRESH_COLLISION, POISON (R191, R192, R205,
R215). -/
def checkWeight (s : State) (t n : Nat) (a : Int) : Option Trap :=
  let vf := (getTh s t).vf
  let die := dieOf t
  let adr := (BitVec.ofInt 64 a).toNat
  if a % (n : Int) ≠ 0 then some { code := 0x04, unit := 4, addr := adr }
  else if a < 0 ∨ (weightSize s vf die : Int) < a + n then some { code := 0x03, unit := 4, addr := adr }
  else if refreshing s.mer (weightBank a.toNat) then
    some { code := 0x07, unit := 4, addr := adr, d5 := weightBank a.toNat }
  else if (localWords a.toNat n).any (fun w => poisoned s (weightAddr s vf die (8 * w) / 8)) then
    some { code := 0x09, unit := 4, addr := adr }
  else none

end Sys2Proof.Machine
end

