-- ==== Sys2Proof/Machine/Numeric.lean ====
section
/-! DEFINITION. The arithmetic functions of 03_formats.md (R76 to R97): integer wrapping and saturation, exact values of
the floating types, the one rounding procedure, the hashes, the canonical sum, and the microscaling formats. -/

namespace Sys2Proof.Machine

/-- The floating flags (R50). -/
def fNX : Nat := 1
def fUF : Nat := 2
def fOF : Nat := 4
def fDZ : Nat := 8
def fNV : Nat := 16

/-- The value of the low w bits of a pattern read as two's complement (R78). -/
def signedOf (w x : Nat) : Int :=
  let y := x % 2 ^ w
  if 2 * y < 2 ^ w then (y : Int) else (y : Int) - 2 ^ w

/-- Wrap to w bits, as a pattern (R78). -/
def wrapN (w : Nat) (n : Int) : Nat := (n % 2 ^ w).toNat

/-- Clamp an integer into [lo, hi]. -/
def clampI (lo hi n : Int) : Int := if n < lo then lo else if hi < n then hi else n

/-- The least and greatest values of an integer type (R78). -/
def intMin (sg : Bool) (w : Nat) : Int := if sg then -(2 ^ (w - 1) : Int) else 0
def intMax (sg : Bool) (w : Nat) : Int := if sg then 2 ^ (w - 1) - 1 else 2 ^ w - 1

/-- Saturate to an integer type, as a pattern (R78). -/
def satN (sg : Bool) (w : Nat) (n : Int) : Nat := wrapN w (clampI (intMin sg w) (intMax sg w) n)

/-- The value of a pattern of an integer type (R78). -/
def intVal (sg : Bool) (w x : Nat) : Int := if sg then signedOf w x else ((x % 2 ^ w : Nat) : Int)

/-- A floating format: fraction width, exponent width, bias (R79). -/
structure Fmt where
  p : Nat
  eb : Nat
  bias : Nat
deriving DecidableEq, Repr

/-- The floating types (R79). -/
def f32 : Fmt := { p := 23, eb := 8, bias := 127 }
def bf16 : Fmt := { p := 7, eb := 8, bias := 127 }
def f16 : Fmt := { p := 10, eb := 5, bias := 15 }

/-- The format of a floating type code (R47). -/
def fmtOf (ty : Nat) : Fmt := if ty = 8 then f32 else if ty = 9 then bf16 else f16

/-- Exact values (R76): NaN, an infinity, or (-1)^neg · m · 2^e, a zero keeping its sign. -/
inductive FV where
  | nan
  | inf (neg : Bool)
  | fin (neg : Bool) (m : Nat) (e : Int)
deriving DecidableEq, Repr

/-- Fields of a floating pattern (R79). -/
def fSign (f : Fmt) (x : Nat) : Bool := x / 2 ^ (f.p + f.eb) % 2 == 1
def fExp (f : Fmt) (x : Nat) : Nat := x / 2 ^ f.p % 2 ^ f.eb
def fFrac (f : Fmt) (x : Nat) : Nat := x % 2 ^ f.p

/-- The pattern of +inf without sign, and the sign bit's weight (R80). -/
def infPat (f : Fmt) : Nat := (2 ^ f.eb - 1) * 2 ^ f.p
def signW (f : Fmt) : Nat := 2 ^ (f.p + f.eb)

/-- CanonNaN (R80). -/
def canonNaN (f : Fmt) : Nat := infPat f + 2 ^ (f.p - 1)

/-- NaN patterns, and the signalling ones (R79). -/
def isNaN (f : Fmt) (x : Nat) : Bool := fExp f x == 2 ^ f.eb - 1 && fFrac f x != 0
def isSNaN (f : Fmt) (x : Nat) : Bool := isNaN f x && fFrac f x < 2 ^ (f.p - 1)

/-- Val (R79). -/
def valF (f : Fmt) (x : Nat) : FV :=
  if isNaN f x then .nan
  else if fExp f x = 2 ^ f.eb - 1 then .inf (fSign f x)
  else if fExp f x = 0 then .fin (fSign f x) (fFrac f x) (1 - (f.bias : Int) - f.p)
  else .fin (fSign f x) (fFrac f x + 2 ^ f.p) ((fExp f x : Int) - f.bias - f.p)

/-- NV for a signalling NaN operand (R81). -/
def snanFlag (f : Fmt) (x : Nat) : Nat := if isSNaN f x then fNV else 0

/-- The stochastic decision for the discarded fraction r / d, d a power of two and 0 < r < d (R89). -/
def stochUp (r d seed : Nat) : Bool :=
  let g := Nat.gcd r d
  let k2 := d / g
  let dd := if k2 ≤ 2 ^ 32 then r / g else r * 2 ^ 32 / d
  let h0 := dd * 0x9E3779B1 % 2 ^ 32
  let h1 := h0 ^^^ seed % 2 ^ 32
  let h2 := h1 ^^^ (h1 / 2 ^ 15)
  let h3 := h2 * 0x85EBCA77 % 2 ^ 32
  let h4 := h3 ^^^ (h3 / 2 ^ 13)
  h4 % min k2 (2 ^ 32) < dd

/-- Round the magnitude n / d to an integer (R86): 0 RNE, 1 RZ, 2 RSR, 3 RNA. -/
def roundMag (n d mode seed : Nat) : Nat :=
  let m := n / d
  let r := n % d
  let up : Bool :=
    if r = 0 then false
    else if mode = 0 then decide (d < 2 * r) || (2 * r == d && m % 2 == 1)
    else if mode = 1 then false
    else if mode = 3 then decide (d ≤ 2 * r)
    else stochUp r d seed
  if up then m + 1 else m

/-- n / d · 2^k as a quotient of naturals. -/
def scaleN (n : Nat) (k : Int) : Nat := if 0 ≤ k then n * 2 ^ k.toNat else n
def scaleD (d : Nat) (k : Int) : Nat := if 0 ≤ k then d else d * 2 ^ (-k).toNat

/-- RoundGrid of (-1)^neg · n/d · 2^e to spacing 2^-g (R86). -/
def roundGrid (neg : Bool) (n d : Nat) (e g : Int) (mode seed : Nat) : Int :=
  let m := roundMag (scaleN n (e + g)) (scaleD d (e + g)) mode seed
  if neg then -(m : Int) else m

/-- floor(log2(n / d · 2^e)) for n, d > 0. -/
def floorLog (n d : Nat) (e : Int) : Int :=
  let l : Int := (Nat.log2 n : Int) - Nat.log2 d
  (if scaleD d (-l) ≤ scaleN n (-l) then l else l - 1) + e

/-- The sign bit of a pattern. -/
def withSign (f : Fmt) (neg : Bool) (x : Nat) : Nat := if neg then signW f + x else x

/-- RoundF of a nonzero finite (-1)^neg · n/d · 2^e: pattern and flags (R87). -/
def roundF (f : Fmt) (neg : Bool) (n d : Nat) (e : Int) (mode seed : Nat) : Nat × Nat :=
  let emin : Int := 1 - f.bias
  let lg := floorLog n d e
  let ex := if lg < emin then emin else lg
  let g : Int := f.p - ex
  let sn := scaleN n (e + g)
  let sd := scaleD d (e + g)
  let m := roundMag sn sd mode seed
  let nx := sn % sd != 0
  let fl := (if nx then fNX else 0) + (if nx && decide (lg < emin) then fUF else 0)
  let pat := (ex + f.bias - 1).toNat * 2 ^ f.p + m
  if infPat f ≤ pat then
    (withSign f neg (if mode = 1 then infPat f - 1 else infPat f), fl ||| (fOF + fNX))
  else (withSign f neg pat, fl)

/-- RoundF of any exact value (R87); a zero keeps its sign. -/
def roundV (f : Fmt) (v : FV) (mode seed : Nat) : Nat × Nat :=
  match v with
  | .nan => (canonNaN f, 0)
  | .inf neg => (withSign f neg (infPat f), 0)
  | .fin neg m e => if m = 0 then (withSign f neg 0, 0) else roundF f neg m 1 e mode seed

/-- FloatToInt (R88), as a pattern with flags. -/
def floatToInt (sg : Bool) (w : Nat) (v : FV) (mode seed : Nat) : Nat × Nat :=
  match v with
  | .nan => (0, fNV)
  | .inf neg => (wrapN w (if neg then intMin sg w else intMax sg w), fNV)
  | .fin neg m e =>
    let n := roundGrid neg m 1 e 0 mode seed
    if n < intMin sg w ∨ intMax sg w < n then (satN sg w n, fNV)
    else (wrapN w n, if scaleN m e % scaleD 1 e = 0 then 0 else fNX)

/-- An exact integer value. -/
def ofInt (n : Int) : FV := .fin (n < 0) n.natAbs 0

/-- Exact product, with NV for inf × 0 (R116). -/
def mulV (a b : FV) : FV × Nat :=
  match a, b with
  | .inf _, .fin _ 0 _ => (.nan, fNV)
  | .fin _ 0 _, .inf _ => (.nan, fNV)
  | .nan, _ => (.nan, 0)
  | _, .nan => (.nan, 0)
  | .inf s, .inf t => (.inf (s != t), 0)
  | .inf s, .fin t _ _ => (.inf (s != t), 0)
  | .fin s _ _, .inf t => (.inf (s != t), 0)
  | .fin s m e, .fin t n g => (.fin (s != t) (m * n) (e + g), 0)

/-- The opposite of an exact value. -/
def negV (a : FV) : FV :=
  match a with
  | .nan => .nan
  | .inf s => .inf (!s)
  | .fin s m e => .fin (!s) m e

/-- Whether a list of terms holds a NaN, an infinity of the given sign, or only negative zeros. -/
def anyNaN (l : List FV) : Bool := l.any (· == .nan)
def anyInf (neg : Bool) (l : List FV) : Bool := l.any (· == .inf neg)
def isNegZero (v : FV) : Bool :=
  match v with
  | .fin true 0 _ => true
  | _ => false

/-- The least exponent of the finite terms. -/
def minExp (l : List FV) (e0 : Int) : Int :=
  l.foldl (fun a v => match v with | .fin _ _ e => min a e | _ => a) e0

/-- The finite terms summed in units of 2^e. -/
def sumUnits (l : List FV) (e : Int) : Int :=
  l.foldl (fun a v => match v with
    | .fin s m g => let x : Int := (m * 2 ^ (g - e).toNat : Nat); if s then a - x else a + x
    | _ => a) 0

/-- The exact sum of terms (R82, R116): opposite infinities give NaN with NV, and an exact zero is -0 only when every
term is a zero of negative sign. -/
def sumV (l : List FV) : FV × Nat :=
  if anyNaN l then (.nan, 0)
  else if anyInf true l && anyInf false l then (.nan, fNV)
  else if anyInf true l then (.inf true, 0)
  else if anyInf false l then (.inf false, 0)
  else
    let e := minExp l 0
    let u := sumUnits l e
    if u = 0 then (.fin (l.all isNegZero) 0 0, 0) else (.fin (u < 0) u.natAbs e, 0)

/-- The greatest r with r² ≤ n among those below 2^k above the bits already fixed in r. -/
def isqrtFrom (n : Nat) (k r : Nat) : Nat :=
  match k with
  | 0 => r
  | j + 1 => if (r + 2 ^ j) * (r + 2 ^ j) ≤ n then isqrtFrom n j (r + 2 ^ j) else isqrtFrom n j r

/-- floor(sqrt n). -/
def isqrt (n : Nat) : Nat := isqrtFrom n (Nat.log2 n / 2 + 1) 0

/-- A root of n/d · 2^e, e even, as m · 2^x: floor of the root scaled by 2^(64), doubled, with a last bit that says
whether anything was cut off; it rounds as the exact root does on every grid of fewer bits. -/
def rootOf (n d : Nat) (e : Int) : Nat × Int :=
  let q := n * 2 ^ 512 / d
  let r := isqrt q
  let exact := r * r == q && n * 2 ^ 512 % d == 0
  (2 * r + (if exact then 0 else 1), e / 2 - 257)

/-- sqrt(m · 2^e) (R124). -/
def sqrtOf (m : Nat) (e : Int) : Nat × Int :=
  if e % 2 = 0 then rootOf m 1 e else rootOf (2 * m) 1 (e - 1)

/-- 1 / sqrt(m · 2^e) (R125). -/
def rsqrtOf (m : Nat) (e : Int) : Nat × Int :=
  if e % 2 = 0 then rootOf 1 m (-e) else rootOf 2 m (-e - 1)

/-- RHash (R90). -/
def rhash (a b : Word) : Word :=
  let z := a + 0x9E3779B97F4A7C15#64 * (b + 1#64)
  let z := (z ^^^ (z >>> 30)) * 0xBF58476D1CE4E5B9#64
  let z := (z ^^^ (z >>> 27)) * 0x94D049BB133111EB#64
  z ^^^ (z >>> 31)

/-- CanonSum (R91) on a list of fewer than 2^fuel elements. -/
def canonSum {α : Type} (node : α → α → α) (d : α) (fuel : Nat) (xs : List α) : α :=
  match fuel with
  | 0 => xs.headD d
  | k + 1 =>
    if xs.length ≤ 1 then xs.headD d
    else
      let mid := 2 ^ Nat.log2 (xs.length - 1)
      node (canonSum node d k (xs.take mid)) (canonSum node d k (xs.drop mid))

/-- PrefixSum after the running value y (R93). -/
def prefixFrom {α : Type} (node : α → α → α) (y : α) (xs : List α) : List α :=
  match xs with
  | [] => []
  | x :: t => node y x :: prefixFrom node (node y x) t

/-- PrefixSum (R93). -/
def prefixSum {α : Type} (node : α → α → α) (xs : List α) : List α :=
  match xs with
  | [] => []
  | x :: t => x :: prefixFrom node x t

/-- The floating sum of two patterns, with the flags gathered so far (R92): those of its RoundF, which raises nothing for
the NaN of opposite infinities (R87), and NV for a signalling NaN operand (R81). DEDUCED, log 55. -/
def nodeAddF (f : Fmt) (u w : Nat × Nat) : Nat × Nat :=
  let s := sumV [valF f u.1, valF f w.1]
  let r := roundV f s.1 0 0
  (r.1, u.2 ||| w.2 ||| r.2 ||| snanFlag f u.1 ||| snanFlag f w.1)

/-- The order of R118 on non-NaN patterns: -0 below +0. -/
def orderKey (f : Fmt) (x : Nat) : Int :=
  let m := x % signW f
  if fSign f x then -(m : Int) - 1 else m

/-- The value order, -0 equal to +0 (R130). -/
def valueKey (f : Fmt) (x : Nat) : Int :=
  let m := x % signW f
  if fSign f x then -(m : Int) else m

/-- The larger (or smaller) of two floating patterns (R118). -/
def nodeMaxF (f : Fmt) (mx : Bool) (u w : Nat × Nat) : Nat × Nat :=
  let fl := u.2 ||| w.2 ||| snanFlag f u.1 ||| snanFlag f w.1
  if isNaN f u.1 || isNaN f w.1 then (canonNaN f, fl)
  else if (if mx then orderKey f u.1 < orderKey f w.1 else orderKey f w.1 < orderKey f u.1) then (w.1, fl)
  else (u.1, fl)

/-- The larger (or smaller) of two integer patterns. -/
def pickInt (sg : Bool) (w : Nat) (mx : Bool) (x y : Nat) : Nat :=
  if (if mx then intVal sg w x < intVal sg w y else intVal sg w y < intVal sg w x) then y else x

/-- Element code width, fraction g and largest produced code of an MX type: 0 MXINT8, 1 MXINT6, 2 MXINT4 (R83). -/
def mxBits (t : Nat) : Nat := if t = 0 then 8 else if t = 1 then 6 else 4
def mxFrac (t : Nat) : Nat := if t = 0 then 6 else if t = 1 then 4 else 2
def mxMax (t : Nat) : Nat := if t = 0 then 127 else if t = 1 then 31 else 7

/-- Bytes of a block: type 3 is BF16 (R83, R84). -/
def blockBytes (t : Nat) : Nat := if t = 3 then 64 else 4 * mxBits t

/-- Element i of a block's bits (R84). -/
def mxElem (t x i : Nat) : Int := signedOf (mxBits t) (x / 2 ^ (mxBits t * i))

/-- MacBlock (R94): ta and tb are element types, a and b the lists of the blocks' element patterns (signed codes for MX,
bf16 patterns for BF16), sa and sb their scale bytes; acc is the accumulator pattern, f32 when fp. Beside the flags of
RoundF (R149) a signalling NaN operand raises NV (R81), and an invalid sum raises nothing. DEDUCED, log 55. -/
def macBlockMx (fp : Bool) (acc ta tb sa sb : Nat) (a b : List Int) : Nat × Nat :=
  if sa = 255 ∨ sb = 255 then if fp then (canonNaN f32, snanFlag f32 acc) else (acc, 0)
  else
    let s := (List.zipWith (· * ·) a b).foldl (· + ·) 0
    let e : Int := (sa : Int) + sb - 254 - mxFrac ta - mxFrac tb
    if fp then
      let y := roundV f32 (sumV [valF f32 acc, .fin (s < 0) s.natAbs e]).1 0 0
      (y.1, y.2 ||| snanFlag f32 acc)
    else
      match sumV [ofInt (signedOf 32 acc), .fin (s < 0) s.natAbs e] with
      | (.fin neg m x, _) => (satN true 32 (roundGrid neg m 1 x 0 0 0), 0)
      | _ => (acc, 0)

/-- MacBlock for BF16 blocks given by their exact values: the accumulator is f32 (R94). fl0 holds NV where an element of
the blocks is a signalling NaN (R81); no product and no sum raises NV (R149). DEDUCED, log 55. -/
def macBlockBf (acc fl0 : Nat) (a b : List FV) : Nat × Nat :=
  let c := (sumV ((List.zipWith mulV a b).map (·.1))).1
  let y := roundV f32 (sumV [valF f32 acc, c]).1 0 0
  (y.1, fl0 ||| y.2 ||| snanFlag f32 acc)

/-- The exponent of the largest finite magnitude of a list of exact values, none when all are zero. -/
def maxLog (l : List FV) : Option Int :=
  l.foldl (fun a v => match v with
    | .fin _ m e =>
      if m = 0 then a
      else
        let x := floorLog m 1 e
        match a with
        | none => some x
        | some y => some (max x y)
    | _ => a) none

/-- MxEncode (R96): the scale byte and the element codes as patterns. -/
def mxEncode (t : Nat) (xs : List FV) (mode seed : Nat) : Nat × List Nat :=
  if xs.any (fun v => match v with | .fin _ _ _ => false | _ => true) then (255, xs.map fun _ => 0)
  else
    match maxLog xs with
    | none => (0, xs.map fun _ => 0)
    | some lg =>
      let x := if lg < -127 then -127 else lg
      ((x + 127).toNat, xs.map fun v => match v with
        | .fin neg m e =>
          wrapN (mxBits t) (clampI (-(mxMax t : Int)) (mxMax t) (roundGrid neg m 1 (e - x) (mxFrac t) mode seed))
        | _ => 0)

/-- Entry j of the VEXP2Q table (R137): the t from 2^16 to 2^17 nearest to 2^(16 + j/1024), found bit by bit. -/
def exp2Search (j k t : Nat) : Nat :=
  match k with
  | 0 => t
  | i + 1 =>
    if (2 * (t + 2 ^ i) - 1) ^ 1024 ≤ 2 ^ (17408 + j) then exp2Search j i (t + 2 ^ i) else exp2Search j i t
def exp2Table (j : Nat) : Nat := exp2Search j 17 65536

/-- One lane of VEXP2Q (R137): weight and flags. -/
def exp2q (x : Nat) : Nat × Nat :=
  if isNaN f32 x then (0, fNV)
  else
    let n : Nat :=
      match valF f32 x with
      | .fin true m e => min (roundGrid false m 1 e 16 0 0).toNat (2 ^ 21)
      | .inf true => 2 ^ 21
      | _ => 0
    let i := (n + 65535) / 65536
    let fr := i * 65536 - n
    let j := fr / 64
    let y := exp2Table j * 64 + (exp2Table (j + 1) - exp2Table j) * (fr % 64)
    (roundMag y (2 ^ (6 + i)) 0 0, 0)

/-- A lane that no node has formed: a NaN reaches a result as the canonical one (R81). -/
def canonLane (ty x : Nat) : Nat :=
  if tyFloat ty && isNaN (fmtOf ty) x then canonNaN (fmtOf ty) else x

end Sys2Proof.Machine
end

