-- ==== Sys2Proof/Machine/Operands.lean ====
section
/-! DEFINITION. Operand forms: immediates, lanes and their governance, and V-slot operands with their latches. -/

namespace Sys2Proof.Machine

/-- An immediate of w bits, sign-extended (R39). -/
def simm (w x : Nat) : Int := signedOf w x
def sextW (w x : Nat) : Word := BitVec.ofInt 64 (signedOf w x)

/-- Lanes of a register of element width w (R47, R109). -/
def laneCount (w : Nat) : Nat := 512 / w
def laneAt (w x k : Nat) : Nat := x / 2 ^ (w * k) % 2 ^ w
def lanesOf (w x : Nat) : List Nat := (List.range (laneCount w)).map (laneAt w x)

/-- The register whose lanes are l. -/
def ofLanes (w : Nat) (l : List Nat) : Nat := l.foldr (fun v acc => v % 2 ^ w + 2 ^ w * acc) 0

/-- Whether lane k of width w is enabled (R110). -/
def laneOn (w pr k : Nat) : Bool := if w = 64 then pr / 2 ^ (2 * k) % 2 == 1 else pr / 2 ^ (k * w / 32) % 2 == 1

/-- Value, mask and flags of an elementwise result: lane k of n takes f k where it is enabled (R111). -/
structure VRes where
  val : Nat
  mask : Nat
  flags : Nat
deriving DecidableEq, Repr

/-- The lanes of an elementwise result: none where the lane is not written. -/
def vresOf (w : Nat) (l : List (Option (Nat × Nat))) : VRes :=
  { val := ofLanes w (l.map fun x => (x.getD (0, 0)).1)
    mask := ofLanes w (l.map fun x => if x.isSome then 2 ^ w - 1 else 0)
    flags := l.foldl (fun a x => a ||| (x.getD (0, 0)).2) 0 }

/-- An elementwise result over the n low lanes of width w under the predicate pr. -/
def vmapLanes (w n pr : Nat) (f : Nat → Nat × Nat) : VRes :=
  vresOf w ((List.range n).map fun k => if laneOn w pr k then some (f k) else none)

/-- The operands that a V-slot instruction reads (R60, R113): each vector operand from the file or from its latch. -/
def vopA (th : Thread) (o : VOp) : Vec := if holdA o then th.latA else rdV th o.a
def vopB (th : Thread) (o : VOp) : Vec := if holdB o then th.latB else rdV th o.b
def vopC (th : Thread) (o : VOp) : Vec := if holdC o then th.latC else rdV th o.c

/-- The latches of fields of role v take the operands just read; a held one keeps its value (R60). -/
def loadLatches (s : State) (o : VOp) (ra rb rc : Bool) : State :=
  let th := curTh s
  let fresh (k : Nat) : Bool := (ra && !holdA o && k == 256) || (rb && !holdB o && k == 257) || (rc && !holdC o && k == 258)
  modCur s fun x =>
    { x with
      latA := if ra then vopA th o else x.latA
      latB := if rb then vopB th o else x.latB
      latC := if rc then vopC th o else x.latC
      parity := x.parity.filter fun k => !fresh k }

/-- A V-slot instruction with a vector destination: latches, result and flags (R111, R112). -/
def vecEff (o : VOp) (ra rb rc : Bool) (lat : Nat) (res : Thread → VRes) : Eff := fun s =>
  let r := res (curTh s)
  .ok (pushFlags (pushV (loadLatches s o ra rb rc) o.d r.val r.mask lat) r.flags lat)

/-- A V-slot instruction with a scalar destination (R133, R135, R136). -/
def vecToS (o : VOp) (ra rb : Bool) (lat : Nat) (res : Thread → Word × Nat) : Eff := fun s =>
  let r := res (curTh s)
  .ok (pushFlags (pushS (loadLatches s o ra rb false) o.d r.1 lat) r.2 lat)

/-- A V-slot instruction with a predicate destination (R130, R132). -/
def vecToP (o : VOp) (ra rb : Bool) (res : Thread → VRes) : Eff := fun s =>
  let r := res (curTh s)
  .ok (pushFlags (pushP (loadLatches s o ra rb false) o.d r.val r.mask 1) r.flags 1)

/-- The governing predicate of a V-slot instruction, as a number. -/
def govern (th : Thread) (o : VOp) : Nat := (rdP th o.p).toNat

/-- An elementwise instruction on operands of one type: f takes the lanes of a, b and c (R109 to R111). -/
def elementwise (o : VOp) (ra rb rc : Bool) (lat : Nat) (f : Thread → Nat → Nat → Nat → Nat × Nat) : Eff :=
  vecEff o ra rb rc lat fun th =>
    let w := tyWidth o.ty
    let a := (if ra then vopA th o else 0).toNat
    let b := (if rb then vopB th o else 0).toNat
    let c := (if rc then vopC th o else 0).toNat
    vmapLanes w (laneCount w) (govern th o) fun k => f th (laneAt w a k) (laneAt w b k) (laneAt w c k)

/-- A scalar result of form A: value of a, b and c under the predicate, landing lat turns later (R98, R99). -/
def scalarA (o : AOp) (lat : Nat) (f : Word → Word → Word → Word) : Eff :=
  predEff o.p fun s =>
    let th := curTh s
    .ok (pushS s o.d (f (rdS th o.a) (rdS th o.b) (rdS th o.c)) lat)

/-- A scalar result of form I with its immediate sign-extended (R103). -/
def scalarI (o : IOp) (f : Word → Int → Word) : Eff := fun s =>
  .ok (pushS s o.d (f (rdS (curTh s) o.a) (simm 28 o.imm)) 1)

end Sys2Proof.Machine
end

