-- ==== Sys2Proof/Machine/LoadStore.lean ====
section
/-! DEFINITION. Loads and stores of the local scratchpad, the peer scratchpads and the weight store, and EPOP (08 R211 to
R215, 02 R53). -/

namespace Sys2Proof.Machine

/-- Bytes of a size code (R40). -/
def szBytes (sz : Nat) : Nat := if sz = 4 then 64 else 2 ^ sz

/-- Effective address of form L-I (R207), exact. -/
def effAddr (th : Thread) (o : LIOp) : Int := (rdS th o.a).toInt + simm 25 o.imm

/-- A local access of n bytes by the current thread in its issue cycle. -/
def localAcc (s : State) (n : Nat) (rd wr : Bool) : Access0 :=
  { n := n, die := dieOf s.cur, core := coreOf s.cur, cycle := s.mer, rd := rd, wr := wr }

/-- The bytes at a local address of the current thread. -/
def curLocal (s : State) (a n : Nat) : Nat := rdLocal s (curTh s).vf (dieOf s.cur) (coreOf s.cur) a n

/-- A local load (R211): checks, and a result that put forms, one turn later. -/
def localLoad (n : Nat) (ea : Thread → Int) (put : State → Nat → State) : Eff := fun s =>
  let th := curTh s
  let x := localAcc s n true false
  match checkAcc s s.cur x (localSize s th.vf) [(0, ea th)] with
  | some e => .error e
  | none => .ok (put (noteAcc s s.cur x (ea th).toNat) (curLocal s (ea th).toNat n))

/-- A local store (R211), performed in the cycle of issue. -/
def localStore (n : Nat) (ea : Thread → Int) (val : Thread → Nat) : Eff := fun s =>
  let th := curTh s
  let x := localAcc s n false true
  match checkAcc s s.cur x (localSize s th.vf) [(0, ea th)] with
  | some e => .error e
  | none =>
    .ok (storeLocal (noteAcc s s.cur x (ea th).toNat) s.cur (dieOf s.cur) (coreOf s.cur) (ea th).toNat n (val th)
      fun _ => 0)

def effLdL (o : LIOp) : Eff :=
  localLoad (szBytes o.sz) (effAddr · o) fun s v => pushS s o.d (BitVec.ofNat 64 v) 1
def effVld (o : LIOp) : Eff := localLoad 64 (effAddr · o) fun s v => pushV s o.d v (2 ^ 512 - 1) 1
def effStL (o : LIOp) : Eff := localStore (szBytes o.sz) (effAddr · o) fun th => (rdS th o.d).toNat
def effVst (o : LIOp) : Eff := localStore 64 (effAddr · o) fun th => (rdV th o.d).toNat

/-- Enabled lanes of a multi-lane access, with their addresses (R209, R212). -/
def laneAddrs (th : Thread) (o : LAOp) (addr : Nat → Int) : List (Nat × Int) :=
  let w := 8 * szBytes o.sz
  ((List.range (laneCount w)).filter (laneOn w (rdP th o.p).toNat)).map fun k => (k, addr k)
def strideAddr (th : Thread) (o : LAOp) (k : Nat) : Int := (rdS th o.a).toInt + k * (rdS th o.b).toInt
def gatherAddr (th : Thread) (o : LAOp) (k : Nat) : Int :=
  (rdS th o.a).toInt + (szBytes o.sz * laneAt (8 * szBytes o.sz) (rdV th o.b).toNat k : Nat)

/-- The largest number of distinct words that the lanes touch in one bank of the partition, at least 1 (R213). -/
def laneCost (s : State) (vf : Nat) (lanes : List (Nat × Int)) : Nat :=
  let ws := (lanes.map fun y => y.2.toNat / 8).eraseDups
  let k := slotCount s vf
  ws.foldl (fun m w => max m (ws.filter fun v => partBank k v == partBank k w).length) 1

/-- VLDS and VGATH (R212, R213): the result lands m turns after issue. -/
def lanesLoad (o : LAOp) (addr : Thread → LAOp → Nat → Int) : Eff := fun s =>
  let th := curTh s
  let n := szBytes o.sz
  let lanes := laneAddrs th o (addr th o)
  let x := localAcc s n true false
  match checkAcc s s.cur x (localSize s th.vf) lanes with
  | some e => .error e
  | none =>
    let r := vresOf (8 * n) ((List.range (laneCount (8 * n))).map fun k =>
      (lanes.find? fun y => y.1 == k).map fun y => (curLocal s y.2.toNat n, 0))
    .ok (pushV (lanes.foldl (fun q y => noteAcc q s.cur x y.2.toNat) s) o.d r.val r.mask (laneCost s th.vf lanes))
def effVlds (o : LAOp) : Eff := lanesLoad o strideAddr
def effVgath (o : LAOp) : Eff := lanesLoad o gatherAddr

/-- VSTS and VSCAT (R212): writes in ascending lane order. -/
def lanesStore (o : LAOp) (addr : Thread → LAOp → Nat → Int) : Eff := fun s =>
  let th := curTh s
  let n := szBytes o.sz
  let lanes := laneAddrs th o (addr th o)
  let x := localAcc s n false true
  match checkAcc s s.cur x (localSize s th.vf) lanes with
  | some e => .error e
  | none =>
    .ok (lanes.foldl (fun q y =>
      storeLocal (noteAcc q s.cur x y.2.toNat) s.cur (dieOf s.cur) (coreOf s.cur) y.2.toNat n
        (laneAt (8 * n) (rdV th o.d).toNat y.1) fun _ => 0) s)
def effVsts (o : LAOp) : Eff := lanesStore o strideAddr
def effVscat (o : LAOp) : Eff := lanesStore o gatherAddr

/-- The core that a peer operand names (R214). -/
def peerCore (core : Nat) (ea : Int) : Nat := core / 4 * 4 + ea.toNat / 2 ^ 18 % 4

/-- A peer access (R214): checked at issue, it reaches the bank in cycle c + 4. op is the instruction's opcode, val what
a store writes. -/
def peerAccess (opc n : Nat) (ea : Int) (dest : Dest) (val : Nat) (wr : Bool) : Eff := fun s =>
  let t := s.cur
  let core := peerCore (coreOf t) ea
  let x : Access0 :=
    { n := n, die := dieOf t, core := core, cycle := s.mer + 4, rd := !wr, wr := wr, poisonNow := false }
  match checkAcc s t x (2 ^ 20) [(0, ea)] with
  | some e => .error e
  | none =>
    let (id, s1) := fresh (noteAcc s t x (ea.toNat % 2 ^ 18))
    let o : Op :=
      { kind := .peer, opc := opc, vf := (curTh s).vf, die := dieOf t, core := core, thread := some t
        lid := some (curTh s).lid, c := s.mer
        p := s.mer + 4, a := ea.toNat % 2 ^ 18, b := ea.toNat, n := val, dest := dest, size := n }
    .ok (sched (modOp s1 id fun _ => o) (s.mer + 4) .peerBankAccess [id, if wr then 1 else 0])
def effPld (o : LIOp) : Eff := fun s =>
  peerAccess 0x09 (szBytes o.sz) (effAddr (curTh s) o) (.s o.d) 0 false s
def effVldp (o : LIOp) : Eff := fun s =>
  peerAccess 0x0C 64 (effAddr (curTh s) o) (.v (physV (curTh s).rrb o.d)) 0 false s
def effPst (o : LIOp) : Eff := fun s =>
  let th := curTh s
  let v := if o.sz = 4 then (rdV th o.d).toNat else (rdS th o.d).toNat
  peerAccess 0x0A (szBytes o.sz) (effAddr th o) (.s 0) v true s

/-- What a peer access does at its bank (R188, R204, R205, R214): a store writes; a load of a poisoned word writes nothing
and leaves a POISON for the next bundle; otherwise the bytes land three turns after issue. Single-bit errors of the words
that a load reads are corrected for the issuing core. -/
def peerBank (s : State) (id : Nat) (o : Op) : State :=
  let t := o.thread.getD 0
  let s1 := delOp s id
  let ws := (localWords o.a o.size).map (localWord s o.vf o.die o.core)
  if o.opc = 0x0A then storeLocal s1 t o.die o.core o.a o.size o.n (threadMask s)
  else
    let s2 := ws.foldl (fun q w => correctWord q (coreKey o.die (coreOf t)) w) s1
    if ws.any (poisoned s) then
      tryExit (modTh s2 t fun th =>
        { th with deferred := th.deferred ++ [{ at_ := s.mer + 1, cause := 3, addr := o.b, unit := 4 }] }) t
    else
      let p : Pend :=
        { due := o.c + 24, seq := s.seq, dest := o.dest, val := rdLocal s o.vf o.die o.core o.a o.size
          mask := 2 ^ 512 - 1 }
      sched (modTh { s2 with seq := s.seq + 1 } t fun th =>
        { th with pend := insPend th.pend p }) (o.c + 24) .registerResultLand [t]

/-- A peer access reaches its bank, in the cycle after which a FENCE no longer waits for it (R230). -/
def execPeerBankAccess (s : State) : Host.Outcome State Fault Refusal :=
  let id := argN s 0
  match s.ops.find? fun e => e.1 == id with
  | none => .next s
  | some (_, o) => .next (fenceCheck (tryLaunch (peerBank s id o) (o.lid.getD 0)) (o.thread.getD 0))

/-- The bytes of the weight region at an offset (R191). -/
def rdWeight (s : State) (vf die off n : Nat) : Nat := rdMem s.mem (weightAddr s vf die off) n

/-- Weight-store reads (R215): performed in the issue cycle, landing four turns later. -/
def weightLoad (n : Nat) (o : LIOp) (put : State → Nat → State) : Eff := fun s =>
  let ea := effAddr (curTh s) o
  match checkWeight s s.cur n ea with
  | some e => .error e
  | none =>
    let vf := (curTh s).vf
    let die := dieOf s.cur
    let s1 := (localWords ea.toNat n).foldl (fun q w =>
      correctWord q (coreKey die (coreOf s.cur)) (weightAddr s vf die (8 * w) / 8)) s
    .ok (put s1 (rdWeight s vf die ea.toNat n))
def effLdp (o : LIOp) : Eff := weightLoad (szBytes o.sz) o fun s v => pushS s o.d (BitVec.ofNat 64 v) 4
def effVldw (o : LIOp) : Eff := weightLoad 64 o fun s v => pushV s o.d v (2 ^ 512 - 1) 4

/-- Reply queue q of a thread, and its replacement (R53). -/
def replyQ (th : Thread) (q : Nat) : List Reply :=
  if q = 0 then th.e0 else if q = 1 then th.e1 else if q = 2 then th.e2 else th.e3
def setReplyQ (th : Thread) (q : Nat) (l : List Reply) : Thread :=
  if q = 0 then { th with e0 := l } else if q = 1 then { th with e1 := l }
  else if q = 2 then { th with e2 := l } else { th with e3 := l }

/-- Depth of a reply queue (R53). -/
def replyDepth (q : Nat) : Nat := if q = 0 then 32 else 8

/-- An entry is available in cycle c. -/
def available (c : Nat) (r : Reply) : Bool :=
  match r.avail with
  | some a => decide (a ≤ c)
  | none => false

/-- EPOP (R53): the oldest available entry; a queue with none parks the thread before the bundle. -/
def effEpop (o : LAOp) : Eff := predEff o.p fun s =>
  let th := curTh s
  let l := replyQ th o.sz
  match l.find? (available s.mer) with
  | none => .ok (addPark s s.cur .replyEmpty)
  | some r =>
    .ok (modCur (pushS s o.d (BitVec.ofNat 64 r.val) 1) fun x =>
      { setReplyQ x o.sz (l.erase r) with popped := x.popped ++ [(o.sz, r)] })

/-- LD issued alone (R211). -/
def execLdL (o : LIOp) (s : State) : Host.Outcome State Fault Refusal := runSlot (effLdL o) s

/-- ST issued alone (R211). -/
def execStL (o : LIOp) (s : State) : Host.Outcome State Fault Refusal := runSlot (effStL o) s

/-- VLD issued alone (R211). -/
def execVld (o : LIOp) (s : State) : Host.Outcome State Fault Refusal := runSlot (effVld o) s

/-- VST issued alone (R211). -/
def execVst (o : LIOp) (s : State) : Host.Outcome State Fault Refusal := runSlot (effVst o) s

/-- VLDS issued alone (R212). -/
def execVlds (o : LAOp) (s : State) : Host.Outcome State Fault Refusal := runSlot (effVlds o) s

/-- VSTS issued alone (R212). -/
def execVsts (o : LAOp) (s : State) : Host.Outcome State Fault Refusal := runSlot (effVsts o) s

/-- VGATH issued alone (R212). -/
def execVgath (o : LAOp) (s : State) : Host.Outcome State Fault Refusal := runSlot (effVgath o) s

/-- VSCAT issued alone (R212). -/
def execVscat (o : LAOp) (s : State) : Host.Outcome State Fault Refusal := runSlot (effVscat o) s

/-- PLD issued alone (R214). -/
def execPld (o : LIOp) (s : State) : Host.Outcome State Fault Refusal := runSlot (effPld o) s

/-- PST issued alone (R214). -/
def execPst (o : LIOp) (s : State) : Host.Outcome State Fault Refusal := runSlot (effPst o) s

/-- LDP issued alone (R215). -/
def execLdp (o : LIOp) (s : State) : Host.Outcome State Fault Refusal := runSlot (effLdp o) s

/-- VLDP issued alone (R214). -/
def execVldp (o : LIOp) (s : State) : Host.Outcome State Fault Refusal := runSlot (effVldp o) s

/-- VLDW issued alone (R215). -/
def execVldw (o : LIOp) (s : State) : Host.Outcome State Fault Refusal := runSlot (effVldw o) s

/-- EPOP issued alone (R53). -/
def execEpop (o : LAOp) (s : State) : Host.Outcome State Fault Refusal := runSlot (effEpop o) s

end Sys2Proof.Machine
end

