-- ==== Sys2Proof/Machine/Atomics.lean ====
section
/-! DEFINITION. Bank atomics and full/empty words (08 R216 to R219). -/

namespace Sys2Proof.Machine

/-- An engine write that falls into a reservation of the bank is applied after it, at c + 3 (R217). -/
def delayEngine (s : State) (core bank c : Nat) : State :=
  let hit (a : WAct) : Bool :=
    (match a.kind with
     | .opWrite _ _ => true
     | _ => false)
      && a.word * 8 / 2 ^ 18 == core && a.word * 8 % 2 ^ 18 / 4096 == bank && decide (c ≤ a.at_) && decide (a.at_ ≤ c + 2)
  { s with
    wacts := (s.wacts.filter hit).foldl (fun l a => insWact l { a with at_ := c + 3 })
      (s.wacts.filter fun a => !hit a) }

/-- A read-modify-write access of the current thread (R217). -/
def rmwAcc (s : State) (n : Nat) (rd poisonNow : Bool) : Access0 :=
  { n := n, die := dieOf s.cur, core := coreOf s.cur, cycle := s.mer, rmw := true, rd := rd && poisonNow, wr := true
    exempt := true }

/-- Check a read-modify-write access at address a, and reserve its bank. -/
def withRmw (n : Nat) (a : Nat) (poisonNow : Bool) (k : State → State) : Eff := fun s =>
  let x := rmwAcc s n true poisonNow
  match checkAcc s s.cur x (localSize s (curTh s).vf) [(0, (a : Int))] with
  | some e => .error e
  | none =>
    let s1 := noteAcc s s.cur x a
    .ok (k (delayEngine s1 (coreKey (dieOf s.cur) (coreOf s.cur)) (physBank s (curTh s).vf (a / 8)) s.mer))

/-- An atomic (R216): the old value is read now and lands one turn later; the new one is written in cycle c + 2. -/
def atomicEff (o : LAOp) (f : (w old b c : Nat) → Nat) : Eff := predEff o.p fun s =>
  let th := curTh s
  let n := szBytes o.sz
  let w := 8 * n
  let a := (rdS th o.a).toNat
  withRmw n a true (fun s1 =>
    let old := curLocal s a n
    let new := f w old ((rdS th o.b).toNat % 2 ^ w) ((rdS th o.c).toNat % 2 ^ w) % 2 ^ w
    let word := localWord s th.vf (dieOf s.cur) (coreOf s.cur) (a / 8)
    let s2 := addWact s1
      { at_ := s.mer + 2, owner := s.cur, word := word
        kind := .store (BitVec.ofNat 64 (new * 2 ^ (8 * (a % 8)))) ((2 ^ n - 1) * 2 ^ (a % 8)) false a }
    pushS s2 o.d (BitVec.ofNat 64 old) 1) s

/-- Signedness of ATMIN and ATMAX: funct[3] = 1 is unsigned (R216). -/
def atLess (o : LAOp) (w x y : Nat) : Bool :=
  if o.fn % 2 = 1 then decide (x < y) else decide (signedOf w x < signedOf w y)
def effAtadd (o : LAOp) : Eff := atomicEff o fun _ old b _ => old + b
def effAtmin (o : LAOp) : Eff := atomicEff o fun w old b _ => if atLess o w b old then b else old
def effAtmax (o : LAOp) : Eff := atomicEff o fun w old b _ => if atLess o w old b then b else old
def effAtand (o : LAOp) : Eff := atomicEff o fun _ old b _ => old &&& b
def effAtor (o : LAOp) : Eff := atomicEff o fun _ old b _ => old ||| b
def effAtxor (o : LAOp) : Eff := atomicEff o fun _ old b _ => old ^^^ b
def effAtswp (o : LAOp) : Eff := atomicEff o fun _ _ b _ => b
def effAtcas (o : LAOp) : Eff := atomicEff o fun _ old b c => if old = c then b else old

/-- The full/empty bit of a word, kept as emptiness (R189). -/
def isEmptyW (s : State) (w : Nat) : Bool := mapGet false s.empties w
def setEmptyW (s : State) (w : Nat) (e : Bool) : State := { s with empties := mapSet false s.empties w e }

/-- The word that address a of the current thread names. -/
def curWord (s : State) (a : Nat) : Nat := localWord s (curTh s).vf (dieOf s.cur) (coreOf s.cur) (a / 8)

/-- Release of a putter: it runs from its first turn after this cycle (R218). -/
def servePutter (s : State) (w : Nat) (p : Waiter) (rest : List Waiter) : State :=
  endPark (setFeq (putWord (flushWord s w s.mer) w p.val.toNat false) w rest) p.t (· == .put w) (s.mer + 1)

/-- A taker receives v in this cycle (R218). -/
def serveTaker (s : State) (w : Nat) (p : Waiter) (rest : List Waiter) (v : Word) : State :=
  endPark (modTh (setFeq s w rest) p.t fun th => giveS th s.mer p.dest v) p.t (· == .take w) (s.mer + 1)

/-- TAKE (R218). -/
def effTakeW (o : LAOp) : Eff := predEff o.p fun s =>
  let a := (rdS (curTh s) o.a).toNat
  let w := curWord s a
  withRmw 8 a (!isEmptyW s w) (fun s1 =>
    if isEmptyW s w then
      addPark (setFeq s1 w (getFeq s1 w ++ [{ t := s.cur, taker := true, dest := o.d, val := 0 }])) s.cur (.take w)
    else
      let s2 := pushS s1 o.d (BitVec.ofNat 64 (rdMem s.mem (8 * w) 8)) 1
      match getFeq s w with
      | p :: rest => servePutter s2 w p rest
      | [] => setEmptyW s2 w true) s

/-- PUT (R218). -/
def effPutW (o : LAOp) : Eff := predEff o.p fun s =>
  let a := (rdS (curTh s) o.a).toNat
  let v := rdS (curTh s) o.b
  let w := curWord s a
  withRmw 8 a false (fun s1 =>
    if isEmptyW s w then
      let s2 := putWord (flushWord s1 w s.mer) w v.toNat false
      match getFeq s w with
      | p :: rest => serveTaker s2 w p rest v
      | [] => setEmptyW s2 w false
    else
      addPark (setFeq s1 w (getFeq s1 w ++ [{ t := s.cur, taker := false, dest := 0, val := v }])) s.cur (.put w)) s

/-- FULLQ (R218): a plain read of the bit. -/
def effFullq (o : LAOp) : Eff := predEff o.p fun s =>
  let th := curTh s
  let a := (rdS th o.a).toNat
  let x := localAcc s 8 false false
  match checkAcc s s.cur x (localSize s th.vf) [(0, (a : Int))] with
  | some e => .error e
  | none => .ok (pushS (noteAcc s s.cur x a) o.d (if isEmptyW s (curWord s a) then 0 else 1) 1)

/-- EMPTYW (R218). -/
def effEmptyw (o : LAOp) : Eff := predEff o.p fun s =>
  let a := (rdS (curTh s) o.a).toNat
  let w := curWord s a
  withRmw 8 a false (fun s1 =>
    if isEmptyW s w then s1
    else
      match getFeq s w with
      | p :: rest => servePutter s1 w p rest
      | [] => setEmptyW s1 w true) s

/-- ATADD issued alone (R216). -/
def execAtadd (o : LAOp) (s : State) : Host.Outcome State Fault Refusal := runSlot (effAtadd o) s

/-- ATMIN issued alone (R216). -/
def execAtmin (o : LAOp) (s : State) : Host.Outcome State Fault Refusal := runSlot (effAtmin o) s

/-- ATMAX issued alone (R216). -/
def execAtmax (o : LAOp) (s : State) : Host.Outcome State Fault Refusal := runSlot (effAtmax o) s

/-- ATAND issued alone (R216). -/
def execAtand (o : LAOp) (s : State) : Host.Outcome State Fault Refusal := runSlot (effAtand o) s

/-- ATOR issued alone (R216). -/
def execAtor (o : LAOp) (s : State) : Host.Outcome State Fault Refusal := runSlot (effAtor o) s

/-- ATXOR issued alone (R216). -/
def execAtxor (o : LAOp) (s : State) : Host.Outcome State Fault Refusal := runSlot (effAtxor o) s

/-- ATSWP issued alone (R216). -/
def execAtswp (o : LAOp) (s : State) : Host.Outcome State Fault Refusal := runSlot (effAtswp o) s

/-- ATCAS issued alone (R216). -/
def execAtcas (o : LAOp) (s : State) : Host.Outcome State Fault Refusal := runSlot (effAtcas o) s

/-- TAKE issued alone (R218). -/
def execTakeW (o : LAOp) (s : State) : Host.Outcome State Fault Refusal := runSlot (effTakeW o) s

/-- PUT issued alone (R218). -/
def execPutW (o : LAOp) (s : State) : Host.Outcome State Fault Refusal := runSlot (effPutW o) s

/-- FULLQ issued alone (R218). -/
def execFullq (o : LAOp) (s : State) : Host.Outcome State Fault Refusal := runSlot (effFullq o) s

/-- EMPTYW issued alone (R218). -/
def execEmptyw (o : LAOp) (s : State) : Host.Outcome State Fault Refusal := runSlot (effEmptyw o) s

end Sys2Proof.Machine
end

