-- ==== Sys2Proof/Machine/Control.lean ====
section
/-! DEFINITION. Control transfers, loops, SYNC, SLEEPU, EXIT, GNEXT and RESUME (11 R277 to R286, R293), TRAP and BRKPT
(18 R397). The bundle's end moves the pc; a taken branch leaves its pending branch in the context. -/

namespace Sys2Proof.Machine

/-- Bundle count K of the current thread's kernel (R282). -/
def kernelLen (s : State) (th : Thread) : Nat := (getLaunch s th.lid).klen

/-- Take a branch to target (R282): its two delay slots issue first; a target outside the kernel is LOCAL_RANGE. The
exit index is allowed to JR and RET (exitOk). -/
def takeBranch (target : Int) (exitOk : Bool) (rot : Option Nat) : Eff := fun s =>
  let k := kernelLen s (curTh s)
  if 0 ≤ target ∧ (target < k ∨ (exitOk ∧ target = k)) then
    .ok (modCur s fun th => { th with br := some { tgt := target.toNat, left := 2, rot := rot } })
  else .error { code := 0x03, unit := 1, addr := (BitVec.ofInt 64 target).toNat }

/-- The target of a J-form branch (R281). -/
def jTarget (th : Thread) (o : JOp) : Int := (th.pc : Int) + simm 24 o.off

/-- A conditional J-form branch (R281). -/
def branchIf (o : JOp) (cond : Word → Bool) : Eff := fun s =>
  let th := curTh s
  if cond (rdS th o.a) then takeBranch (jTarget th o) false none s else .ok s
def effBr (o : JOp) : Eff := branchIf o fun _ => true
def effBz (o : JOp) : Eff := branchIf o fun a => a == 0
def effBnz (o : JOp) : Eff := branchIf o fun a => a != 0
def effBltz (o : JOp) : Eff := branchIf o fun a => decide (a.toInt < 0)
def effBgez (o : JOp) : Eff := branchIf o fun a => decide (0 ≤ a.toInt)

/-- CALL writes s31 one turn later (R283). -/
def effCall (o : JOp) : Eff := fun s =>
  let th := curTh s
  takeBranch (jTarget th o) false none (pushS s 31 (BitVec.ofNat 64 (th.pc + 3)) 1)

/-- LOOP and LOOPN (R284): LC falls by one for the next bundle, and a taken LOOP turns RRB at its target. -/
def loopEff (rotates : Bool) (o : JOp) : Eff := fun s =>
  let th := curTh s
  let lc := th.lc - 1
  let s' := pushPend s .lc lc.toNat 0 1
  if lc = 0 then .ok s'
  else takeBranch (jTarget th o) false (if rotates then some ((th.rrb + 23) % 24) else none) s'
def effLoop (o : JOp) : Eff := loopEff true o
def effLoopn (o : JOp) : Eff := loopEff false o

/-- JR and RET (R281, R282). -/
def effJr (o : AOp) : Eff := predEff o.p fun s => takeBranch ((rdS (curTh s) o.a).toNat : Nat) true none s
def effRet (o : AOp) : Eff := predEff o.p fun s => takeBranch ((rdS (curTh s) 31).toNat : Nat) true none s

/-- SYNC (R279, R280): SYNC 0 advances PHASE; SYNC k arrives at domain k, which may release it at once. -/
def effSyncD (o : IOp) : Eff := fun s =>
  let th := curTh s
  let k := o.imm % 16
  if k = 0 then .ok (pushPend s .phase ((th.phase.toNat + 1) % 16) 0 1)
  else if !maskHas (getLaunch s th.lid).syncmask k then .error { code := 0x03, unit := 1, addr := k }
  else .ok (syncCheck (addPark s s.cur (.sync k)) th.lid k)

/-- SLEEPU (R285): a target not later than the next turn loses nothing. -/
def effSleepu (o : AOp) : Eff := predEff o.p fun s =>
  let n := (rdS (curTh s) o.a).toNat
  if n ≤ s.mer + 8 then .ok s else .ok (sched (addPark s s.cur (.sleep n)) n .sleepuWake [s.cur])

/-- EXIT (R286): the thread ends once what it has in flight is complete. -/
def effExitT (o : AOp) : Eff := predEff o.p fun s => .ok (modCur s fun th => { th with exiting := true })

/-- The coordinates of tile l of a nest, packed as GNEXT returns them (R275, R277). -/
def tileCoords (ntile perm : List Nat) (l : Nat) : Nat :=
  (perm.reverse.foldl (fun (a : Nat × Nat) p =>
    let n := ntile.getD p 1
    (a.1 / n, a.2 + a.1 % n * 2 ^ (10 * p))) (l, 0)).2

/-- GNEXT (R277): the next tile of the thread's slice, or END. -/
def effGnext (o : AOp) : Eff := predEff o.p fun s =>
  let th := curTh s
  let x := getLaunch s th.lid
  if th.cursor < th.sliceEnd then
    .ok (modCur (pushS s o.d (BitVec.ofNat 64 (tileCoords x.ntile x.perm th.cursor)) 1) fun y =>
      { y with cursor := y.cursor + 1 })
  else .ok (pushS s o.d (BitVec.ofNat 64 (2 ^ 63)) 1)

/-- RESUME (R293): with a stub running, the safe-point bundle is next, with no delay slots. -/
def effResumeStub (o : AOp) : Eff := predEff o.p fun s =>
  if (curTh s).stub then
    .ok (modCur s fun th => { th with stub := false, br := some { tgt := th.ckpt.pc, left := 0, rot := none } })
  else .ok s

/-- TRAP and BRKPT (R397): the bundle takes effect and the thread freezes at the end of the turn. -/
def effTrap (o : IOp) : Eff := fun s =>
  .ok (modCur s fun th =>
    { th with trapNow := some { code := 0x0E, unit := 1, addr := o.imm % 65536, d5 := (rdS th o.a).toNat } })

/-- BRKPT is armed by BRKARM on a user core, and always on a firmware core (R392, R397). -/
def brkArmed (s : State) (t : Nat) : Bool :=
  isFirmware s (dieOf t) (coreOf t) || maskHas (mapGet 0 s.pkg.brkarm (dieOf t)) (slotOf t)
def effBrkpt (o : IOp) : Eff := fun s =>
  if brkArmed s s.cur then
    .ok (modCur s fun th => { th with trapNow := some { code := 0x0F, unit := 1, addr := o.imm % 65536 } })
  else .ok s

/-- The pc after a bundle at pc, the pending branch, and whether it fell due with this bundle (R282, R293): before is the
branch pending when the bundle issued. -/
def nextPc (th : Thread) (before : Option Branch) : Nat × Option Branch × Option Branch :=
  match before, th.br with
  | none, none => (th.pc + 1, none, none)
  | none, some b => if b.left = 0 then (b.tgt, none, some b) else (th.pc + 1, some b, none)
  | some b, _ => if b.left ≤ 1 then (b.tgt, none, some b) else (th.pc + 1, some { b with left := b.left - 1 }, none)

/-- The thread moves to what nextPc gives: pc, pending branch, and the rotation of a branch that fell due (R282, R284). -/
def moveOn (th : Thread) (n : Nat × Option Branch × Option Branch) : Thread :=
  { th with pc := n.1, br := n.2.1, rrb := ((n.2.2.bind (·.rot)).getD th.rrb) }

/-- The end of a turn in which a TRAP or an armed BRKPT issued at bundle pc (R397): the thread freezes with a record that
names the bundle it would issue next and the branch still pending. -/
def endTrap (s : State) (pc nextpc : Nat) : State :=
  let t := s.cur
  let th := getTh s t
  match th.trapNow with
  | none => s
  | some e =>
    let r := recBranch th
      { threadRec s t e.code with unit := e.unit, pc := pc, nextpc := nextpc, addr := e.addr, d5 := e.d5 }
    sendRec (freezeTh (modTh s t fun x => { x with trapNow := none }) t r) (threadCol t) r

/-- TRAP and BRKPT issued alone: the effect and the freeze at the end of the turn, in which the thread moves on (R282,
R397). -/
def trapSlot (e : Eff) (s : State) : Host.Outcome State Fault Refusal :=
  match e s with
  | .ok s' =>
    if (curTh s').trapNow = none then .next s'
    else
      let n := nextPc (curTh s') (curTh s').br
      .next (endTrap (modCur s' fun th => moveOn th n) (curTh s).pc n.1)
  | .error t => .next (raiseTrap s t)

/-- TRAP issued alone (R397). -/
def execTrap (o : IOp) (s : State) : Host.Outcome State Fault Refusal := trapSlot (effTrap o) s

/-- BRKPT issued alone (R397). -/
def execBrkpt (o : IOp) (s : State) : Host.Outcome State Fault Refusal := trapSlot (effBrkpt o) s

/-- BR issued alone (R281). -/
def execBr (o : JOp) (s : State) : Host.Outcome State Fault Refusal := runSlot (effBr o) s

/-- BZ issued alone (R281). -/
def execBz (o : JOp) (s : State) : Host.Outcome State Fault Refusal := runSlot (effBz o) s

/-- BNZ issued alone (R281). -/
def execBnz (o : JOp) (s : State) : Host.Outcome State Fault Refusal := runSlot (effBnz o) s

/-- BLTZ issued alone (R281). -/
def execBltz (o : JOp) (s : State) : Host.Outcome State Fault Refusal := runSlot (effBltz o) s

/-- BGEZ issued alone (R281). -/
def execBgez (o : JOp) (s : State) : Host.Outcome State Fault Refusal := runSlot (effBgez o) s

/-- CALL issued alone (R283). -/
def execCall (o : JOp) (s : State) : Host.Outcome State Fault Refusal := runSlot (effCall o) s

/-- LOOP issued alone (R284). -/
def execLoop (o : JOp) (s : State) : Host.Outcome State Fault Refusal := runSlot (effLoop o) s

/-- LOOPN issued alone (R284). -/
def execLoopn (o : JOp) (s : State) : Host.Outcome State Fault Refusal := runSlot (effLoopn o) s

/-- JR issued alone (R281). -/
def execJr (o : AOp) (s : State) : Host.Outcome State Fault Refusal := runSlot (effJr o) s

/-- RET issued alone (R281). -/
def execRet (o : AOp) (s : State) : Host.Outcome State Fault Refusal := runSlot (effRet o) s

/-- SYNC issued alone (R279). -/
def execSyncD (o : IOp) (s : State) : Host.Outcome State Fault Refusal := runSlot (effSyncD o) s

/-- SLEEPU issued alone (R285). -/
def execSleepu (o : AOp) (s : State) : Host.Outcome State Fault Refusal := runSlot (effSleepu o) s

/-- EXIT issued alone (R286). -/
def execExitT (o : AOp) (s : State) : Host.Outcome State Fault Refusal := runSlot (effExitT o) s

/-- GNEXT issued alone (R277). -/
def execGnext (o : AOp) (s : State) : Host.Outcome State Fault Refusal := runSlot (effGnext o) s

/-- RESUME issued alone (R293). -/
def execResumeStub (o : AOp) (s : State) : Host.Outcome State Fault Refusal := runSlot (effResumeStub o) s

end Sys2Proof.Machine
end

