-- ==== Sys2Proof/Machine/Flags.lean ====
section
/-! DEFINITION. The floating operations of the V slot on patterns, each with the flags it raises (R81, R112, R116 to
R126, R130, R131). -/

namespace Sys2Proof.Machine

/-- Round an exact value that came with flags; nan flags of the operands are given apart. -/
def roundWith (f : Fmt) (v : FV × Nat) (mode seed fl : Nat) : Nat × Nat :=
  let r := roundV f v.1 mode seed
  (r.1, v.2 ||| r.2 ||| fl)

/-- x + y, and x - y when sub (R116). -/
def addF (f : Fmt) (sub : Bool) (x y mode seed : Nat) : Nat × Nat :=
  let b := valF f y
  roundWith f (sumV [valF f x, if sub then negV b else b]) mode seed (snanFlag f x ||| snanFlag f y)

/-- x · y (R116). -/
def mulF (f : Fmt) (x y mode seed : Nat) : Nat × Nat :=
  roundWith f (mulV (valF f x) (valF f y)) mode seed (snanFlag f x ||| snanFlag f y)

/-- ±(x · y) + z with one rounding; inf × 0 raises NV even when z is a NaN (R116). -/
def fmaF (f : Fmt) (neg : Bool) (x y z mode seed : Nat) : Nat × Nat :=
  let p := mulV (valF f x) (valF f y)
  let q := sumV [if neg then negV p.1 else p.1, valF f z]
  roundWith f (q.1, p.2 ||| q.2) mode seed (snanFlag f x ||| snanFlag f y ||| snanFlag f z)

/-- z + x0·y0 + x1·y1 with one rounding to f, the factors of format g (R122): beside products of opposite infinities a
quiet NaN z wins, with no flag, and so does a product that a quiet NaN factor makes NaN beside an infinite product and an
infinite z of opposite signs. DESIGN CHOICE, log 69. -/
def macF (g f : Fmt) (x0 y0 x1 y1 z mode seed : Nat) : Nat × Nat :=
  let p := mulV (valF g x0) (valF g y0)
  let q := mulV (valF g x1) (valF g y1)
  let t := sumV [valF f z, p.1, q.1]
  roundWith f (t.1, p.2 ||| q.2 ||| t.2) mode seed
    (snanFlag g x0 ||| snanFlag g y0 ||| snanFlag g x1 ||| snanFlag g y1 ||| snanFlag f z)

/-- x / y (R124). -/
def divF (f : Fmt) (x y mode : Nat) : Nat × Nat :=
  let fl := snanFlag f x ||| snanFlag f y
  match valF f x, valF f y with
  | .nan, _ => (canonNaN f, fl)
  | _, .nan => (canonNaN f, fl)
  | .inf _, .inf _ => (canonNaN f, fNV)
  | .inf s, .fin t _ _ => (withSign f (s != t) (infPat f), 0)
  | .fin s _ _, .inf t => (withSign f (s != t) 0, 0)
  | .fin s m e, .fin t n g =>
    if n = 0 then (if m = 0 then (canonNaN f, fNV) else (withSign f (s != t) (infPat f), fDZ))
    else if m = 0 then (withSign f (s != t) 0, 0)
    else roundF f (s != t) m n (e - g) mode 0

/-- sqrt x (R124). -/
def sqrtF (f : Fmt) (x mode : Nat) : Nat × Nat :=
  match valF f x with
  | .nan => (canonNaN f, snanFlag f x)
  | .inf s => if s then (canonNaN f, fNV) else (infPat f, 0)
  | .fin s m e =>
    if m = 0 then (withSign f s 0, 0)
    else if s then (canonNaN f, fNV)
    else
      let r := sqrtOf m e
      roundF f false r.1 1 r.2 mode 0

/-- n/d · 2^e rounded to 12 significant bits and then to f (R125). -/
def round12 (f : Fmt) (neg : Bool) (n d : Nat) (e : Int) : Nat × Nat :=
  let lg := floorLog n d e
  let m := (roundGrid false n d e (11 - lg) 0 0).toNat
  roundF f neg m 1 (lg - 11) 0 0

/-- VRCP (R125). -/
def rcpF (f : Fmt) (x : Nat) : Nat × Nat :=
  match valF f x with
  | .nan => (canonNaN f, snanFlag f x)
  | .inf s => (withSign f s 0, 0)
  | .fin s m e => if m = 0 then (withSign f s (infPat f), fDZ) else round12 f s 1 m (-e)

/-- VRSQ (R125). -/
def rsqF (f : Fmt) (x : Nat) : Nat × Nat :=
  match valF f x with
  | .nan => (canonNaN f, snanFlag f x)
  | .inf s => if s then (canonNaN f, fNV) else (0, 0)
  | .fin s m e =>
    if m = 0 then (withSign f s (infPat f), fDZ)
    else if s then (canonNaN f, fNV)
    else
      let r := rsqrtOf m e
      round12 f false r.1 1 r.2

/-- VMIN and VMAX on patterns (R118). -/
def minmaxF (f : Fmt) (mx : Bool) (x y : Nat) : Nat × Nat := nodeMaxF f mx (x, 0) (y, 0)

/-- VABS and VNEG on patterns (R119). -/
def signF (f : Fmt) (neg : Bool) (x : Nat) : Nat × Nat :=
  if isNaN f x then (canonNaN f, snanFlag f x)
  else if neg then (withSign f (!fSign f x) (x % signW f), 0)
  else (x % signW f, 0)

/-- The relation of a compare on floating patterns: 0 EQ, 1 NE, 2 LT, 3 LE, with NV (R130). -/
def relF (f : Fmt) (cc x y : Nat) : Bool × Nat :=
  let nan := isNaN f x || isNaN f y
  let fl := if 2 ≤ cc then (if nan then fNV else 0) else snanFlag f x ||| snanFlag f y
  let r :=
    if nan then cc == 1
    else if cc = 0 then valueKey f x == valueKey f y
    else if cc = 1 then valueKey f x != valueKey f y
    else if cc = 2 then decide (valueKey f x < valueKey f y)
    else decide (valueKey f x ≤ valueKey f y)
  (r, fl)

/-- The relation of a compare on integer values (R130). -/
def relI (cc : Nat) (x y : Int) : Bool :=
  if cc = 0 then x == y else if cc = 1 then x != y else if cc = 2 then decide (x < y) else decide (x ≤ y)

/-- The class of a floating pattern, as a mask (R131). -/
def classF (f : Fmt) (x : Nat) : Nat :=
  if isSNaN f x then 2 ^ 8
  else if isNaN f x then 2 ^ 9
  else
    let s := fSign f x
    if fExp f x = 2 ^ f.eb - 1 then (if s then 1 else 2 ^ 7)
    else if fExp f x = 0 then
      (if fFrac f x = 0 then (if s then 2 ^ 3 else 2 ^ 4) else (if s then 2 ^ 2 else 2 ^ 5))
    else (if s then 2 ^ 1 else 2 ^ 6)

/-- Conversion of one lane from type s to type t (R126). -/
def convert (s t x mode seed : Nat) : Nat × Nat :=
  if tyFloat s then
    if tyFloat t then roundWith (fmtOf t) (valF (fmtOf s) x, 0) mode seed (snanFlag (fmtOf s) x)
    else floatToInt (tySigned t) (tyWidth t) (valF (fmtOf s) x) mode seed
  else
    let n := intVal (tySigned s) (tyWidth s) x
    if tyFloat t then roundV (fmtOf t) (ofInt n) mode seed
    else (satN (tySigned t) (tyWidth t) n, 0)

end Sys2Proof.Machine
end

