-- ==== Sys2Proof/Machine/Device.lean ====
section
/-! DEFINITION. Device memory: translation by range entries and the page table (07 R194 to R199), lines at their home
logic dies with keys, counters, integrity and poison (16 R353 to R358, 17 R381, 07 R206), and XLATE reports (18 R389). -/

namespace Sys2Proof.Machine

/-- A feature bit that the function has accepted (R2, R345); firmware has every feature. -/
def featOk (s : State) (vf b : Nat) : Bool := vf == 0 || ((getVf s vf).locked && maskHas (getVf s vf).faccept b)

/-- Fields of a physical address (R194). -/
def paPkg (pa : Nat) : Nat := pa / 2 ^ 42 % 64
def paDie (pa : Nat) : Nat := pa / 2 ^ 39 % 8

/-- The physical addresses that name memory which the partition may reach (R194, R256). -/
def paOk (s : State) (vf pa : Nat) : Bool :=
  decide (pa < 2 ^ 48) && decide (paDie pa < 4) && pa / 2 ^ 37 % 4 == 0
    && (paPkg pa == s.pkg.pkg || (s.pkg.inDom && featOk s vf 9 && maskHas s.pkg.members (paPkg pa)))

/-- A page on another package (R256). -/
def isRemote (s : State) (pa : Nat) : Bool := paPkg pa != s.pkg.pkg

/-- The valid range entry of a sub-context that holds an address (R195). -/
def findRange (s : State) (vf sub dva : Nat) : Option RangeEntry :=
  ((getVf s vf).ranges.find? fun e =>
    e.1 / 256 == sub && e.2.valid && decide (e.2.base ≤ dva) && decide (dva < e.2.limit)).map (·.2)

/-- The physical address that a range entry gives (R197). -/
def rangePa (e : RangeEntry) (v : Nat) : Nat :=
  if e.home = 0 then (v + e.offset) % 2 ^ 48
  else
    let g := (v - e.base) / 4096
    let x := e.offset + g / 4 * 4096 + v % 4096
    x - paDie x * 2 ^ 39 + (e.rot + g) % 4 * 2 ^ 39

/-- The bytes that one entry of a level covers, and the number under which an entry is kept: its sub-context, level and
first address (R198). -/
def leafSize (lvl : Nat) : Nat := 2 ^ (12 + 9 * lvl)
def leafKey (sub lvl dva : Nat) : Nat := (sub * 8 + lvl) * 2 ^ 57 + dva / leafSize lvl * leafSize lvl

/-- The walk of an address from the table of level n - 1 down (R198): the leaf that it reaches, with its level. -/
def walk (m : Map Leaf) (sub dva n : Nat) : Option (Nat × Leaf) :=
  match n with
  | 0 => none
  | l + 1 =>
    let f := mapGet ({} : Leaf) m (leafKey sub l dva)
    if !f.valid then none else if f.leaf then some (l, f) else walk m sub dva l

/-- The leaf of an address, from the root of its sub-context (R198); an address has 57 bits (R199). -/
def findLeaf (s : State) (vf sub dva : Nat) : Option (Nat × Leaf) :=
  if 2 ^ 57 ≤ dva then none else walk (getVf s vf).pages sub dva 5

/-- The key slot that page-table requests of a partition carry (R202). -/
def ownKey (s : State) (vf : Nat) : Nat := (getVf s vf).layout.keyid

/-- The outcome of one translation (R199): reason is that of R388. -/
inductive XRes where
  | ok (pa key : Nat) (sc : Bool)
  | xlate
  | perm (reason : Nat)
deriving DecidableEq, Repr

/-- Access 0 read, 1 write, 2 reduce against three permissions. -/
def permits (pr pw pd : Bool) (acc : Nat) : Bool := if acc = 0 then pr else if acc = 1 then pw else pd

/-- One translation (R195 to R199); another package is reached through range entries only (R256). -/
def translate (s : State) (vf sub dva acc : Nat) : XRes :=
  if 2 ^ 57 ≤ dva then .perm 4
  else
    match findRange s vf sub dva with
    | some e =>
      if !permits e.pr e.pw e.pd acc then .perm 0
      else if !paOk s vf (rangePa e dva) then .perm 1
      else .ok (rangePa e dva) e.keyid (e.sc || e.win)
    | none =>
      match findLeaf s vf sub dva with
      | none => .xlate
      | some (l, f) =>
        if !permits f.pr f.pw f.pd acc then .perm 0
        else if isRemote s f.addr || !paOk s vf (f.addr + dva % leafSize l) then .perm 1
        else .ok (f.addr + dva % leafSize l) (ownKey s vf) f.sc

/-- The SC attribute as it stands (R225): an address with no valid mapping counts as non-SC. -/
def scNow (s : State) (vf sub dva : Nat) : Bool :=
  match findRange s vf sub dva with
  | some e => e.sc || e.win
  | none =>
    match findLeaf s vf sub dva with
    | some (_, f) => f.sc
    | none => false

/-- Whether an address is mapped to another package as the tables stand (R258). -/
def remoteNow (s : State) (vf sub dva : Nat) : Bool :=
  match findRange s vf sub dva with
  | some e => isRemote s (rangePa e dva)
  | none => false

/-- The reserved link rate of a partition in bytes per cycle, 0 where it has none (R258, R337, R339); firmware has that of
the ports (R30). -/
def linkRate (s : State) (vf : Nat) : Nat := if vf = 0 then 1152 else 8 * (getVf s vf).layout.vrate

/-- A copy of a partition without a link rate has no way to a page of another package. DESIGN CHOICE, log 61. -/
def noWay (s : State) (o : Op) (pa : Nat) : Bool :=
  (o.kind == .copy || o.kind == .nodeCopy) && isRemote s pa && linkRate s o.vf == 0

/-- A device line: the word under which its poison mark is kept, and its flat address. -/
def lineWord (pa : Nat) : Nat := (deviceBase + pa / 64 * 64) / 8
def lineOf (s : State) (pa : Nat) : LineMeta := mapGet {} s.lines (pa / 64)
def setLine (s : State) (pa : Nat) (m : LineMeta) : State := { s with lines := mapSet {} s.lines (pa / 64) m }

/-- Key slots (R353, R354). -/
def keySlot (s : State) (k : Nat) : KeySlot := mapGet {} s.keys k
def keyActive (s : State) (k : Nat) : Bool := (keySlot s k).st == 1

/-- An uncorrectable or poisoned line (R357 step 1). -/
def lineBad (s : State) (pa : Nat) : Bool := poisoned s (lineWord pa) || (lineOf s pa).bad == 3

/-- The counter tree of a line's stack (R356): the numbers of the nodes above the line, from its leaves' node to the one
whose counter the logic die holds as the root. -/
def stackOf (pa : Nat) : Nat := paDie pa * 2 + pa / 4096 % 2
def stackLine (pa : Nat) : Nat := pa % 2 ^ 37 / 8192 * 64 + pa % 4096 / 64
def treeKeyOf (stack lvl i : Nat) : Nat := (stack * 16 + lvl) * 2 ^ 30 + i
def treePath (pa : Nat) : List Nat :=
  (List.range 10).map fun l => treeKeyOf (stackOf pa) l (stackLine pa / 8 ^ (l + 1))
def treeNode (s : State) (k : Nat) : TreeNode := mapGet {} s.tree k

/-- A logic die keeps a verified copy of a node (R356). -/
def isCached (s : State) (k : Nat) : Bool := s.cached.contains k

/-- The nodes of a line's path that a check of it verifies: those below the first that the logic die keeps (R357). -/
def checkedNodes (s : State) (pa : Nat) : List Nat := (treePath pa).takeWhile fun k => !isCached s k

/-- After an access that has verified some nodes, each of them and each that was kept is kept or not
(Config.nodeCached). DESIGN CHOICE, log 60. -/
def keepNodes (s : State) (seen : List Nat) : State :=
  { s with cached := (s.cached ++ seen).filter fun k => Config.nodeCached k s.mer }

/-- The tree path of a line that is written: each node's own counter grows (R356, R358); fresh says that the nodes are
rewritten whole, as a scrub rewrites them (R381), and a kept node is stored anew from its verified copy. A damaged node is
otherwise not mended. DESIGN CHOICE, log 60. -/
def writeTree (s : State) (pa : Nat) (fresh : Bool) : State :=
  { s with tree := (treePath pa).foldl (fun m k =>
      let x := mapGet ({} : TreeNode) m k
      mapSet {} m k { ctr := (x.ctr + 1) % 2 ^ 56, bad := x.bad && !fresh && !isCached s k }) s.tree }

/-- Steps 2 and 3 of R357 on a line that is not clean-marked: 0 MAC, 1 tree, whose nodes are checked up to the first that
the logic die keeps. Two reads under one filling of one slot agree; DESIGN CHOICE, log 4. -/
def lineFails (s : State) (pa key : Nat) : Option Nat :=
  let m := lineOf s pa
  if m.clean then none
  else if m.bad = 1 ∨ m.key ≠ key ∨ m.gen ≠ (keySlot s key).gen then some 0
  else if (checkedNodes s pa).any (fun k => (treeNode s k).bad) then some 1
  else none

/-- What a line access at its home answers. -/
inductive LineRes where
  | ok (v : Nat) (bad : Bool)
  | key
  | integrity (cause : Nat)
deriving DecidableEq, Repr

/-- The 64 bytes of a line that has not been written since its scrub: zeros (R381), and on another package what others
have put there, Config.farWord (R257). What others write later comes as a LINE_WRITE from outside. DESIGN CHOICE,
log 42. -/
def cleanLine (s : State) (pa : Nat) : Nat :=
  if isRemote s pa then
    (List.range 8).foldr (fun i x => (Config.farWord (pa / 64 * 64 + 8 * i)).toNat + 2 ^ 64 * x) 0
  else 0
def cleanBytes (s : State) (pa n : Nat) : Nat := cleanLine s pa / 2 ^ (8 * (pa % 64)) % 2 ^ (8 * n)

/-- Read n bytes of one line (R357, R381). -/
def readLine (s : State) (pa key n : Nat) : LineRes :=
  if !keyActive s key then .key
  else if lineBad s pa then .ok (rdMem s.mem (deviceBase + pa) n) true
  else
    match lineFails s pa key with
    | some c => .integrity c
    | none => .ok (if (lineOf s pa).clean then cleanBytes s pa n else rdMem s.mem (deviceBase + pa) n) false

/-- The core, or for what no thread asked for the die of the memory after 2^16, whose count of corrected errors a line
access raises (R204). DESIGN CHOICE, log 73. -/
def lineKey (o : Op) (pa : Nat) : Nat := if o.thread.isSome then coreKey o.die o.core else 2 ^ 16 + paDie pa

/-- A line has been read for core c: a single-bit error is corrected and written back (R204), and the nodes that were
checked may be kept (R356); a poisoned or clean-marked line is not checked (R357, R381). -/
def sawLine (s : State) (c pa : Nat) : State :=
  keepNodes (correctWord s c (lineWord pa)) (if lineBad s pa || (lineOf s pa).clean then [] else checkedNodes s pa)

/-- A write of n bytes of a line reads it first where it is a part of the line or a reduction (R206, R358). -/
def sawPart (s : State) (c pa key n : Nat) (rmw : Bool) : State :=
  if keyActive s key && (rmw || n != 64) then correctWord s c (lineWord pa) else s

/-- The collector of an engine's LATENT_POISON: row 0 of the die whose memory holds the word (R389). -/
def homeCol (pa : Nat) : Nat := collector (paDie pa) 0

/-- The bytes of a line about to be written, as they read (R381). -/
def openLine (s : State) (pa : Nat) : State :=
  if (lineOf s pa).clean then { s with mem := wrMem s.mem (deviceBase + pa / 64 * 64) 64 (cleanLine s pa) } else s

/-- Requests of mask engines that are not complete keep the words of a line that is about to be written (R175). -/
def keepsOlds (o : Op) : Bool := (o.kind == .mask || o.kind == .nodeMask) && !o.complete
def oldWords (s : State) (pa n : Nat) : List Old :=
  (List.range ((n + 7) / 8)).map fun i =>
    { place := pa + 8 * i, bad := lineBad s pa, till := s.mer
      val := if (lineOf s pa).clean then cleanBytes s (pa + 8 * i) 8 else rdMem s.mem (deviceBase + pa + 8 * i) 8 }
def noteOlds (s : State) (pa n : Nat) : State :=
  { s with ops := s.ops.map fun e =>
      if keepsOlds e.2 then (e.1, { e.2 with olds := e.2.olds ++ oldWords s pa n }) else e }

/-- The outcome of a line write: the new state, and whether it met a poisoned line in part (R206). -/
inductive LineWr where
  | ok (s : State) (latent : Bool)
  | key
  | integrity (cause : Nat)

/-- Write n bytes of one line, clean or poisoned (R358, R206, R381); rmw marks a reduction, which reads the line first
whatever its length. Only a write that reads the line checks its path. -/
def writeLine (s : State) (pa key n v : Nat) (bad rmw : Bool) : LineWr :=
  let m := lineOf s pa
  let part := rmw || !(n == 64)
  let stays := part && lineBad s pa
  if !keyActive s key then .key
  else if m.ctr = 2 ^ 56 - 1 then .integrity 2
  else
    match (if part && !stays then lineFails s pa key else none) with
    | some c => .integrity c
    | none =>
      let s1 := openLine (noteOlds s pa n) pa
      let s2 := { s1 with mem := wrMem s1.mem (deviceBase + pa) n v, flips := mapSet false s1.flips (lineWord pa) false }
      let meta' : LineMeta := { clean := false, key := key, gen := (keySlot s key).gen, ctr := m.ctr + 1, bad := 0 }
      .ok (keepNodes (writeTree (setLine (setPoison s2 (lineWord pa) (bad || stays)) pa meta') pa false)
        (if part && !stays && !m.clean then checkedNodes s pa else [])) stays

/-- Hold a request at a page that met XLATE and send its packet to the collector of the page (R389, R395). -/
def holdXlate (s : State) (id page acc : Nat) : State :=
  let o := getOp s id
  let r : FaultRec :=
    { code := 0x20, cause := acc + 16 * o.sub, vf := o.vf, mer := s.mer, addr := page, instar := instarOf s o.vf, ops := [id]
      launch := match o.thread with
        | some _ => (getLaunch s (o.lid.getD 0)).id
        | none => 0 }
  sendRec (modOp s id fun x => { x with held := some page, heldAt := s.mer }) (collector o.die (page / 4096 % 8))
    (withCores r (if o.thread.isSome then 2 ^ o.core else 0))

/-- The collector of a request's own records (R389): its thread's row, or row 0 of its die. -/
def opCol (o : Op) : Nat :=
  match o.thread with
  | some t => threadCol t
  | none => collector o.die 0

/-- A record that a request sends, naming its thread when it has one (R388, R389). -/
def opRec (s : State) (o : Op) (code cause addr d5 : Nat) : FaultRec :=
  { code := code, cause := cause, fatal := isFatal code, vf := o.vf, mer := s.mer, addr := addr, d5 := d5
    instar := instarOf s o.vf, sidv := o.thread.isSome, slotid := realId s o.vf (o.thread.getD 0)
    launch := match o.lid with
      | some l => (getLaunch s l).id
      | none => 0 }

end Sys2Proof.Machine
end

