-- ==== Sys2Proof/Machine/Nodes.lean ====
section
/-! DEFINITION. The walk of a graph: edges, ready and skipped nodes, the end of nodes and graphs, completions and
interrupts (12 R304, R305, R310, R312, R313, R319, R320; 15 R343). -/

namespace Sys2Proof.Machine

/-- The MSI-X entry of a vector: its vector control word, whose mask bit is kept inverted so that an unlisted entry is
masked, as PCIe resets it. PRESUMED, log 39. -/
def msixMasked (v : Vf) (vec : Nat) : Bool := (mapGet 0 v.msix (2 * vec + 1)).toNat / 2 ^ 32 % 2 == 0

/-- An IDE stream is in the Insecure state, in which its packets are discarded (R398): x is 0 without a stream, or one more
than its number. The traffic of a function between D4 and the host goes over the stream that it was last seen on.
PRESUMED, log 49. -/
def insecure (s : State) (x : Nat) : Bool := x != 0 && mapGet false s.pkg.ide (x - 1)
def linkCut (s : State) (f : Nat) : Bool := insecure s (mapGet 0 s.pkg.ideFn f)

/-- Raise an MSI-X vector of a function: sent to the host, or left pending while it is masked (R343). -/
def raiseMsix (s : State) (f vec : Nat) : State :=
  if msixMasked (getVf s f) vec then
    modVf s f fun v => { v with msixPend := v.msixPend ||| 2 ^ vec }
  else if linkCut s f then s
  else { s with out := s.out ++ [.msix f vec] }

/-- A node of a graph, and its replacement. -/
def nodeOf (g : Graph) (n : Nat) : Node := g.nodes.getD n {}
def modNode (s : State) (g n : Nat) (f : Node → Node) : State :=
  modGraph s g fun x => { x with nodes := x.nodes.modify n f }

/-- Fields of a node body, whose bit 0 is bit 128 of the record (R308). -/
def bodyBits (nd : Node) (hi lo : Nat) : Nat := nd.body / 2 ^ (lo - 128) % 2 ^ (hi - lo + 1)

/-- The body of loop node i runs from this node to i - 1 (R309). -/
def bodyLo (nd : Node) : Nat := bodyBits nd 299 288

/-- Successor k of a node, if it has one. -/
def succOf (nd : Node) (k : Nat) : Option Nat :=
  match nd.succ[k]? with
  | some j => if j = 0xFFFF then none else some j
  | none => none

/-- The edges into node j, as numbers 4·src + k (R307). -/
def edgesInto (g : Graph) (j : Nat) : List Nat :=
  (List.range (4 * g.nodes.length)).filter fun e => succOf (nodeOf g (e / 4)) (e % 4) == some j

/-- Resolve the edges out of node i: 1 live, 2 dead. One to another die is carried there (R320). -/
def resolveEdges (s : State) (g i : Nat) (live : Nat → Bool) : State :=
  let nd := nodeOf (getGraph s g) i
  (List.range 4).foldl (fun a k =>
    match succOf nd k with
    | none => a
    | some j =>
      let v := if live k then 1 else 2
      if (nodeOf (getGraph a g) j).die = nd.die then
        modGraph a g fun x => { x with edges := mapSet 0 x.edges (4 * i + k) v }
      else
        let d := draw a (getGraph a g).vf 1 2048
        sched d.2 (s.mer + d.1) .crossDieEdge [g, i, k, v]) s

/-- A partition has a ready node or a running launch to go on with (R347). -/
def hasWork (s : State) (vf : Nat) : Bool :=
  s.launches.any (fun e => e.2.vf == vf && e.2.running && !e.2.done)
    || s.graphs.any fun e => e.2.vf == vf && !e.2.failed && e.2.nodes.any fun n => n.st == .ready

/-- A swapped-out partition without work gets some: its wait for a slice begins (R347). -/
def beginWait (s : State) (vf : Nat) : State :=
  if hasWork s vf || (getVf s vf).resident then s else modVf s vf fun v => { v with waitFrom := s.mer }

/-- A node that has become ready is brought to its start: a LAUNCH reads its record first, a deterministic node starts
on its cycle, any other at once (R311, R318, R319); in the next cycle, in which it sees what has been written in this one
(R310, R241). -/
def enterReady (s : State) (g j : Nat) : State :=
  let x := getGraph s g
  let nd := nodeOf x j
  let s1 := modNode (beginWait s x.vf) g j fun y => { y with st := .ready, readyAt := s.mer }
  if nd.ty = 1 then sched s1 (s.mer + 1) .launchNode [g, j]
  else sched s1 (if x.det then max (s.mer + 1) (nd.base + nd.off) else s.mer + 1) .nodeStart [g, j]

/-- Look at node j: once its incoming edges are resolved it is ready or skipped (R310). -/
def lookNode (g : Nat) (s : State) (j : Nat) : State :=
  let x := getGraph s g
  let es := (edgesInto x j).map fun e => mapGet 0 x.edges e
  if (nodeOf x j).st ≠ .pending ∨ x.failed ∨ es.contains 0 then s
  else if es = [] ∨ es.contains 1 then enterReady s g j
  else resolveEdges (modNode s g j fun y => { y with st := .skipped }) g j fun _ => false

/-- A node that has been ready, and whose record has been read, is looked at again in the next cycle, in which it sees what
has been written in this one (R241): what it waited for may be over. A deterministic one keeps its cycle (R312, R317,
R319). -/
def kickNode (g : Nat) (s : State) (j : Nat) : State :=
  let x := getGraph s g
  let nd := nodeOf x j
  if nd.st = .ready ∧ nd.readyAt < s.mer ∧ (nd.ty ≠ 1 ∨ nd.checked) then
    sched s (if x.det then max (s.mer + 1) (nd.base + nd.off) else s.mer + 1) .nodeStart [g, j]
  else s

/-- Look at every node in index order, so that a skip reaches the nodes after it. -/
def sweep (s : State) (g : Nat) : State :=
  let l := List.range (getGraph s g).nodes.length
  l.foldl (lookNode g) (l.foldl (kickNode g) s)

/-- Ready nodes of a function, and of every function, are looked at again: resources may be free. -/
def kickReady (s : State) (vf : Nat) : State :=
  s.graphs.foldl (fun a e => if e.2.vf = vf then (List.range e.2.nodes.length).foldl (kickNode e.1) a else a) s
def kickAll (s : State) : State := ((s.graphs.map (·.2.vf)).eraseDups).foldl kickReady s

/-- The first failure decides STATUS, NODE and FAULT (R313). -/
def failGraph (s : State) (g status node fcode : Nat) : State :=
  if (getGraph s g).failed then s
  else
    kickReady (modGraph s g fun x => { x with failed := true, status := status, node := node, fcode := fcode })
      (getGraph s g).vf

/-- Graphs and records counted on a die (R304). -/
def inFlight (s : State) (vf die : Nat) : Nat :=
  (s.graphs.filter fun e => e.2.vf == vf && e.2.die == die && e.2.started).length

/-- A taken record may start: earlier ones have completed where ORDER asks for it, and a place is free (R304). -/
def canStart (s : State) (g : Nat) : Bool :=
  let x := getGraph s g
  (!x.order || !s.graphs.any fun e => e.2.vf == x.vf && e.2.q == x.q && decide (e.1 < g))
    && (x.opc == 2 || decide (inFlight s x.vf x.die < 16))

/-- Records that wait to start are looked at again (R304). -/
def pump (s : State) (vf : Nat) : State :=
  s.graphs.foldl (fun a e =>
    if e.2.vf = vf ∧ !e.2.started ∧ (e.2.opc = 2 ∨ e.2.nodes ≠ []) ∧ canStart a e.1 then
      sched a s.mer (if e.2.opc = 2 then .markRec else .runRec) [e.1]
    else a) s

/-- The 16 bytes of a completion (R305). -/
def completionOf (x : Graph) : Nat :=
  x.cplval + x.status * 2 ^ 64 + (if x.status = 6 ∨ x.status = 7 then x.fcode else 0) * 2 ^ 72 + x.node * 2 ^ 80

/-- The PASID of a queue, from its QCFG (R301, R322). -/
def qPasid (c : Nat) : Nat := c / 2 ^ 32 % 2 ^ 20

/-- A record completes: its completion is written and its vector raised, unless its queue was orphaned or its function
reset (R305, R322), or its partition is frozen (R344). -/
def completeRecord (s : State) (g : Nat) : State :=
  let x := getGraph s g
  let cfg := (mapGet {} (getVf s x.vf).queues x.q).cfg
  let s1 :=
    if x.cpladdr = 0 ∨ x.mute ∨ (getVf s x.vf).tstop ∨ linkCut s x.vf then s
    else { s with mem := wrMem s.mem (hostAddr (qPasid cfg) x.cpladdr) 16 (completionOf x) }
  let s2 :=
    if x.irq && !x.mute && !(getVf s x.vf).tstop then raiseMsix s1 x.vf (cfg % 2 ^ 11) else s1
  pump { s2 with graphs := mapDel s2.graphs g } x.vf

/-- A node under way. -/
def liveNode (failed : Bool) (nd : Node) : Bool :=
  nd.st == .running || (!failed && (nd.st == .pending || nd.st == .ready))

/-- A graph completes when no node is pending or running, and no record of it is still to be acted on (R394); after a
failure none starts (R310, R313). -/
def endGraph (s : State) (g : Nat) : State :=
  let x := getGraph s g
  if x.started && x.recs == 0 && !x.nodes.any (liveNode x.failed) then completeRecord s g else s

/-- Node n is done with the edges that live picks live (R310, R311). -/
def nodeDoneWith (s : State) (g n : Nat) (live : Nat → Bool) : State :=
  let s1 := modNode s g n fun y => { y with st := .done }
  endGraph (if (getGraph s g).failed then s1 else sweep (resolveEdges s1 g n live) g) g
def nodeDone (s : State) (g n : Nat) : State := nodeDoneWith s g n fun _ => true

/-- Node n fails its graph (R313); launches of its function may have waited for it (R193, R317). -/
def nodeFail (s : State) (g n status fcode : Nat) : State :=
  let s1 := modNode s g n fun y => { y with st := .done }
  if !s.graphs.any (fun e => e.1 == g) then s
  else endGraph (if (getGraph s g).failed then kickReady s1 (getGraph s g).vf else failGraph s1 g status n fcode) g

/-- A node's access that failed: XLATE_PERM, INTEGRITY or an unfixable page give FAULTED (R305, R395). -/
def nodeFaulted (s : State) (g n fcode : Nat) : State := nodeFail s g n 6 fcode

end Sys2Proof.Machine
end

