-- ==== Sys2Proof/Machine/Requests.lean ====
section
/-! DEFINITION. Requests that move words to and from device memory: pages translated once each, word reads and line
writes in their own cycles, holds, failures, completion and what waits for it (07 R199 to R203; 08 R223 to R233;
09 R241 to R245; 10 R254, R258; 16 R357; 18 R394, R395). -/

namespace Sys2Proof.Machine

/-- Enter a request under a fresh number. -/
def addOp (s : State) (o : Op) : Nat × State := (s.seq, { s with seq := s.seq + 1, ops := mapPut s.ops s.seq o })

/-- A request that is still there. -/
def hasOp (s : State) (id : Nat) : Bool := s.ops.any fun e => e.1 == id

/-- The pages that n bytes at a device address touch, as one access kind. -/
def pageSpan (a n acc : Nat) : List PageReq :=
  if n = 0 then []
  else (List.range ((a % 4096 + n + 4095) / 4096)).map fun i => { page := a / 4096 * 4096 + 4096 * i, acc := acc }

/-- The page of a word, and the write of a value to it. -/
def wordPage (a acc : Nat) : List PageReq := [{ page := a / 4096 * 4096, acc := acc }]
def wordWrite (a : Nat) (v : Word) : List Part := [{ dst := a, dstDev := true, data := v, got := true }]

/-- The translated page of a request that holds an address. -/
def pageOf (o : Op) (a acc : Nat) : Option PageReq :=
  o.pages.find? fun p => p.page == a / 4096 * 4096 && p.acc == acc && p.pa.isSome
def pagePa (p : PageReq) (a : Nat) : Nat := p.pa.getD 0 + a % 4096

/-- The access kind of a request's device writes: reductions for CPRED (R199). -/
def writeAcc (o : Op) : Nat := if o.opc = 0x25 then 2 else 1

/-- The home of a page as 8·package + die, and whether it is the requester's own die. -/
def homeOf (pa : Nat) : Nat := paPkg pa * 8 + paDie pa
def ownHome (s : State) (o : Op) (pa : Nat) : Bool := !isRemote s pa && paDie pa == o.die

/-- Runs of consecutive parts within one device line: first part and number of parts. -/
def chunksFrom (i : Nat) (l : List Part) (cur : Nat × Nat) (dst : Nat) : List (Nat × Nat) :=
  match l with
  | [] => [cur]
  | p :: t =>
    if p.dst = dst + 8 ∧ p.dst / 64 = dst / 64 then chunksFrom (i + 1) t (cur.1, cur.2 + 1) p.dst
    else cur :: chunksFrom (i + 1) t (i, 1) p.dst
def chunksOf (o : Op) : List (Nat × Nat) :=
  match o.parts with
  | [] => []
  | p :: t => chunksFrom 1 t (0, 1) p.dst
def chunkParts (o : Op) (c : Nat × Nat) : List Part := (o.parts.drop c.1).take c.2

/-- The last cycle in which a line may be written (R227, R254, R258): before the promise at home and for SC pages, and for
an engine record that has the bound of R265 (type 1). DEDUCED, log 29. -/
def lastWrite (s : State) (o : Op) (g : PageReq) : Nat :=
  let pa := g.pa.getD 0
  let copies := o.kind == .copy || o.kind == .nodeCopy
  if g.sc ∨ ownHome s o pa ∨ (o.kind = .engine ∧ o.ty = 1) ∨ (!copies ∧ !isRemote s pa) then o.p - 1
  else if isRemote s pa then o.p + 6400
  else o.p + 1024

/-- A cycle drawn for a partition from lo to hi; a late access is drawn from the 256 cycles after lo. DESIGN CHOICE,
log 11. -/
def drawIn (s : State) (vf lo hi : Nat) : Nat × State := draw s vf lo (if lo ≤ hi then hi else lo + 256)

/-- As drawIn, for an access of a flat word by an engine, which takes the port of its bank (R187, R192). -/
def drawPort (s : State) (vf w lo hi : Nat) : Nat × State :=
  let d := drawIn s vf lo hi
  (portCycle s false w lo (if lo ≤ hi then hi else lo + 256) d.1, d.2)

/-- The words that a request is to write locally take their cycles from lo to hi when it is issued or accepted, before
their sources have been read, so that the ports have room for all of them (R187, R192, R227). DESIGN CHOICE, log 11. -/
def enterWrites (s : State) (id lo hi : Nat) : State :=
  let o := getOp s id
  (List.range o.parts.length).foldl (fun a i =>
    let p := o.parts.getD i {}
    if p.dstDev then a
    else
      let d := drawPort a o.vf (p.dst / 8) lo hi
      modOp (addWact d.2 { at_ := d.1, word := p.dst / 8, kind := .opWrite id i }) id fun x =>
        setPart x i fun q => { q with due := d.1 }) s

/-- The last cycle for the pages of a request that are still to be translated: their words are read before the cycles in
which they are to be written (R227). -/
def translateBy (o : Op) : Nat :=
  o.parts.foldl (fun m p => if p.srcDev && p.due != 0 && (pageOf o p.src 0).isNone then min m p.due else m) (o.p - 1)

/-- Enter the write of a chunk whose page is translated and whose words are read or will be read by then (R227). -/
def schedWrite (s : State) (id : Nat) (c : Nat × Nat) : State :=
  let o := getOp s id
  let ps := chunkParts o c
  match pageOf o (ps.headD {}).dst (writeAcc o) with
  | none => s
  | some g =>
    if ps.all fun p => !p.srcDev || p.got then
      let lo := ps.foldl (fun m p => max m p.at_) (max o.t0 s.mer)
      let d := drawIn s o.vf lo (lastWrite s o g)
      sched d.2 d.1 .lineWrite [id, c.1, c.2]
    else s

/-- Enter the accesses of a page that has just been translated (R227). -/
def schedPage (s : State) (id : Nat) (g : PageReq) : State :=
  let o := getOp s id
  if g.acc = 0 then
    (List.range o.parts.length).foldl (fun a i =>
      let p := o.parts.getD i {}
      if p.srcDev ∧ p.src / 4096 * 4096 = g.page ∧ !p.got then
        let d := drawIn a o.vf s.mer (if p.due = 0 then o.p - 1 else p.due)
        sched d.2 d.1 .lineRead [id, i]
      else a) s
  else
    ((chunksOf o).filter fun c =>
      let p := (chunkParts o c).headD {}
      p.dstDev && p.dst / 4096 * 4096 == g.page).foldl (fun a c => schedWrite a id c) s

/-- An earlier SC copy or signal of the same thread, or of the same node channel, that has not performed its accesses; one
that is not translated yet, or a signal whose tokens are still out, may turn out to be SC (R203, R225, R250, R407). -/
def scBlocked (s : State) (id : Nat) : Bool :=
  let o := getOp s id
  s.ops.any fun e =>
    decide (e.1 < id) && (e.2.kind == .copy || e.2.kind == .nodeCopy || e.2.kind == .sigset || e.2.kind == .flush)
      && !e.2.performed
      && (if o.thread.isSome then e.2.thread == o.thread && e.2.lid == o.lid
          else o.kind == .nodeCopy && e.2.kind == .nodeCopy && e.2.vf == o.vf && e.2.die == o.die)
      && (e.2.sc || e.2.held.isSome || (e.2.pages.any fun g => g.sc || g.pa.isNone)
        || e.2.kind == .flush && e.2.granted && e.2.pages == [])

/-- The cycle in which the last access of thread t so far is performed: a peer access at its bank cycle, an atomic when it
writes (R214, R216). What the thread hands over is accepted no earlier than after it (R243, R247). -/
def accessEnd (s : State) (t : Nat) : Nat :=
  let m := s.ops.foldl (fun m e => if e.2.kind = .peer ∧ e.2.thread = some t then max m e.2.p else m) s.mer
  s.wacts.foldl (fun m w => if wactRank w = 3 ∧ w.owner = t then max m w.at_ else m) m

/-- Earlier copies and mask requests of the thread of a request that are incomplete, and accesses that have not reached
their bank or not written, before which neither SIGSET nor the signal of a FLUSHSIG is written (R232, R247). -/
def earlierOpen (s : State) (id : Nat) : Bool :=
  let o := getOp s id
  o.thread.isSome
    && ((s.wacts.any fun w => wactRank w == 3 && o.thread == some w.owner && decide (w.at_ ≤ o.c + 2))
      || s.ops.any fun e =>
        decide (e.1 < id) && e.2.thread == o.thread && e.2.lid == o.lid
          && (((e.2.kind == .copy || e.2.kind == .mask) && !e.2.complete) || e.2.kind == .peer))

/-- A copy or mask request of thread t whose promise has passed in cycle c and that is incomplete (R228). -/
def overdue (s : State) (t c : Nat) : Bool :=
  s.ops.any fun e =>
    (e.2.kind == .copy || e.2.kind == .mask) && e.2.thread == some t && e.2.lid == some (getTh s t).lid
      && !e.2.complete && decide (e.2.p ≤ c)

/-- Copies of thread t in flight (R225). -/
def copiesOf (s : State) (t : Nat) : Nat :=
  (s.ops.filter fun e =>
    e.2.kind == .copy && e.2.thread == some t && e.2.lid == some (getTh s t).lid && !e.2.complete).length

/-- Thread t has an incomplete copy older than request id, which is what a thirty-third copy waits for (R225). -/
def olderCopy (s : State) (t id : Nat) : Bool :=
  s.ops.any fun e =>
    decide (e.1 < id) && e.2.kind == .copy && e.2.thread == some t && e.2.lid == some (getTh s t).lid && !e.2.complete

/-- The entry of request op takes its value in cycle c: it stands behind those whose values came before, in the order of
arrival, and before those that are still to come (R53). -/
def fillEntry (l : List Reply) (op val c : Nat) : List Reply :=
  match l.find? (·.op == op) with
  | none => l
  | some r =>
    let rest := l.filter (·.op != op)
    let came (x : Reply) : Bool :=
      match x.avail with
      | some a => decide (a ≤ c)
      | none => false
    rest.filter came ++ { r with val := val, avail := some c } :: rest.filter fun x => !came x

/-- Fill the reply entry that a request adds, from cycle c (R53). -/
def fillReply (s : State) (t q op val c : Nat) : State :=
  sched
    (modTh s t fun th =>
      if q = 0 then { th with e0 := fillEntry th.e0 op val c }
      else if q = 1 then { th with e1 := fillEntry th.e1 op val c }
      else if q = 2 then { th with e2 := fillEntry th.e2 op val c }
      else { th with e3 := fillEntry th.e3 op val c }) c .replyEntryAvailable [t, q]

/-- A flush request may send the token of die d (R231): every covered write is translated and those homed there are
performed. -/
def tokenReady (s : State) (o : Op) (d : Nat) : Bool :=
  o.after.all fun id =>
    let x := getOp s id
    !hasOp s id
      || x.kind != .flush && (x.pages.all fun g => g.acc == 0 || g.pa.isSome)
        && x.parts.all fun p => p.performed || !p.dstDev
          || (match pageOf x p.dst (writeAcc x) with
              | some g => homeOf (g.pa.getD 0) != d
              | none => true)

/-- Look at the flush requests of thread t again: tokens that are ready leave their dies (R231, R254). -/
def flushCheck (s : State) (t : Nat) : State :=
  s.ops.foldl (fun a e =>
    if e.2.kind = .flush ∧ e.2.thread = some t then
      e.2.dies.foldl (fun b d =>
        if tokenReady b e.2 d then
          let x := draw b e.2.vf 1 1024
          sched (modOp x.2 e.1 fun o => { o with dies := o.dies.filter (· != d), n := o.n + 1 }) (s.mer + x.1)
            .flushTokenArrive [e.1, d]
        else b)
        (if e.2.dies = [] ∧ e.2.n = 0 ∧ e.2.result = 0 ∧ e.2.after.all (fun i => !hasOp a i) then
          sched (modOp a e.1 fun o => { o with n := 1 }) (s.mer + 1) .flushTokenArrive [e.1, e.2.die]
         else a)
    else a) s

/-- A translated write page adds its home to the thread's homes and to the flush requests that cover it. -/
def noteHome (s : State) (id pa : Nat) : State :=
  match (getOp s id).thread with
  | none => s
  | some t =>
    let h := homeOf pa
    let s1 := if (getTh s t).lid = (getOp s id).lid.getD 0 then
        modTh s t fun th => { th with homes := if th.homes.contains h then th.homes else th.homes ++ [h] } else s
    { s1 with ops := s1.ops.map fun e =>
        if e.2.kind = .flush ∧ e.2.after.contains id ∧ !e.2.dies.contains h then
          (e.1, { e.2 with dies := e.2.dies ++ [h] }) else e }

/-- Remove a request; its launch may be complete (R321). -/
def dropOp (s : State) (id : Nat) : State :=
  match (getOp s id).lid with
  | some l => tryLaunch (delOp s id) l
  | none => delOp s id

/-- The wait nodes of a graph that is ended from outside wait no longer (R350, R357, R374). -/
def endWaits (s : State) (g : Nat) : State :=
  s.ops.foldl (fun a e =>
    match e.2.node with
    | some (h, n) =>
      if h = g ∧ e.2.kind = .nodeWait then modNode (delOp a e.1) g n fun y => { y with st := .done } else a
    | none => a) s

/-- The node of a graph whose killed launch fails it (R305, R313): its first LAUNCH node that runs, or none. -/
def launchNode (x : Graph) : Nat :=
  ((List.range x.nodes.length).find? fun n => (nodeOf x n).ty == 1 && (nodeOf x n).st == .running).getD 0xFFFF

/-- Every record and graph of a function ends with one status (R357, R374, R350). -/
def endGraphs (s : State) (vf status fcode : Nat) (mute : Bool) : State :=
  s.graphs.foldl (fun a e =>
    if e.2.vf ≠ vf then a
    else
      let b := modGraph (failGraph (endWaits a e.1) e.1 status (launchNode e.2) fcode) e.1 fun x =>
        { x with mute := x.mute || mute, recs := 0 }
      if e.2.started then endGraph b e.1 else completeRecord b e.1) s

/-- An INTEGRITY failure is fatal to a partition (R357). -/
def integrityFatal (s : State) (vf : Nat) : State :=
  if vf = 0 then s
  else modVf (endGraphs (killPartition s vf 0x23 false) vf 6 0x23 false) vf fun v => { v with halted := true }

/-- The event that carries out an engine record: port opcodes as they are, collective ones after 16 (R261, R262). -/
def engineEvent (opc : Nat) : Instr :=
  match opc with
  | 1 => .hostrd | 2 => .hostwr | 3 => .rdmawr | 4 => .rdmard
  | 17 => .allred | 18 => .redscat | 19 => .allgath | _ => .bcast

/-- Event ev of request id is due now; it stands in the agenda once. -/
def schedOnce (s : State) (ev : Instr) (id : Nat) : State :=
  if s.agenda.any fun i => i.ev == ev && i.args.headD 0 == id then s else sched s s.mer ev [id]

/-- The accesses of a request that are still to come, and the event of a record, are given up. -/
def dropEvents (s : State) (id : Nat) : State :=
  let o := getOp s id
  { s with agenda := s.agenda.filter fun i =>
      !((i.ev == .lineRead || i.ev == .lineWrite || i.ev == .copyTranslate
          || o.kind == .engine && i.ev == engineEvent o.opc) && i.args.headD 0 == id) }

/-- A request ends with a fatal code: 0x20 unfixable, 0x21 XLATE_PERM, 0x23 INTEGRITY (R394, R395). A ring record gets
XLATE_FAULT for each of them. DEDUCED, log 41. -/
def failOp (s : State) (id code : Nat) : State :=
  let o := getOp s id
  if o.kind = .engine ∧ (code ≠ 0x23 ∨ o.node = none) then
    sched (modOp (dropEvents s id) id fun x => { x with status := 4, held := none, parts := [] }) s.mer .engineRecordComplete [id]
  else
    match o.node with
    | some (g, n) => if n = 0xFFFF then
        endGraph (modGraph (failGraph (delOp s id) g 6 0xFFFF code) g fun x => { x with started := true }) g
      else nodeFaulted (delOp s id) g n code
    | none =>
      match o.thread, o.lid with
      | some _, some l => dropOp (killLaunch s l code false) id
      | _, _ => dropOp s id

/-- A request that failed makes no further access; it ends when its record is acted on (R394). -/
def stopOp (s : State) (id : Nat) : State :=
  modOp (dropEvents s id) id fun o =>
    { o with failed := true, held := none, watching := false, pages := [{ page := 2 ^ 60, acc := 1 }]
             parts := [{ put := true }] }

/-- An engine record ends with its own status, whatever firmware does (R262). -/
def ownStatus (o : Op) : Bool := o.kind == .engine && o.node.isNone

/-- A translation failed for good (R199, R354, R394): a record goes out, and the request ends when it is acted on.
DEDUCED, log 32. -/
def permFail (s : State) (id reason acc dva : Nat) : State :=
  let o := getOp s id
  let r := opRec s o 0x21 (acc + 16 * reason) dva 0
  if o.kind = .engine then failOp (sendRec s (opCol o) r) id 0x21
  else sendRec (stopOp s id) (opCol o) { r with heal := .op id 0x21 }

/-- A line failed its checks (R357, R358): a record goes out, and the request and the partition end when it is acted
on. DEDUCED, log 30. -/
def integrityFail (s : State) (id cause pa key : Nat) : State :=
  let o := getOp s id
  let r := opRec s o 0x23 cause pa key
  if ownStatus o then failOp (sendRec s (opCol o) { r with heal := .part o.vf }) id 0x23
  else sendRec (stopOp s id) (opCol o) { r with heal := .op id 0x23 }

/-- A watch that a write touches looks at its word (R233, R255): it ends once the word has met its threshold, with the
value as it stands then; a line that may not be read ends it as any access, and one that reads poisoned is waited on.
DESIGN CHOICE, log 74. -/
def watchHit (pa n : Nat) (s : State) (e : Nat × Op) : State :=
  let o := getOp s e.1
  match o.pages with
  | [{ pa := some q, key := k, .. }] =>
    let w := q / 4096 * 4096 + o.b % 4096
    if o.watching && !o.granted && decide (pa ≤ w + 7) && decide (w < pa + n) then
      match readLine s w k 8 with
      | .ok v false =>
        let s := sawLine s (lineKey o w) w
        if o.size ≤ v then
          let s1 := modOp s e.1 fun x => { x with granted := true, result := v }
          if o.kind = .nodeWait then sched s1 s.mer .waitNode [(o.node.getD (0, 0)).1, (o.node.getD (0, 0)).2] else s1
        else s
      | .ok _ true => s
      | .key => permFail s e.1 2 0 o.b
      | .integrity c => integrityFail s e.1 c (w / 64 * 64) k
    else s
  | _ => s

/-- A thread whose watch or gate operation has ended runs on (R233, R368): SIGW's d is written, and the next bundle issues
at the first turn after it, after a free transit when late is set. A context that is not in its slot is left until the
partition is resumed. -/
def deliver (s : State) (id : Nat) (late : Bool) : State :=
  let o := getOp s id
  let t := o.thread.getD 0
  let th := getTh s t
  if !o.granted ∨ o.thread = none ∨ some th.lid ≠ o.lid ∨ isSaved t then s
  else
    let d := if late then draw s o.vf 0 1024 else (0, s)
    if o.kind = .sigw then
      let s1 := match o.dest with
        | .s i => giveLate d.2 t i (BitVec.ofNat 64 o.result) d.1
        | _ => d.2
      endPark (delOp s1 id) t (· == .sigw id) (s.mer + 1 + d.1)
    else if o.watching then s
    else
      let s1 := endPark d.2 t (· == .gate id) (s.mer + 1 + d.1)
      if o.kind = .gwait ∨ o.complete then dropOp s1 id else modOp s1 id fun x => { x with watching := true }

/-- The doorbell words of rings that a write touches (R259). -/
def bellHit (pa n : Nat) (s : State) (e : Nat × Ring) : State :=
  match translate s e.2.vf (getVf s e.2.vf).cursub e.2.bell 0 with
  | .ok q _ _ => if decide (pa ≤ q + 7) && decide (q < pa + n) then sched s (s.mer + 1) .ringDoorbell [e.1] else s
  | _ => s

/-- Everything that observes a device write (R255, R259). -/
def observe (s : State) (pa n : Nat) : State :=
  let s1 := s.ops.foldl (watchHit pa n) s
  let s2 := s1.ops.foldl (fun a e => if e.2.kind = .sigw then deliver a e.1 true else a) s1
  s2.rings.foldl (bellHit pa n) s2

/-- A watch whose word is translated looks at it for the first time, once the SC copies before it are performed (R233,
R250, R255). -/
def startWatch (s : State) (id : Nat) (g : PageReq) : State :=
  let w := pagePa g (getOp s id).b
  if g.sc && scBlocked s id then sched s (s.mer + 8) .copyTranslate [id, 0]
  else
    let s1 := modOp s id fun x => { x with watching := true }
    deliver (watchHit (w / 8 * 8) 8 s1 (id, getOp s1 id)) id false

/-- The lowest device address that a request touches in a page (R388). -/
def firstDva (o : Op) (g : PageReq) : Nat :=
  let own (a : Nat) : Bool := a / 4096 * 4096 == g.page
  let as := o.parts.flatMap fun p =>
    (if p.srcDev ∧ g.acc = 0 ∧ own p.src then [p.src] else []) ++ (if p.dstDev ∧ g.acc ≠ 0 ∧ own p.dst then [p.dst] else [])
  match as with
  | [] => if own o.b then o.b else g.page
  | a :: t => t.foldl min a

/-- COPY_TRANSLATE: page k of a request is translated under the entries of this cycle (R199, R201). -/
def execCopyTranslate (s : State) : Host.Outcome State Fault Refusal :=
  let id := argN s 0
  let k := argN s 1
  let o := getOp s id
  match o.pages[k]? with
  | none => .next s
  | some g =>
    if swapped s o then .next (sched s (s.mer + 4096) .copyTranslate [id, k])
    else if g.pa.isSome then .next (if o.kind = .sigw ∨ o.kind = .nodeWait then startWatch s id g else s)
    else match translate s o.vf o.sub g.page g.acc with
    | .xlate => .next (holdXlate s id g.page g.acc)
    | .perm r => .next (permFail s id r g.acc (firstDva o g))
    | .ok pa key sc =>
      let g' : PageReq := { g with pa := some pa, key := key, sc := sc }
      let s1 := modOp s id fun x => { x with pages := x.pages.set k g', held := none }
      let s2 := schedPage (if g.acc = 0 then s1 else noteHome s1 id pa) id g'
      let s2 := if noWay s o pa then sched s2 (s.mer + 4000000) .routeLossTimeout [id] else s2
      if k + 1 < o.pages.length then
        let d := drawIn s2 o.vf s.mer (translateBy (getOp s2 id))
        .next (sched d.2 d.1 .copyTranslate [id, k + 1])
      else if o.kind = .sigw ∨ o.kind = .nodeWait then
        .next (startWatch s2 id g')
      else .next s2

/-- A word has been read: its local write stands entered, or is entered now where its cycle has passed, or its chunk is
written once complete (R227). A copy past its promise looks at its completion again, and an engine that has all its words
goes on. -/
def afterRead (s : State) (id i : Nat) : State :=
  let o := getOp s id
  let p := o.parts.getD i {}
  if o.kind = .engine then
    if o.parts.all (·.got) then schedOnce s (engineEvent o.opc) id else s
  else if p.dstDev then
    ((chunksOf o).filter fun c => decide (c.1 ≤ i) && decide (i < c.1 + c.2)).foldl (fun a c => schedWrite a id c) s
  else if p.due ≠ 0 then s
  else
    let d := drawPort s o.vf (p.dst / 8) (max o.t0 s.mer) (o.p - 1)
    let s1 := addWact d.2 { at_ := d.1, word := p.dst / 8, kind := .opWrite id i }
    if o.missed then sched s1 (d.1 + 1) .copyComplete [id] else s1

/-- A record about an access that no request of this package makes, charged to the owner of the key that tagged it (R257,
R357, R399). DEDUCED, log 30. -/
def ownerRec (s : State) (pa key code cause d5 : Nat) : FaultRec :=
  let vf := (keySlot s key).owner
  { code := code, cause := cause, fatal := isFatal code, vf := vf, mer := s.mer, instar := instarOf s vf, addr := pa, d5 := d5
    heal := if code = 0x23 then .part vf else .none }

/-- An INTEGRITY failure of such an access (R357). -/
def ownerIntegrity (s : State) (pa key c : Nat) : State := sendRec s (homeCol pa) (ownerRec s pa key 0x23 c key)

/-- The next packet that carries the line at pa to a reader fails its CRC-32C (R398, R399), and it has arrived: the data
that it carries is poisoned. -/
def packetFails (s : State) (pa : Nat) : Bool := s.pkg.crcNext.contains (pa / 64 * 64)
def sawPacket (s : State) (pa : Nat) : State :=
  { s with pkg := { s.pkg with crcNext := s.pkg.crcNext.erase (pa / 64 * 64) } }

/-- Another package reads n bytes of a line of this one (R257): what may not be read is answered with poisoned data.
DEDUCED, log 42. -/
def farRead (s : State) (pa key n : Nat) : State :=
  let answer (x : State) (v : Nat) (bad : Bool) : State := { x with out := x.out ++ [.line pa v bad] }
  match readLine s pa key n with
  | .ok v bad => answer (sawPacket (sawLine s (2 ^ 16 + paDie pa) pa) pa) v (bad || packetFails s pa)
  | .key => answer s 0 true
  | .integrity c => answer (ownerIntegrity s pa key c) 0 true

/-- LINE_READ: device word i of a request is read at its home (R241, R354, R357). With request number 0 it is a read by
another package, of the physical address, under the key and of the length that follow (R257). -/
def execLineRead (s : State) : Host.Outcome State Fault Refusal :=
  let id := argN s 0
  let i := argN s 1
  let o := getOp s id
  let p := o.parts.getD i {}
  if id = 0 then .next (farRead s (argN s 1) (argN s 2) (argN s 3))
  else if swapped s o then .next (sched s (s.mer + 4096) .lineRead [id, i])
  else match pageOf o p.src 0 with
  | none => .next s
  | some g =>
    if p.got then .next s
    else if o.held.isSome then .next (sched s (s.mer + 256) .lineRead [id, i])
    else if (g.sc && scBlocked s id) ∨ noWay s o (pagePa g p.src) then .next (sched s (s.mer + 8) .lineRead [id, i])
    else
      let pa := pagePa g p.src
      match readLine s pa g.key 8 with
      | .key => .next (permFail s id 2 0 p.src)
      | .integrity c => .next (integrityFail s id c (pa / 64 * 64) g.key)
      | .ok v bad =>
        .next (afterRead (modOp (sawLine s (lineKey o pa) pa) id fun x =>
          setPart x i fun q => { q with data := BitVec.ofNat 64 v, bad := bad || q.crc, got := true, at_ := s.mer }) id i)

/-- One element of a reduction (R223): op 0 add, 1 min, 2 max. -/
def reduceElem (ty op x y : Nat) : Nat :=
  let w := tyWidth ty
  if tyFloat ty then
    (if op = 0 then addF (fmtOf ty) false x y 0 0 else minmaxF (fmtOf ty) (op == 2) x y).1
  else
    let a := intVal (tySigned ty) w x
    let b := intVal (tySigned ty) w y
    if op = 0 then (x + y) % 2 ^ w
    else if op = 1 then (if b < a then y else x) else (if a < b then y else x)

/-- A reduction of n bytes, element by element (R223). -/
def reduceBytes (ty op n old new : Nat) : Nat :=
  let w := tyWidth ty
  (List.range (8 * n / w)).foldl (fun acc k =>
    acc + reduceElem ty op (old / 2 ^ (w * k) % 2 ^ w) (new / 2 ^ (w * k) % 2 ^ w) * 2 ^ (w * k)) 0

/-- What a write of n bytes of a line stores (R223): a reduction's elements, of type and operation ty, into what the line
holds, or the bytes themselves. -/
def lineValue (s : State) (pa key n new : Nat) (red : Bool) (ty : Nat) : Nat :=
  let old := match readLine s pa key n with
    | .ok v _ => v
    | _ => 0
  if red then reduceBytes (ty / 4) (ty % 4) n old new else new

/-- Another package writes or reduces n bytes of a line of this package, or another writes a line elsewhere (R223, R241,
R257). A part of a poisoned line sends LATENT_POISON (R206); a refused write leaves the line. -/
def farWrite (s : State) (pa key n v : Nat) (bad red : Bool) (ty : Nat) : State :=
  let s1 := sawPart s (2 ^ 16 + paDie pa) pa key n red
  match writeLine s1 pa key n (lineValue s1 pa key n v red ty) bad red with
  | .ok s2 latent => observe (if latent then sendRec s2 (homeCol pa) (ownerRec s pa key 0x24 2 0xFF) else s2) pa n
  | .key => s
  | .integrity c => ownerIntegrity s pa key c

/-- Whether every access of a request has been performed. -/
def allPerformed (o : Op) : Bool := o.parts.all (·.performed)

/-- A record of a missed promise (R228, R407). DEDUCED, log 25. -/
def missedRec (s : State) (id : Nat) : State :=
  let o := getOp s id
  sendRec s (opCol o)
    (opRec s o 0x22 (if o.kind = .mask ∨ o.kind = .nodeMask then 0x28 else if o.kind = .nodeCopy then 0 else o.opc) o.p o.c)

/-- A COPY or MASK node is done later than its bounds (R174, R407). -/
def nodeLate (s : State) (o : Op) : Bool :=
  let far := o.pages.foldl (fun m g =>
    if g.acc = 0 ∨ ownHome s o (g.pa.getD 0) then m
    else max m (if isRemote s (g.pa.getD 0) then 6400 else 1024)) 0
  decide (o.p + far < s.mer)

/-- The node of a request whose writes are performed is done, or ends with POISONED where it delivered poisoned data
(R305, R311); launches may have waited for one that wrote the weight store (R193). -/
def nodeEnd (s : State) (o : Op) (gn : Nat × Nat) : State :=
  let s1 := if o.parts.any (·.bad) then nodeFail s gn.1 gn.2 9 0 else nodeDone s gn.1 gn.2
  if o.opc = 0x24 then kickReady s1 o.vf else s1

/-- What follows when every write of a request has been performed. -/
def whenPerformed (s : State) (id : Nat) : State :=
  let o := getOp s id
  let t := o.thread.getD 0
  let gn := o.node.getD (0, 0)
  match o.kind with
  | .copy | .mask =>
    let s1 := modOp s id fun x => { x with performed := true }
    flushCheck (if o.complete then dropOp s1 id else s1) t
  | .sigset => flushCheck (dropOp s id) t
  | .flush => flushCheck (dropOp (fillReply s t 2 id o.result s.mer) id) t
  | .nodeCopy | .nodeMask => nodeEnd (delOp (if nodeLate s o then missedRec s id else s) id) o gn
  | .nodeSignal => nodeEnd (delOp s id) o gn
  | .cpl => delOp s id
  | .engine => sched s s.mer .engineRecordComplete [id]
  | _ => s

/-- LATENT_POISON of a partial line write (R206, R389). DEDUCED, log 33. -/
def latentLine (s : State) (id pa : Nat) : State :=
  let o := getOp s id
  sendRec s (if o.thread.isSome then opCol o else homeCol pa)
    (opRec s o 0x24 2 pa (if o.thread.isSome then o.core else 0xFF))

/-- A line write has been performed: its parts, its watches and what waits for the request. -/
def lineDone (s : State) (id : Nat) (c : Nat × Nat) (pa n : Nat) (latent : Bool) : State :=
  let s1 := if latent then latentLine s id pa else s
  let s2 := modOp s1 id fun x =>
    { x with parts := (List.range x.parts.length).zipWith (fun k p =>
        if c.1 ≤ k ∧ k < c.1 + c.2 then { p with put := true, performed := true } else p) x.parts }
  let s3 := observe s2 pa n
  let o := getOp s3 id
  let s4 := if o.missed && !o.complete && o.kind == .copy then sched s3 (s.mer + 1) .copyComplete [id] else s3
  if allPerformed o then whenPerformed s4 id else flushCheck s4 (o.thread.getD 0)

/-- LINE_WRITE: part of a line is written at its home, by the parts first to first + count - 1 of a request (R206, R223,
R232, R241, R358). A release waits for what it covers, an SC write for the SC copies before it. With request number 0 it
is a write by another package, of the length and value that follow address and key, poisoned with operand 5 set, and a
reduction with operand 6 set, of the type and operation of operand 7 (R257). DESIGN CHOICE, log 28. -/
def execLineWrite (s : State) : Host.Outcome State Fault Refusal :=
  let id := argN s 0
  let c := (argN s 1, argN s 2)
  let o0 := getOp s id
  if id = 0 then
    .next (farWrite s (argN s 1) (argN s 2) (argN s 3) (argN s 4) (argN s 5 == 1) (argN s 6 == 1) (argN s 7))
  else if swapped s o0 then .next (sched s (s.mer + 4096) .lineWrite [id, c.1, c.2])
  else
  let s1 := (chunkParts o0 c).foldl (fun a p => if p.srcDev || p.got then a else flushWord a (p.src / 8) s.mer) s
  let o := getOp s1 id
  let ps := chunkParts o c
  let p := ps.headD {}
  match pageOf o p.dst (writeAcc o) with
  | none => .next s
  | some g =>
    if p.performed then .next s
    else if o.held.isSome then .next (sched s1 (s.mer + 256) .lineWrite [id, c.1, c.2])
    else if (o.kind = .sigset ∨ o.kind = .flush) ∧ earlierOpen s1 id then
      let d := draw s1 o.vf 1 1024
      .next (sched d.2 (s.mer + d.1) .lineWrite [id, c.1, c.2])
    else if !(ps.all (·.got)) ∨ (g.sc && scBlocked s1 id) ∨ noWay s1 o (pagePa g p.dst) then
      .next (sched s1 (s.mer + 8) .lineWrite [id, c.1, c.2])
    else
      let pa := pagePa g p.dst
      let n := ps.foldl (fun m q => m + q.bytes) 0
      let new := ps.foldr (fun q acc => q.data.toNat + 2 ^ 64 * acc) 0
      let s2 := sawPart s1 (lineKey o pa) pa g.key n (o.opc == 0x25)
      match writeLine s2 pa g.key n (lineValue s2 pa g.key n new (o.opc == 0x25) o.ty) (ps.any (·.bad)) (o.opc == 0x25) with
      | .key => .next (permFail s1 id 2 g.acc p.dst)
      | .integrity e => .next (integrityFail s1 id e (pa / 64 * 64) g.key)
      | .ok s3 latent => .next (lineDone s3 id c pa n latent)

/-- A part of a copy counts as done (R226): performed locally or on its own die, or posted. -/
def partDone (s : State) (o : Op) (p : Part) : Bool :=
  if !p.dstDev then p.put
  else p.performed
    || (match pageOf o p.dst (writeAcc o) with
        | some g => !ownHome s o (g.pa.getD 0) && !g.sc && (p.got || (!p.srcDev && decide (p.at_ < s.mer)))
        | none => false)

/-- A copy or mask request is complete: waiters, the late record, and its end once performed (R226, R228, R230). -/
def finishRequest (s : State) (id : Nat) : State :=
  let o := getOp s id
  let t := o.thread.getD 0
  let s1 := modOp s id fun x => { x with complete := true, performed := allPerformed x }
  let here := (getTh s t).lid == o.lid.getD 0
  let s2 :=
    if o.missed then
      missedRec (if here then modTh s1 t fun th => { th with tst := th.tst ||| (BitVec.ofNat 33 (2 ^ 32)) } else s1) id
    else s1
  let s3 := if here then
      let s3 := if overdue s2 t s.mer then s2 else endPark s2 t (· == .missed) s.mer
      fenceCheck (if olderCopy s2 t id then s3 else endPark s3 t (· == .copyLimit) s.mer) t
    else s2
  if allPerformed o then flushCheck (dropOp s3 id) t else s3

/-- At its promise a copy or mask request is complete if its accesses are; otherwise the promise is missed, and the end
of its last local write is looked at again (R226, R228, R174). The request of a COPY node is done once its writes are
performed (R311). -/
def completeRequest (s : State) : Host.Outcome State Fault Refusal :=
  let id := argN s 0
  let s0 := s.wacts.foldl (fun a w =>
    match w.kind with
    | .opWrite i _ => if i = id ∧ w.at_ < s.mer then flushWord a w.word w.at_ else a
    | _ => a) s
  let o := getOp s0 id
  if !hasOp s0 id ∨ o.complete then .next s0
  else if o.kind = .nodeCopy ∧ allPerformed o then .next (whenPerformed s0 id)
  else if o.kind ≠ .nodeCopy && o.held.isNone && (o.pages.all fun g => g.pa.isSome) && o.parts.all (partDone s0 o) then
    .next (finishRequest s0 id)
  else
    let s1 := modOp s0 id fun x => { x with missed := true }
    let last := s0.wacts.foldl (fun m w =>
      match w.kind with
      | .opWrite i _ => if i = id then max m (w.at_ + 1) else m
      | _ => m) 0
    let ev : Instr := if o.kind = .mask then .maskComplete else .copyComplete
    .next (if last = 0 then s1 else sched s1 (max last (s.mer + 1)) ev [id, 1])

/-- COPY_COMPLETE (R226, R228). -/
def execCopyComplete (s : State) : Host.Outcome State Fault Refusal := completeRequest s

/-- A held request goes on: it is translated again from the page, or the event that it stands for is carried out again
(R395). A mask request has the words that it had read before, and its other reads find what stands from now on. -/
def replayOp (s : State) (id : Nat) : State :=
  let o := getOp s id
  match o.held with
  | none => s
  | some page =>
    if o.retry ≠ .nop then sched (delOp s id) s.mer o.retry o.rargs
    else if o.watching ∧ (o.kind = .mask ∨ o.kind = .nodeMask) then
      sched (modOp s id fun x =>
        { x with held := none, watching := false, olds := x.olds.filter fun w => 2 ^ 128 ≤ w.till }) s.mer .maskComplete
        [id, 0]
    else
      sched (modOp s id fun x => { x with held := none }) s.mer .copyTranslate
        [id, o.pages.findIdx fun g => g.page == page && g.pa.isNone]

/-- A held request becomes unfixable (R395): its launch is killed, its node or record fails, or its finished launch
completes with ORPHAN_OP. -/
def unfixable (s : State) (id : Nat) : State :=
  let o := getOp s id
  let s0 := modOp s id fun x => { x with held := none }
  match o.thread, o.lid with
  | some _, some l =>
    let x := getLaunch s l
    if x.killed.isNone && x.members.all (fun t => (getTh s t).lid == l && (getTh s t).st == .exited) then
      let p := (o.parts.find? (·.dstDev)).getD {}
      sendRec (stopOp s0 id) (opCol o)
        { opRec s o 0x25 o.opc (if p.dstDev then p.dst else o.a)
            (if o.kind = .mask then o.ty / 8 + 16 else o.size) with heal := .orphan l id }
    else if x.killed.isSome then dropOp s0 id
    else failOp s0 id 0x20
  | _, _ => failOp s0 id 0x20

/-- The node of the launch that a request belongs to decides its graph's status (R305, R321). -/
def blameNode (s : State) (o : Op) (code : Nat) : State :=
  match o.lid with
  | some l =>
    match (getLaunch s l).graph with
    | some (g, n) => failGraph s g 6 n code
    | none => s
  | none => s

/-- What firmware does about a fatal record (R394, R319, R357, R321). -/
def recover (s : State) (h : Heal) : State :=
  match h with
  | .none => s
  | .launch l code => killLaunch s l code false
  | .op id code =>
    if !hasOp s id then s
    else
      let o := getOp s id
      if code = 0x23 then integrityFatal (failOp (blameNode s o code) id code) o.vf else failOp s id code
  | .orphan l id => if hasOp s id then dropOp (modLaunch s l fun y => { y with orphan := true }) id else s
  | .part vf => integrityFatal s vf
  | .graph g => endGraph (modGraph s g fun x => { x with recs := x.recs - 1 }) g

/-- A read by a command core or an engine under a function's translation (R306, R315): the bytes and whether some were
poisoned, or the failure. -/
inductive DevRead where
  | ok (v : Nat) (bad : Bool)
  | xlate (page : Nat)
  | perm (reason dva : Nat)
  | integrity (cause pa key : Nat)
deriving DecidableEq, Repr

/-- Bytes read line by line, n of them from a. -/
def devReadFrom (s : State) (vf sub : Nat) (spans : List (Nat × Nat)) : DevRead :=
  match spans with
  | [] => .ok 0 false
  | (a, n) :: t =>
    match translate s vf sub a 0 with
    | .xlate => .xlate (a / 4096 * 4096)
    | .perm r => .perm r a
    | .ok pa key _ =>
      match readLine s pa key n with
      | .key => .perm 2 a
      | .integrity c => .integrity c (pa / 64 * 64) key
      | .ok v bad =>
        match devReadFrom s vf sub t with
        | .ok u b => .ok (v + u * 2 ^ (8 * n)) (bad || packetFails s pa || b)
        | e => e

/-- The lines that n bytes at a touch, with the bytes of each. -/
def lineSpans (a n : Nat) : List (Nat × Nat) :=
  (List.range (if n = 0 then 0 else (a % 64 + n + 63) / 64)).map fun i =>
    let lo := if i = 0 then a else a / 64 * 64 + 64 * i
    (lo, min (a / 64 * 64 + 64 * (i + 1)) (a + n) - lo)
def devRead (s : State) (vf sub a n : Nat) : DevRead := devReadFrom s vf sub (lineSpans a n)

/-- The lines of a range have been read, up to the first that cannot be: their single-bit errors are corrected (R204, R356),
and their packets have arrived (R399). -/
def readableSpans (s : State) (vf sub : Nat) (spans : List (Nat × Nat)) : List Nat :=
  match spans with
  | [] => []
  | (a, n) :: t =>
    match translate s vf sub a 0 with
    | .ok pa key _ =>
      match readLine s pa key n with
      | .ok _ _ => pa :: readableSpans s vf sub t
      | _ => []
    | _ => []
def sawRange (s : State) (vf sub a n : Nat) : State :=
  (readableSpans s vf sub (lineSpans a n)).foldl (fun q pa => sawPacket (sawLine q (2 ^ 16 + paDie pa) pa) pa) s

/-- Hold the event ev because its read met XLATE: a request without words stands for it (R315, R395). -/
def holdEvent (s : State) (o : Op) (page : Nat) (ev : Instr) (args : List Nat) : State :=
  let x := addOp s { o with pages := [{ page := page, acc := 0 }], retry := ev, rargs := args, c := s.mer }
  holdXlate x.2 x.1 page 0

/-- A read of an event failed for good: its record, and the end of what it belongs to. -/
def eventPerm (s : State) (o : Op) (reason dva : Nat) : State :=
  let x := addOp s o
  permFail x.2 x.1 reason 0 dva
def eventIntegrity (s : State) (o : Op) (cause pa key : Nat) : State :=
  let x := addOp s o
  integrityFail x.2 x.1 cause pa key

/-- A request of a node of a graph, and of a whole graph (node number 0xFFFF). -/
def nodeOp (s : State) (g n : Nat) (kind : OpKind) : Op :=
  let x := getGraph s g
  { kind := kind, vf := x.vf, sub := x.sub, die := if n = 0xFFFF then x.die else (nodeOf x n).die, node := some (g, n)
    instar := instarOf s x.vf, c := s.mer }

end Sys2Proof.Machine
end

