-- ==== Sys2Proof/Machine/Mailbox.lean ====
section
/-! DEFINITION. Mailbox registers: SEND, MBCLR, the transport of messages, the inbox and the window (07 R182 to R184; 08
R234 to R236; 10 R253, R254). -/

namespace Sys2Proof.Machine

/-- A message is written to its register (R182). -/
def putX (th : Thread) (m : Msg) : Thread :=
  goodParity { th with xreg := mapSet 0 th.xreg m.reg m.val, pres := th.pres ||| BitVec.ofNat 32 (2 ^ m.reg) }
    (192 + 32 + m.reg)

/-- The messages that an inbox holds, from oldest to newest: a held message in it is an entry that WINWR has made invalid
(R238). -/
def validMsgs (l : List Msg) : List Msg := l.filter (!·.held)

/-- A message meets a context (R182): the context that has taken it, or none where the inbox is full. -/
def receive (th : Thread) (m : Msg) : Option Thread :=
  let clear := th.pres.toNat / 2 ^ m.reg % 2 == 0
  let waits := (validMsgs th.inbox).any fun x => x.reg == m.reg
  if clear && !waits then
    some (putX th m)
  else if (validMsgs th.inbox).length < 8 then
    some { th with
      inbox := (if th.inbox.length < 8 then th.inbox else validMsgs th.inbox) ++ [{ m with held := false }] }
  else none

/-- One scan of the inbox from oldest to newest (R183): done lists what stays. -/
def drainFrom (th : Thread) (l done : List Msg) : Thread :=
  match l with
  | [] => { th with inbox := done }
  | m :: t =>
    if th.pres.toNat / 2 ^ m.reg % 2 = 0 ∧ !(done.any fun x => x.reg == m.reg) then
      drainFrom (putX th m) t done
    else drainFrom th t (done ++ [m])

/-- The drain of an ended turn, if one is due by cycle c (R183). -/
def drainDue (th : Thread) (c : Nat) : Thread :=
  match th.drainDue with
  | some d => if d ≤ c then drainFrom { th with drainDue := none } (validMsgs th.inbox) [] else th
  | none => th

/-- A window of 64 messages for each source die, destination die and partition (R235); in use. -/
def windowKey (src dst vf : Nat) : Nat := (vf * 4 + src) * 4 + dst
def windowUsed (s : State) (k : Nat) : Nat := mapGet 0 s.windows k

/-- Distance in the mesh (R235). -/
def hops (a b : Nat) : Nat :=
  (max (colOf a) (colOf b) - min (colOf a) (colOf b)) + (max (rowOf a) (rowOf b) - min (rowOf a) (rowOf b))

/-- Parks before a SEND to target t2 (R235): a held message of the thread, or no window unit. -/
def sendBlocked (s : State) (t t2 : Nat) : Bool :=
  (s.msgs.any fun e => e.2.src == t && e.2.held && e.2.lid == (getTh s t).lid)
    || (dieOf t2 != dieOf t && decide (64 ≤ windowUsed s (windowKey (dieOf t) (dieOf t2) (getTh s t).vf)))

/-- A target that SEND refuses (R234). -/
def badTarget (s : State) (vf a : Nat) : Bool :=
  decide (2 ^ 14 ≤ a) || decide (4 ≤ dieOf a) || decide (144 ≤ coreOf a) || isFirmware s (dieOf a) (coreOf a)
    || !maskHas (diesOf s vf) (dieOf a) || !maskHas (slotsOf s vf) (slotOf a)

/-- The park before a SEND whose target operand is a (R235, R271): a target that is refused asks for no window unit.
DEDUCED, log 17. -/
def sendParks (s : State) (t a : Nat) : Bool :=
  sendBlocked s t (if badTarget s (getTh s t).vf a then t else a)

/-- The latest arrival still to come among messages from one thread to one context, so that they stay in order. -/
def lastArrival (s : State) (src dst : Nat) : Nat :=
  s.agenda.foldl (fun m i =>
    let x := mapGet {} s.msgs (i.args.headD 0)
    if (i.ev = .messageArrive ∨ i.ev = .flitReceive) ∧ x.src = src ∧ x.dst = dst then max m i.cycle else m) 0

/-- A message leaves its sender (R235, R254). -/
def postMsg (s : State) (m : Msg) : State :=
  let x := fresh s
  let s1 := { x.2 with msgs := mapPut x.2.msgs x.1 m }
  let src := m.src
  if dieOf src = dieOf m.dst then
    sched s1 (s.mer + 8 * (2 + (hops (coreOf src) (coreOf m.dst) + 7) / 8)) .messageArrive [x.1]
  else
    let k := windowKey (dieOf src) (dieOf m.dst) m.vf
    let lo := max (accessEnd s src + 1) (lastArrival s src m.dst)
    let d := draw { s1 with windows := mapSet 0 s1.windows k (windowUsed s1 k + 1) } m.vf lo (max lo (s.mer + 1024))
    sched d.2 d.1 .flitReceive [x.1]

/-- SEND (R234, R235). -/
def effSend (o : XOp) : Eff := predEff o.p fun s =>
  let th := curTh s
  let a := (rdS th o.a).toNat
  if sendParks s s.cur a then .ok (addPark s s.cur .send)
  else if badTarget s th.vf a then .error { code := 0x0D, unit := 5, addr := a }
  else
    .ok (postMsg s
      { src := s.cur, lid := th.lid, dst := a, reg := o.idx, val := rdS th o.b, vf := th.vf, instar := instarOf s th.vf
        cross := dieOf a != dieOf s.cur })

/-- The end of the turn drains the inbox (R183). -/
def askDrain (th : Thread) (c : Nat) : Thread := { th with drainDue := some c }

/-- MBCLR (R236). -/
def effMbclr (o : XOp) : Eff := predEff o.p fun s =>
  .ok (modCur s fun th =>
    askDrain { th with pres := th.pres &&& ~~~(BitVec.ofNat 32 (2 ^ o.idx)) } (s.mer + 8))

/-- A message leaves the transport: its cross-die window unit starts back, unless a function-level reset has reclaimed it
(R350), and a FENCE of its sender looks again. -/
def endMsg (s : State) (id : Nat) : State :=
  let m := mapGet {} s.msgs id
  let s1 := fenceCheck { s with msgs := mapDel s.msgs id } m.src
  if m.cross && m.instar == instarOf s m.vf then
    let d := draw s1 m.vf 1 1024
    sched d.2 (s.mer + d.1) .sendWindowReturn [dieOf m.src, dieOf m.dst, m.vf]
  else s1

/-- A message is offered to its receiver (R182, R235, R253): dropped when its instar is old, held while the inbox is full
or an older message of its thread to the same context is held. -/
def offerMsg (s : State) (id : Nat) : State :=
  let m := mapGet {} s.msgs id
  let older := s.msgs.any fun e => decide (e.1 < id) && e.2.src == m.src && e.2.dst == m.dst && e.2.held
  if !s.msgs.any fun e => e.1 == id then s
  else if m.instar < instarOf s m.vf then endMsg s id
  else
    let th := drainDue (getTh s m.dst) s.mer
    match (if older then none else receive th m) with
    | some x =>
      let late := (validMsgs x.inbox).length ≠ (validMsgs th.inbox).length ∧ th.pres.toNat / 2 ^ m.reg % 2 = 0
      endMsg (putTh s m.dst (if late then askDrain x (slotCycle (s.mer + 1) (slotOf m.dst)) else x)) id
    | none =>
      sched { putTh s m.dst th with msgs := mapPut s.msgs id { m with held := true } } (s.mer + 8) .messageRetry [id]

/-- MESSAGE_ARRIVE (R182, R235). -/
def execMessageArrive (s : State) : Host.Outcome State Fault Refusal := .next (offerMsg s (argN s 0))

/-- MESSAGE_RETRY (R235): a held message is offered again, unless its sender's context is saved (R298). -/
def execMessageRetry (s : State) : Host.Outcome State Fault Refusal :=
  let id := argN s 0
  match (getVf s (mapGet {} s.msgs id).vf).pre with
  | .saved _ => .next (sched s (s.mer + 4096) .messageRetry [id])
  | _ => .next (offerMsg s id)

/-- FLIT_RECEIVE (R253): the receiving die drops the flit of a partition that is not resident or of an old instar, and
otherwise carries the message to its core. -/
def execFlitReceive (s : State) : Host.Outcome State Fault Refusal :=
  let id := argN s 0
  let m := mapGet {} s.msgs id
  if m.vf ≠ 0 ∧ (!(getVf s m.vf).resident ∨ m.instar < instarOf s m.vf) then .next (endMsg s id)
  else .next (sched s s.mer .messageArrive [id])

/-- SEND_WINDOW_RETURN (R235): a unit of the window comes back. -/
def execSendWindowReturn (s : State) : Host.Outcome State Fault Refusal :=
  let k := windowKey (argN s 0) (argN s 1) (argN s 2)
  .next { s with windows := mapSet 0 s.windows k (windowUsed s k - 1) }

/-- SEND issued alone (R234). -/
def execSend (o : XOp) (s : State) : Host.Outcome State Fault Refusal := runSlot (effSend o) s

/-- MBCLR issued alone (R236). -/
def execMbclr (o : XOp) (s : State) : Host.Outcome State Fault Refusal := runSlot (effMbclr o) s

end Sys2Proof.Machine
end

