-- ==== Sys2Proof/Machine/Matrix.lean ====
section
/-! DEFINITION. The cluster matrix unit (05 R138 to R162): the format context, queued commands with their cycles, issue
checks, operand reads, results, drains and poison. -/

namespace Sys2Proof.Machine

/-- The first owned cycle of a context at or after x (R144). -/
def ownedFrom (t x : Nat) : Nat :=
  let r := 8 * posOf (coreOf t) + slotOf t
  x + (r + 32 - x % 32) % 32

/-- Cycles per block of a pair of types (R146). -/
def cyclesPerBlock (f : FmtCtx) : Nat :=
  let one (x : Nat) : Nat := if x = 2 then 1 else if x = 1 then 2 else 4
  max (one f.atype) (one f.btype)

/-- W of a command (R146). -/
def cmdCycles (k : MKind) (nb : Nat) (f : FmtCtx) : Nat :=
  match k with
  | .mma _ sparse => if sparse then (nb * cyclesPerBlock f + 1) / 2 else nb * cyclesPerBlock f
  | .mhad => 5
  | .mdrain | .mldacc | .mstacc => 4
  | .mdrainv | .mzero => 1

/-- First, last and completion cycle of a command issued in this cycle (R145). -/
def cmdFirst (s : State) (t : Nat) : Nat := ownedFrom t (max (s.mer + 8) ((getTh s t).mlast + 1))
def cmdLast (m0 w : Nat) : Nat := m0 + 32 * (w - 1)

/-- A plane of an operand or destination: its code in fault records (R150), where it lies, its base and length. -/
structure Plane where
  code : Nat
  src : Nat
  base : Nat
  bytes : Nat
deriving DecidableEq, Repr

/-- The planes that an MMA reads (R142, R143). -/
def mmaPlanes (q : MCmd) (sparse : Bool) : List Plane :=
  let f := q.fmt
  let ae := 32 * q.nb * blockBytes f.atype
  [{ code := 0, src := q.srcA, base := q.addrA, bytes := if sparse then ae / 2 else ae }]
    ++ (if f.atype = 3 then [] else [{ code := 1, src := q.srcA, base := q.addrA + f.aoff, bytes := 32 * q.nb }])
    ++ (if sparse then [{ code := 2, src := q.srcA, base := q.addrA + f.moff, bytes := 128 * q.nb }] else [])
    ++ [{ code := 3, src := q.srcB, base := q.addrB, bytes := 32 * q.nb * blockBytes f.btype }]
    ++ (if f.btype = 3 then [] else [{ code := 4, src := q.srcB, base := q.addrB + f.boff, bytes := 32 * q.nb }])

/-- Format of a drain: funct[2:0], rounding funct[4:3], shift funct[9:5] (R159). -/
def drainFmt (fn : Nat) : Nat := fn % 8
def drainRound (fn : Nat) : Nat := fn / 8 % 4
def drainShift (fn : Nat) : Nat := fn / 32 % 32

/-- The planes that a drain writes (R159). -/
def drainPlanes (q : MCmd) : List Plane :=
  let g := drainFmt q.fn
  if g = 0 then [{ code := 5, src := q.srcA, base := q.addrA, bytes := 2048 }]
  else if g = 1 then [{ code := 5, src := q.srcA, base := q.addrA, bytes := 4096 }]
  else if g = 2 then [{ code := 5, src := q.srcA, base := q.addrA, bytes := 1024 }]
  else
    [{ code := 5, src := q.srcA, base := q.addrA, bytes := 32 * blockBytes (g - 3) },
     { code := 5, src := q.srcA, base := q.addrA + q.fmt.aoff, bytes := 32 }]

/-- The planes of a command (R150): those it reads and those it writes. -/
def readPlanes (q : MCmd) : List Plane :=
  match q.kind with
  | .mma _ sparse => mmaPlanes q sparse
  | .mldacc => [{ code := 6, src := q.srcA, base := q.addrA, bytes := 4096 }]
  | _ => []
def writePlanes (q : MCmd) : List Plane :=
  match q.kind with
  | .mdrain => drainPlanes q
  | .mstacc => [{ code := 5, src := q.srcA, base := q.addrA, bytes := 4096 }]
  | _ => []

/-- The core that a source code names (R141). -/
def sourceCore (t src : Nat) : Nat := if src = 5 then coreOf t else coreOf t / 4 * 4 + src

/-- Size of the space that a plane lies in (R141). -/
def planeLimit (s : State) (t src : Nat) : Nat :=
  let vf := (getTh s t).vf
  if src = 4 then weightSize s vf (dieOf t) else localSize s vf

/-- The flat words of a plane. -/
def planeWords (s : State) (t : Nat) (p : Plane) : List Nat :=
  let vf := (getTh s t).vf
  (List.range (p.bytes / 8)).map fun i =>
    if p.src = 4 then weightAddr s vf (dieOf t) (p.base + 8 * i) / 8
    else localWord s vf (dieOf t) (sourceCore t p.src) (p.base / 8 + i)

/-- Some cycle of [m0, f) lies in a refresh window of bank b (R150). -/
def refreshSpan (m0 f b : Nat) : Bool :=
  refreshing m0 b || decide ((1024 * b + 65536 - m0 % 65536) % 65536 < f - m0)

/-- The first offset of a weight plane that lies in a bank under refresh during the command. -/
def refreshHit (m0 f : Nat) (p : Plane) : Option Nat :=
  if p.src ≠ 4 ∨ p.bytes = 0 then none
  else
    let lo := p.base / 8192
    let n := (p.base + p.bytes - 1) / 8192 - lo + 1
    ((List.range n).find? fun i => refreshSpan m0 f ((lo + i) % 64)).map fun i => max p.base ((lo + i) * 8192)

/-- The local address of the first word of a plane that meets the race checker, a word written counting as stored by the
issuing thread (R150, R240). DEDUCED, log 31. -/
def raceHit (s : State) (t : Nat) (p : Plane) : Option (Nat × Nat) :=
  if !raceOn s t || p.src == 4 then none
  else
    let ws := planeWords s t p
    let hit (w : Nat) : Bool := raceBad s t w || (p.code == 5 && sourceBusy s (getTh s t).vf w)
    ((List.range ws.length).find? fun i => hit (ws.getD i 0)).map fun i =>
      (p.base + 8 * i, shadowOf s (ws.getD i 0))

/-- The commands that name a block count. -/
def isMma (k : MKind) : Bool :=
  match k with
  | .mma _ _ => true
  | _ => false

/-- The issue checks of a queued command (R150) in their order, each over the planes in their order; a plane that is
misplaced is named by its base: DEDUCED, log 57. Of several planes, offsets, banks or words that fail one check the first in
this order is named: DESIGN CHOICE, log 57. -/
def checkCmd (s : State) (t : Nat) (q : MCmd) : Option Trap :=
  let ps := readPlanes q ++ writePlanes q
  if isMma q.kind && (q.nb == 0 || decide (256 < q.nb)) then some { code := 0x0A, unit := 3, addr := q.nb }
  else
    match ps.find? fun p => p.base % 64 != 0 with
    | some p => some { code := 0x04, unit := 3, addr := p.base, d6 := p.code }
    | none =>
      match ps.find? fun p => decide (planeLimit s t p.src < p.base + p.bytes) with
      | some p => some { code := 0x03, unit := 3, addr := p.base, d6 := p.code }
      | none =>
        match ps.find? fun p => (refreshHit q.m0 q.f p).isSome with
        | some p =>
          let off := (refreshHit q.m0 q.f p).getD 0
          some { code := 0x07, unit := 3, addr := off, d5 := weightBank off, d6 := p.code }
        | none =>
          match ps.find? fun p => (raceHit s t p).isSome with
          | some p =>
            let h := (raceHit s t p).getD (0, 0)
            some { code := 0x05, unit := 3, addr := h.1, d5 := h.2, d6 := p.code }
          | none => none

/-- Queue a command (R145, R150): a full queue parks the thread before the bundle; otherwise the checks, then its entry,
its cycles, and the shadows of its writes. -/
def queueCmd (mk : Thread → MCmd) : Eff := fun s =>
  let t := s.cur
  let th := getTh s t
  if 4 ≤ (th.mq.filter fun q => decide (s.mer < q.f)).length then .ok (addPark s t .mqFull)
  else
    let q0 := mk th
    let w := cmdCycles q0.kind q0.nb th.fmt
    let m0 := cmdFirst s t
    let q := { q0 with id := s.seq, fmt := th.fmt, m0 := m0, last := cmdLast m0 w, f := cmdLast m0 w + 32, pc := th.pc }
    match checkCmd s t q with
    | some e => .error e
    | none =>
      let s1 := modTh { s with seq := s.seq + 1 } t fun x => { x with mq := x.mq ++ [q], mlast := q.last }
      let s2 := sched (sched s1 q.m0 .matrixCommandStart [t, q.id]) q.f .matrixCommandComplete [t, q.id]
      .ok ((writePlanes q).foldl (fun a p =>
        if p.src = 4 then a else (planeWords s t p).foldl (fun b x => markShadow b t x false) a) s2)

/-- A command with nothing filled in. -/
def cmd0 (k : MKind) (acc : Nat) : MCmd := { id := 0, kind := k, acc := acc, m0 := 0, last := 0, f := 0 }

/-- MFMT (R155): the offsets must be multiples of 64, checked AOFF, BOFF, MOFF. -/
def effMfmt (o : MOp) : Eff := fun s =>
  let th := curTh s
  let a := (rdS th o.a).toNat % 2 ^ 32
  let b := (rdS th o.b).toNat % 2 ^ 32
  let m := (rdS th o.n).toNat % 2 ^ 32
  if a % 64 ≠ 0 then .error { code := 0x04, unit := 3, addr := a, d6 := 7 }
  else if b % 64 ≠ 0 then .error { code := 0x04, unit := 3, addr := b, d6 := 7 + 16 }
  else if m % 64 ≠ 0 then .error { code := 0x04, unit := 3, addr := m, d6 := 7 + 32 }
  else
    .ok (modCur s fun x =>
      { x with fmt := { x.fmt with atype := o.fn % 4, btype := o.fn / 4 % 4, acct := o.fn / 16 % 2
                                   aoff := a, boff := b, moff := m } })

/-- MSEED (R162). -/
def effMseed (o : MOp) : Eff := fun s =>
  .ok (modCur s fun x => { x with fmt := { x.fmt with mseedv := (rdS x o.a).toNat % 2 ^ 32 } })

/-- The MMA family (R156). -/
def mmaEff (zero sparse : Bool) (o : MOp) : Eff := queueCmd fun th =>
  { cmd0 (.mma zero sparse) o.acc with
    addrA := (rdS th o.a).toNat, addrB := (rdS th o.b).toNat, nb := (rdS th o.n).toNat
    srcA := o.sa, srcB := o.sb, tb := o.fl % 2 == 1 }
def effMma (o : MOp) : Eff := mmaEff false false o
def effMmaz (o : MOp) : Eff := mmaEff true false o
def effMmas (o : MOp) : Eff := mmaEff false true o
def effMmasz (o : MOp) : Eff := mmaEff true true o

/-- MHAD, MZERO, drains and patterns (R157 to R161). -/
def effMhad (o : MOp) : Eff := queueCmd fun _ => { cmd0 .mhad o.acc with fn := o.fn % 64 }
def effMzero (o : MOp) : Eff := queueCmd fun _ => cmd0 .mzero o.acc
def effMdrain (o : MOp) : Eff := queueCmd fun th =>
  { cmd0 .mdrain o.acc with addrA := (rdS th o.a).toNat, srcA := o.sa, fn := o.fn }
def effMdrainv (o : MOp) : Eff := queueCmd fun th =>
  { cmd0 .mdrainv o.acc with phys := physV th.rrb o.a, row := (rdS th o.b).toNat % 32, fn := o.fn }
def effMldacc (o : MOp) : Eff := queueCmd fun th =>
  { cmd0 .mldacc o.acc with addrA := (rdS th o.a).toNat, srcA := o.sa }
def effMstacc (o : MOp) : Eff := queueCmd fun th =>
  { cmd0 .mstacc o.acc with addrA := (rdS th o.a).toNat, srcA := o.sa }

/-- Tile elements (R140); those written whole have good parity (R400). -/
def tileGet (th : Thread) (acc i : Nat) : Nat := (mapGet 0 th.tiles (acc * 1024 + i)).toNat
def tilePut (th : Thread) (acc : Nat) (l : List Nat) : Thread :=
  { th with
    tiles := (List.range l.length).foldl (fun m i =>
      mapSet 0 m (acc * 1024 + i) (BitVec.ofNat 32 (l.getD i 0))) th.tiles
    parity := th.parity.filter fun p => p / 1024 != 1 + acc }
def tileAll (th : Thread) (acc : Nat) : List Nat := (List.range 1024).map (tileGet th acc)
def tileBad (th : Thread) (acc : Nat) : Bool := maskHas th.tbad acc
def setTileBad (th : Thread) (acc : Nat) (b : Bool) : Thread :=
  { th with tbad := (if maskHas th.tbad (1 - acc) then 2 ^ (1 - acc) else 0) + (if b then 2 ^ acc else 0) }

/-- The elements of its tile that a command reads: their first number and how many (R156 to R161). -/
def tileReads (q : MCmd) : Nat × Nat :=
  match q.kind with
  | .mma false _ | .mhad | .mdrain | .mstacc => (1024 * q.acc, 1024)
  | .mdrainv =>
    if drainFmt q.fn = 0 then (1024 * q.acc + 32 * q.row, 32)
    else (1024 * q.acc + 32 * q.row + (if drainFmt q.fn = 1 then 0 else 16), 16)
  | _ => (0, 0)

/-- A command reads elements of its tile: one of bad parity is found, and marks the tile poisoned (R400). -/
def seeTile (q : MCmd) (th : Thread) : Thread :=
  let r := tileReads q
  if th.parity.any fun p => decide (1024 + r.1 ≤ p) && decide (p < 1024 + r.1 + r.2) then setTileBad th q.acc true else th

/-- The bytes of a plane as the command read them, as one number. -/
def planeNat (s : State) (t : Nat) (q : MCmd) (p : Plane) : Nat :=
  (planeWords s t p).foldr (fun w acc => (mapGet 0 q.buf w).toNat + 2 ^ 64 * acc) 0

/-- The plane of a command with a given code, as read. -/
def planeOf (s : State) (t : Nat) (q : MCmd) (code : Nat) : Nat :=
  match (readPlanes q).find? fun p => p.code == code with
  | some p => planeNat s t q p
  | none => 0

/-- The elements of a block: signed codes of an MX type, patterns of BF16 (R84, R85). -/
def blockElems (ty plane n i : Nat) : List Int :=
  let b := if ty = 3 then 16 else mxBits ty
  let x := plane / 2 ^ (b * n * i) % 2 ^ (b * n)
  (List.range n).map fun k => if ty = 3 then ((x / 2 ^ (16 * k) % 2 ^ 16 : Nat) : Int) else mxElem ty x k

/-- The kept elements that stand at position k under a metadata word (R143). -/
def keptAt (md : Nat) (kept : List Int) (k : Nat) : List Int :=
  let g := k / 4
  let p0 := md / 2 ^ (4 * g) % 4
  let p1 := md / 2 ^ (4 * g + 2) % 4
  (if p0 = k % 4 then [kept.getD (2 * g) 0] else []) ++ (if p1 = k % 4 then [kept.getD (2 * g + 1) 0] else [])

/-- A's block i as MX codes, dense or expanded (R142, R143). -/
def aCodes (ty pe pm : Nat) (sparse : Bool) (i : Nat) : List Int :=
  if sparse then
    let kept := blockElems ty pe 16 i
    (List.range 32).map fun k => (keptAt (pm / 2 ^ (32 * i) % 2 ^ 32) kept k).foldl (· + ·) 0
  else blockElems ty pe 32 i

/-- A BF16 block as exact values, with NV where an element is a signalling NaN (R81, R94). A position to which 2:4 sparsity
brings no element is +0, and otherwise the sum of what it brings, so that a kept -0 reads as in a dense block (R95).
DEDUCED, log 56. -/
def bfVals (l : List Int) : List FV := l.map fun x => valF bf16 x.toNat
def bfFlags (l : List Int) : Nat := l.foldl (fun f x => f ||| snanFlag bf16 x.toNat) 0
def aVals (pe pm : Nat) (sparse : Bool) (i : Nat) : List FV × Nat :=
  let kept := blockElems 3 pe 16 i
  let md := pm / 2 ^ (32 * i) % 2 ^ 32
  if sparse then
    ((List.range 32).map fun k =>
      match bfVals (keptAt md kept k) with
      | [] => .fin false 0 0
      | l => (sumV l).1, bfFlags kept)
  else
    let l := blockElems 3 pe 32 i
    (bfVals l, bfFlags l)

/-- One element of the product (R156): element (i, j) of the tile after every K-block in ascending order. -/
def mmaElem (q : MCmd) (sparse : Bool) (pa sa pm pb sb acc i j : Nat) : Nat × Nat :=
  let f := q.fmt
  (List.range q.nb).foldl (fun (x : Nat × Nat) k =>
    let na := i * q.nb + k
    let nb := if q.tb then j * q.nb + k else k * 32 + j
    let y :=
      if f.atype = 3 then
        let a := aVals pa pm sparse na
        let b := blockElems 3 pb 32 nb
        macBlockBf x.1 (a.2 ||| bfFlags b) a.1 (bfVals b)
      else
        macBlockMx (f.acct == 0) x.1 f.atype f.btype (sa / 2 ^ (8 * na) % 256) (sb / 2 ^ (8 * nb) % 256)
          (aCodes f.atype pa pm sparse na) (blockElems f.btype pb 32 nb)
    (y.1, x.2 ||| y.2)) (acc, 0)

/-- The tile after an MMA, with the flags raised (R149, R156); MMAZ and MMASZ have zeroed it in their first cycle. -/
def mmaTile (s : State) (t : Nat) (q : MCmd) (sparse : Bool) : List Nat × Nat :=
  let th := getTh s t
  let pa := planeOf s t q 0
  let sa := planeOf s t q 1
  let pm := planeOf s t q 2
  let pb := planeOf s t q 3
  let sb := planeOf s t q 4
  let l := (List.range 1024).map fun e => mmaElem q sparse pa sa pm pb sb (tileGet th q.acc e) (e / 32) (e % 32)
  (l.map (·.1), l.foldl (fun f x => f ||| x.2) 0)

/-- Sign word k of the constant store (R158). -/
def signWord (k : Nat) : Nat := if k = 0 then 0 else (rhash (BitVec.ofNat 64 k) 0x4D48).toNat % 2 ^ 32

/-- The adds and negations of MHAD (R157), with the flags of an add (R149): those of RoundF. DEDUCED, log 55. -/
def hadAdd (fp : Bool) (u w : Nat × Nat) : Nat × Nat :=
  if fp then nodeAddF f32 u w else (satN true 32 (signedOf 32 u.1 + signedOf 32 w.1), 0)
def hadNeg (fp : Bool) (x : Nat × Nat) : Nat × Nat :=
  if fp then ((x.1 + 2 ^ 31) % 2 ^ 32, x.2) else (satN true 32 (-signedOf 32 x.1), x.2)

/-- One stage of a row (R157). -/
def hadStage (fp : Bool) (h : Nat) (x : List (Nat × Nat)) : List (Nat × Nat) :=
  (List.range 32).map fun i =>
    if i / h % 2 = 0 then hadAdd fp (x.getD i (0, 0)) (x.getD (i + h) (0, 0))
    else hadAdd fp (x.getD (i - h) (0, 0)) (hadNeg fp (x.getD i (0, 0)))

/-- A row under MHAD (R157). -/
def hadRow (fp : Bool) (sw : Nat) (row : List Nat) : List (Nat × Nat) :=
  let x := (List.range 32).map fun j =>
    let y := (row.getD j 0, 0)
    if maskHas sw j then hadNeg fp y else y
  [1, 2, 4, 8, 16].foldl (fun a h => hadStage fp h a) x

/-- The tile after MHAD. -/
def hadTile (fp : Bool) (sw : Nat) (l : List Nat) : List (Nat × Nat) :=
  ((List.range 32).map fun r => hadRow fp sw ((l.drop (32 * r)).take 32)).flatten

/-- The value that a drain converts: the element scaled by 2^-sh (R159). -/
def drainVal (acct sh x : Nat) : FV :=
  match (if acct = 0 then valF f32 x else ofInt (signedOf 32 x)) with
  | .fin n m e => .fin n m (e - sh)
  | v => v

/-- NV where an element of an f32 tile that a drain converts to a floating type is a signalling NaN (R81). DEDUCED,
log 55. -/
def drainNv (acct : Nat) (l : List Nat) : Nat :=
  if acct = 0 then l.foldl (fun f x => f ||| snanFlag f32 x) 0 else 0

/-- A value is the decoding of code c under scale byte sc (R159). -/
def mxSame (t sc c : Nat) (v : FV) : Bool :=
  if sc = 255 then v == .nan
  else
    match v with
    | .fin n m e =>
      let d := signedOf (mxBits t) c
      sumUnits [.fin n m e, .fin (decide (0 < d)) d.natAbs ((sc : Int) - 127 - mxFrac t)]
        (min e ((sc : Int) - 127 - mxFrac t)) == 0
    | _ => false

/-- An element of a drain to bf16, f32 or i8 (R159). -/
def drainElem (g rm seed : Nat) (v : FV) : Nat × Nat :=
  if g = 0 then roundV bf16 v rm seed else if g = 1 then roundV f32 v rm seed else floatToInt true 8 v rm seed

/-- The 8-byte words of a list of elements of b bits each. -/
def packWords (b : Nat) (l : List Nat) : List Nat :=
  let x := ofLanes b l
  (List.range (b * l.length / 64)).map fun i => x / 2 ^ (64 * i) % 2 ^ 64

/-- What a drain writes (R159): the words of each of its planes, and its flags. -/
def drainOut (q : MCmd) (tile : List Nat) : List (List Nat) × Nat :=
  let g := drainFmt q.fn
  let vs := tile.map (drainVal q.fmt.acct (drainShift q.fn))
  if g < 3 then
    let es := vs.map (drainElem g (drainRound q.fn) q.fmt.mseedv)
    ([packWords (if g = 0 then 16 else if g = 1 then 32 else 8) (es.map (·.1))],
     es.foldl (fun f e => f ||| e.2) (if g < 2 then drainNv q.fmt.acct tile else 0))
  else
    let t := g - 3
    let rows := (List.range 32).map fun r => (vs.drop (32 * r)).take 32
    let es := rows.map fun r => (r, mxEncode t r (drainRound q.fn) q.fmt.mseedv)
    let nx := es.any fun e => !(List.zipWith (mxSame t e.2.1) e.2.2 e.1).all id
    ([packWords (mxBits t) (es.map (·.2.2)).flatten, packWords 8 (es.map (·.2.1))], if nx then fNX else 0)

/-- The lanes of MDRAINV (R160), with its flags. -/
def drainvOut (q : MCmd) (tile : List Nat) : Nat × Nat :=
  let g := drainFmt q.fn
  let row := (tile.drop (32 * q.row)).take 32
  let src := if g = 0 then row else if g = 1 then row.take 16 else row.drop 16
  let es := (src.map (drainVal q.fmt.acct (drainShift q.fn))).map
    (drainElem (if g = 0 then 0 else 1) (drainRound q.fn) q.fmt.mseedv)
  (ofLanes (if g = 0 then 16 else 32) (es.map (·.1)), es.foldl (fun f e => f ||| e.2) (drainNv q.fmt.acct src))

/-- Draw the read cycles of the words that a command reads, each in [m0, m_last] (R148). -/
def drawReads (s : State) (t : Nat) (q : MCmd) : State :=
  let vf := (getTh s t).vf
  ((readPlanes q).map (planeWords s t)).flatten.eraseDups.foldl (fun a w =>
    let d := draw a vf q.m0 q.last
    addWact d.2 { at_ := portCycle d.2 true w q.m0 q.last d.1, mx := true, owner := t, word := w, kind := .mread t q.id }) s

/-- Draw the write cycles of the words that a command writes, each in [m0, f - 1] (R148). A word that lies in both planes of
a drain keeps the write whose cycle comes later. DESIGN CHOICE, log 75. -/
def drawWrites (s : State) (t : Nat) (q : MCmd) (out : List (List Nat)) (bad : Bool) : State :=
  let vf := (getTh s t).vf
  (List.zipWith (fun p l => List.zip (planeWords s t p) l) (writePlanes q) out).flatten.foldl (fun a e =>
    let d := draw a vf q.m0 (q.f - 1)
    addWact d.2
      { at_ := portCycle d.2 true e.1 q.m0 (q.f - 1) d.1, mx := true, owner := t, word := e.1
        kind := .store (BitVec.ofNat 64 e.2) 255 bad 0 }) s

/-- The command a start or completion event names, still queued. -/
def findCmd (s : State) (t id : Nat) : Option MCmd := (getTh s t).mq.find? fun q => q.id == id

/-- The tile as MMAZ and MMASZ leave it in their first cycle: zero, its mark cleared (R156). -/
def clearTile (acc : Nat) (th : Thread) : Thread := setTileBad (tilePut th acc (List.replicate 1024 0)) acc false

/-- A command reaches its first owned cycle (R148): its operand reads, or its writes of the tile as it now stands, take
their cycles. -/
def execMatrixCommandStart (s : State) : Host.Outcome State Fault Refusal :=
  let t := argN s 0
  match findCmd s t (argN s 1) with
  | none => .next s
  | some q =>
    let s := modTh s t (seeTile q)
    let th := getTh s t
    match q.kind with
    | .mdrain => .next (drawWrites s t q (drainOut q (tileAll th q.acc)).1 (tileBad th q.acc))
    | .mstacc => .next (drawWrites s t q [packWords 32 (tileAll th q.acc)] (tileBad th q.acc))
    | .mma true _ => .next (drawReads (modTh s t (clearTile q.acc)) t q)
    | _ => .next (drawReads s t q)

/-- The tile, its mark, and the flags that a command leaves (R149, R151, R156 to R161). -/
def cmdTile (s : State) (t : Nat) (q : MCmd) (th : Thread) : Thread × Nat :=
  match q.kind with
  | .mma _ sparse =>
    let r := mmaTile s t q sparse
    (setTileBad (tilePut th q.acc r.1) q.acc (q.bad || tileBad th q.acc), r.2)
  | .mhad =>
    let r := hadTile (q.fmt.acct == 0) (signWord q.fn) (tileAll th q.acc)
    (tilePut th q.acc (r.map (·.1)), r.foldl (fun f x => f ||| x.2) 0)
  | .mzero => (clearTile q.acc th, 0)
  | .mldacc =>
    let x := planeOf s t q 6
    (setTileBad (tilePut th q.acc ((List.range 1024).map fun i => x / 2 ^ (32 * i) % 2 ^ 32)) q.acc q.bad, 0)
  | .mdrain => (th, (drainOut q (tileAll th q.acc)).2)
  | .mdrainv =>
    let r := drainvOut q (tileAll th q.acc)
    let p : Pend := { due := q.f, seq := q.id, dest := .v q.phys, val := r.1, mask := 2 ^ 512 - 1 }
    ({ th with pend := insPend th.pend p }, r.2)
  | .mstacc => (th, 0)

/-- A poisoned word read, or a poisoned tile drained or stored, leaves a POISON for the first bundle at or after f
(R151). -/
def cmdPoison (th : Thread) (q : MCmd) : Bool :=
  match q.kind with
  | .mdrain | .mdrainv | .mstacc => tileBad th q.acc
  | _ => q.bad

/-- MDRAINV of a poisoned tile leaves its destination poisoned (R151), as a register whose parity is bad (R400), unless a
later result has taken its place (R56). DEDUCED, log 13. -/
def poisonDrainv (q : MCmd) (th0 th : Thread) : Thread :=
  let later (k : Nat) (p : Pend) : Bool :=
    decide (p.due ≤ q.f) && decide (q.id < p.seq) && p.dest == .v q.phys && decide (p.mask / 2 ^ (64 * k) % 2 ^ 64 = 2 ^ 64 - 1)
  let bad := ((List.range 8).filter fun k => !th0.pend.any (later k)).map (vparity q.phys)
  match q.kind with
  | .mdrainv => if tileBad th0 q.acc then { th with parity := bad ++ th.parity } else th
  | _ => th

/-- The tiles that hold an element of bad parity, as a mark for each: its parity code is 1,024 and its number (R400). -/
def badTiles (th : Thread) : Nat :=
  (if th.parity.any (fun p => p / 1024 == 1) then 1 else 0) + (if th.parity.any (fun p => p / 1024 == 2) then 2 else 0)

/-- The tiles of the last safe point are taken once the commands issued before it are complete (R152). -/
def captureTiles (th : Thread) : Thread :=
  match th.ckpt.mUpto with
  | some k =>
    if th.mq.any fun q => decide (q.id < k) then th
    else { th with ckpt := { th.ckpt with tiles := th.tiles, tbad := th.tbad ||| badTiles th, mUpto := none } }
  | none => th

/-- A command completes (R147): its entry is freed, its result stands, its flags are in FST; the parks that waited for
the queue end at the thread's next turn, and an exiting thread with nothing left enters EXITED. UNIT of the POISON it may
leave is 3. DEDUCED, log 57. -/
def execMatrixCommandComplete (s : State) : Host.Outcome State Fault Refusal :=
  let t := argN s 0
  match findCmd s t (argN s 1) with
  | none => .next s
  | some q =>
    .next (tryExit (modTh s t fun x0 =>
      let th0 := seeTile q x0
      let r := cmdTile s t q th0
      let th := poisonDrainv q th0 (landUpto r.1 s.mer)
      captureTiles { th with
        fst := th.fst ||| BitVec.ofNat 5 r.2
        mq := th.mq.filter fun x => x.id != q.id
        deferred := if cmdPoison th0 q then
            th.deferred ++ [{ at_ := q.f, cause := 1, addr := q.pc, unit := 3 }]
          else th.deferred }) t)

/-- MFMT issued alone (R155). -/
def execMfmt (o : MOp) (s : State) : Host.Outcome State Fault Refusal := runSlot (effMfmt o) s

/-- MMA issued alone (R156). -/
def execMma (o : MOp) (s : State) : Host.Outcome State Fault Refusal := runSlot (effMma o) s

/-- MMAZ issued alone (R156). -/
def execMmaz (o : MOp) (s : State) : Host.Outcome State Fault Refusal := runSlot (effMmaz o) s

/-- MMAS issued alone (R156). -/
def execMmas (o : MOp) (s : State) : Host.Outcome State Fault Refusal := runSlot (effMmas o) s

/-- MMASZ issued alone (R156). -/
def execMmasz (o : MOp) (s : State) : Host.Outcome State Fault Refusal := runSlot (effMmasz o) s

/-- MHAD issued alone (R157). -/
def execMhad (o : MOp) (s : State) : Host.Outcome State Fault Refusal := runSlot (effMhad o) s

/-- MDRAIN issued alone (R159). -/
def execMdrain (o : MOp) (s : State) : Host.Outcome State Fault Refusal := runSlot (effMdrain o) s

/-- MDRAINV issued alone (R160). -/
def execMdrainv (o : MOp) (s : State) : Host.Outcome State Fault Refusal := runSlot (effMdrainv o) s

/-- MZERO issued alone (R161). -/
def execMzero (o : MOp) (s : State) : Host.Outcome State Fault Refusal := runSlot (effMzero o) s

/-- MLDACC issued alone (R161). -/
def execMldacc (o : MOp) (s : State) : Host.Outcome State Fault Refusal := runSlot (effMldacc o) s

/-- MSTACC issued alone (R161). -/
def execMstacc (o : MOp) (s : State) : Host.Outcome State Fault Refusal := runSlot (effMstacc o) s

/-- MSEED issued alone (R162). -/
def execMseed (o : MOp) (s : State) : Host.Outcome State Fault Refusal := runSlot (effMseed o) s

end Sys2Proof.Machine
end

