-- ==== Sys2Proof/Machine/Checkpoint.lean ====
section
/-! DEFINITION. Checkpoints at safe points and the state to which a restart or a resume returns a thread (07 R184; 11 R288
to R295). -/

namespace Sys2Proof.Machine

/-- The live vector registers by code, and a map by code as physical registers under a rotation (R58, R74). -/
def liveVecs (th : Thread) (l : Nat) : Map Vec := (bitsOf l 48).foldl (fun m k => mapSet 0 m k (rdV th k)) []
def vecsAt (m : Map Vec) (rrb : Nat) : Map Vec := m.foldl (fun a e => mapSet 0 a (physV rrb e.1) e.2) []

/-- The checkpoint of a thread at the safe point of record r and number spx (R290); the tiles follow once the matrix
commands numbered below seq are complete (R152). Bad parity of a tile is found when it is taken (R400). DEDUCED, log 16.
-/
def takeCkpt (th : Thread) (spx seq : Nat) (r : SafeRec) : Ckpt :=
  { pc := th.pc, spx := some spx, live := r
    sreg := th.sreg.filter fun e => maskHas r.lS e.1
    vreg := liveVecs th r.lV, preg := th.preg.filter fun e => maskHas r.lP e.1
    lc := if r.lLc then th.lc else 0, rrb := if r.lRrb then th.rrb else 0, seed := if r.lSeed then th.seed else 0
    phase := th.phase, cursor := th.cursor, fmt := th.fmt, tiles := th.tiles, tbad := th.tbad ||| badTiles th
    mUpto := if th.mq = [] then none else some seq, seq := seq, rot := th.rrb }

/-- The safe-point bundle is reached (R287, R290): its checkpoint replaces the last one, and a new region begins. -/
def reachSafe (th : Thread) (spx seq : Nat) (r : SafeRec) : Thread :=
  { th with ckpt := takeCkpt th spx seq r, popped := [], region := th.region + 1 }

/-- Registers, loop state and pc as a checkpoint holds them; the rest of the thread stands (R291). They are written
afresh, and of their parity only that of the mailbox registers stands (R400). POISON faults that wait are dropped: DEDUCED,
log 15. -/
def fromCkpt (th : Thread) : Thread :=
  let c := th.ckpt
  { th with
    pc := if c.live.stubAt = 0 then c.pc else c.live.stubAt, stub := c.live.stubAt != 0
    sreg := c.sreg, vreg := vecsAt c.vreg c.rrb, preg := c.preg, lc := c.lc, rrb := c.rrb, seed := c.seed
    phase := c.phase, cursor := c.cursor, fmt := c.fmt, latA := 0, latB := 0, latC := 0
    hist1 := false, hist2 := false, br := none, pend := [], deferred := [], trapNow := none, reached := false
    parity := th.parity.filter fun p => p / 64 == 3 }

/-- Entries that a thread popped since its checkpoint go back to the heads of their queues, and entries of operations
issued in the region are discarded (R291, R176). DEDUCED, log 9. -/
def putBack (th : Thread) (q : Nat) (l : List Reply) : List Reply :=
  ((th.popped.filterMap fun e => if e.1 = q then some e.2 else none) ++ l).filter fun r => r.region != th.region

/-- A restart at the last safe point (R291): mailboxes, FST and TST stand. -/
def restarted (th : Thread) : Thread :=
  { fromCkpt th with
    spcnt := 0, tiles := th.ckpt.tiles, tbad := th.ckpt.tbad, parks := [], wasParked := []
    e0 := putBack th 0 th.e0, e1 := putBack th 1 th.e1, e2 := putBack th 2 th.e2, e3 := putBack th 3 th.e3
    popped := [], exiting := false, stopAsked := false, broken := none }

/-- Tiles whose live bit is set at the last safe point (R153). -/
def liveTiles (th : Thread) (m : Map Half) : Map Half := m.filter fun e => maskHas th.ckpt.live.lAcc (e.1 / 1024)

/-- The context of a thread stopped at a safe point as it is saved (R153, R184, R295): its checkpoint keeps no more than
what lives there. -/
def savedSafe (th : Thread) : Thread :=
  let keep (k : Nat) : Bool := maskHas th.pres.toNat k || maskHas th.ckpt.live.lX k
  { fromCkpt th with
    xreg := th.xreg.filter fun e => keep e.1
    ckpt := { th.ckpt with tiles := liveTiles th th.ckpt.tiles, tbad := th.ckpt.tbad &&& th.ckpt.live.lAcc }
    tiles := liveTiles th th.tiles, tbad := (th.tbad ||| badTiles th) &&& th.ckpt.live.lAcc, parks := [], wasParked := []
    deferred := th.deferred }

end Sys2Proof.Machine
end

