-- ==== Sys2Proof/Machine/Order.lean ====
section
/-! DEFINITION. FENCE, FLUSHSIG, SIGSET and SIGW, and the flush token (08 R230 to R233; 09 R246, R247). -/

namespace Sys2Proof.Machine

/-- FENCE (R230): codes 5 to 7 act as partition scope. -/
def effFence (o : LAOp) : Eff := predEff o.p fun s =>
  let scope := min o.sz 4
  .ok (if fenceOpen s s.cur scope s.seq then addPark s s.cur (.fence scope s.seq) else s)

/-- A request of the current thread. -/
def threadOp (s : State) (kind : OpKind) (opc : Nat) : Op :=
  let t := s.cur
  let th := curTh s
  { kind := kind, opc := opc, vf := th.vf, sub := (getVf s th.vf).cursub, die := dieOf t, core := coreOf t
    thread := some t, lid := some th.lid, region := th.region, instar := instarOf s th.vf, c := s.mer }

/-- ALIGN of a signal word (R231 to R233). -/
def signalAlign (a : Nat) : Option Trap :=
  if a % 8 ≠ 0 then some { code := 0x04, unit := 4, addr := a } else none

/-- Requests of the current thread that write device memory and are not performed yet (R231). -/
def coveredOps (s : State) : List Nat :=
  (s.ops.filter fun e =>
    e.2.thread == some s.cur && e.2.lid == some (curTh s).lid
      && (e.2.kind == .copy && e.2.parts.any (·.dstDev) || e.2.kind == .sigset || e.2.kind == .flush && e.2.granted)).map
    (·.1)

/-- FLUSHSIG (R231): tokens from every die that homes a covered line; granted says that a signal is asked for. -/
def effFlushsig (o : LAOp) : Eff := predEff o.p fun s =>
  let th := curTh s
  let sig := o.fn % 2 == 1
  let a := (rdS th o.a).toNat
  if 8 ≤ th.e2.length then .ok (addPark s s.cur .replyFull)
  else
    match (if sig then signalAlign a else none) with
    | some e => .error e
    | none =>
      let x := addOp s
        { threadOp s .flush 0x31 with
          granted := sig, b := a, size := (rdS th o.b).toNat, after := coveredOps s, dies := th.homes }
      .ok (flushCheck (modCur x.2 fun y => { y with e2 := y.e2 ++ [{ op := x.1, region := y.region }] }) s.cur)

/-- FLUSH_TOKEN_ARRIVE (R231): the last token makes the e2 entry available, or lets the signal be written first. -/
def execFlushTokenArrive (s : State) : Host.Outcome State Fault Refusal :=
  let id := argN s 0
  let o := getOp s id
  let t := o.thread.getD 0
  if !hasOp s id then .next s
  else
    let s1 := modOp s id fun x => { x with n := x.n - 1, result := s.mer }
    if o.n ≠ 1 ∨ o.dies ≠ [] then .next s1
    else if o.granted then
      let s2 := modOp s1 id fun x =>
        { x with parts := wordWrite o.b (BitVec.ofNat 64 o.size), pages := wordPage o.b 1, p := s.mer + 1024 }
      .next (sched s2 s.mer .copyTranslate [id, 0])
    else .next (flushCheck (dropOp (fillReply s1 t 2 id s.mer s.mer) id) t)

/-- SIGSET (R232). -/
def effSigset (o : LAOp) : Eff := predEff o.p fun s =>
  let th := curTh s
  let a := (rdS th o.a).toNat
  match signalAlign a with
  | some e => .error e
  | none =>
    let x := addOp s
      { threadOp s .sigset 0x32 with
        b := a, p := s.mer + 1024, parts := wordWrite a (rdS th o.b), pages := wordPage a 1 }
    .ok (sched x.2 s.mer .copyTranslate [x.1, 0])

/-- SIGW (R233): the thread parks until the watch ends. -/
def effSigw (o : LAOp) : Eff := predEff o.p fun s =>
  let th := curTh s
  let a := (rdS th o.a).toNat
  match signalAlign a with
  | some e => .error e
  | none =>
    let x := addOp s
      { threadOp s .sigw 0x33 with
        b := a, size := (rdS th o.b).toNat, dest := .s o.d, p := s.mer + 1024, pages := wordPage a 0 }
    .ok (sched (addPark x.2 s.cur (.sigw x.1)) s.mer .copyTranslate [x.1, 0])

/-- FENCE issued alone (R230). -/
def execFence (o : LAOp) (s : State) : Host.Outcome State Fault Refusal := runSlot (effFence o) s

/-- FLUSHSIG issued alone (R231). -/
def execFlushsig (o : LAOp) (s : State) : Host.Outcome State Fault Refusal := runSlot (effFlushsig o) s

/-- SIGSET issued alone (R232). -/
def execSigset (o : LAOp) (s : State) : Host.Outcome State Fault Refusal := runSlot (effSigset o) s

/-- SIGW issued alone (R233). -/
def execSigw (o : LAOp) (s : State) : Host.Outcome State Fault Refusal := runSlot (effSigw o) s

end Sys2Proof.Machine
end

