-- ==== Sys2Proof/Machine/Gates.lean ====
section
/-! DEFINITION. Gates: the view, the four gate instructions, grants, counting, mirrors and waiters (16 R362 to R369). -/

namespace Sys2Proof.Machine

def getGate (s : State) (g : Nat) : Gate := mapGet {} s.gates g
def modGate (s : State) (g : Nat) (f : Gate → Gate) : State :=
  { s with gates := mapSet {} s.gates g (f (getGate s g)) }

/-- A gate whose counter may change: a GREAD that has not arrived at the gate unit will find the new value (R368). -/
def setGate (s : State) (g : Nat) (f : Gate → Gate) : State :=
  let s1 := modGate s g f
  { s1 with ops := s1.ops.map fun e =>
      if e.2.kind = .gread ∧ e.2.a = g ∧ s.mer ≤ e.2.p then (e.1, { e.2 with result := (getGate s1 g).counter }) else e }

/-- The gate view entry that a handle names (R363). -/
def viewOf (s : State) (vf h : Nat) : GView := mapGet {} s.gviews (vf * 256 + h % 256)

/-- A gate fault at issue or while parked (R367, R388). -/
def gateTrap (code h : Nat) (v : GView) : Trap :=
  { code := code, unit := 5, addr := h, d5 := v.gen % 2 ^ 32 + v.rights * 2 ^ 32 }

/-- The checks of a handle (R367): right 0 signal, 1 wait and poll, 2 read. -/
def checkHandle (s : State) (vf h right : Nat) : Option Trap :=
  let v := viewOf s vf h
  if 2 ^ 40 ≤ h ∨ !v.valid ∨ !maskHas v.rights right then some (gateTrap 0x0B h v)
  else if h / 2 ^ 8 % 2 ^ 32 ≠ v.gen then some (gateTrap 0x0C h v)
  else none

/-- A die's mirror of a gate's counter (R364). -/
def mirrorKey (die g : Nat) : Nat := die * 4096 + g
def mirror (s : State) (die g : Nat) : Nat := mapGet 0 s.mirrors (mirrorKey die g)

/-- Every request of the current thread that a release covers and that is still open, peer accesses among them (R247). -/
def releaseCover (s : State) : List Nat :=
  (s.ops.filter fun e =>
    e.2.thread == some s.cur && e.2.lid == some (curTh s).lid
      && (e.2.kind == .copy || e.2.kind == .mask || e.2.kind == .peer || e.2.kind == .sigset || (e.2.kind == .flush && e.2.granted))).map
    (·.1)

/-- A gate instruction whose handle passes (R367). -/
def withGate (o : XOp) (right : Nat) (k : State → Nat → Eff) : Eff := predEff o.p fun s =>
  let th := curTh s
  let h := (rdS th o.a).toNat
  match checkHandle s th.vf h right with
  | some e => .error e
  | none => k s (viewOf s th.vf h).index s

/-- A gate request of the current thread: a the gate, b the handle, recNo the bundle. -/
def gateOp (s : State) (kind : OpKind) (g h : Nat) : Op :=
  { threadOp s kind 0x10 with a := g, b := h, recNo := (curTh s).pc }

/-- GSIG (R368): the request leaves for the gate unit, for the gate as it is now. -/
def effGsig (o : XOp) : Eff := withGate o 0 fun _ g s =>
  let x := addOp s
    { gateOp s .gsig g (rdS (curTh s) o.a).toNat with after := releaseCover s, size := (getGate s g).gen }
  let d := draw (addPark x.2 s.cur (.gate x.1)) (curTh s).vf 1 1024
  .ok (sched d.2 (max (s.mer + d.1) (accessEnd s s.cur)) .gateSignalRequest [x.1])

/-- GWAIT (R368): a threshold that the mirror meets loses no turn. -/
def effGwait (o : XOp) : Eff := withGate o 1 fun _ g s =>
  let th := curTh s
  let b := (rdS th o.b).toNat
  if b ≤ mirror s (dieOf s.cur) g then .ok s
  else
    let x := addOp s { gateOp s .gwait g (rdS th o.a).toNat with size := b }
    .ok (addPark { x.2 with gwaiters := x.2.gwaiters ++ [x.1] } s.cur (.gate x.1))

/-- GPOLL (R368). -/
def effGpoll (o : XOp) : Eff := withGate o 1 fun _ g s =>
  let b := (rdS (curTh s) o.b).toNat
  .ok (pushS s o.d (if b ≤ mirror s (dieOf s.cur) g then 1 else 0) 1)

/-- GREAD (R368): it arrives at the gate unit in a free cycle p, and its entry of e3 is filled when the value returns. -/
def effGread (o : XOp) : Eff := predEff o.p fun s =>
  if 8 ≤ (curTh s).e3.length then .ok (addPark s s.cur .replyFull)
  else
    withGate o 2 (fun _ g s =>
      let vf := (curTh s).vf
      let a := draw s vf 1 1024
      let x := addOp a.2
        { gateOp s .gread g (rdS (curTh s) o.a).toNat with p := s.mer + a.1, result := (getGate s g).counter }
      let d := draw (modCur x.2 fun y => { y with e3 := y.e3 ++ [{ op := x.1, region := y.region }] }) vf a.1 2048
      .ok (sched d.2 (s.mer + d.1) .greadReturn [x.1])) s

/-- GREAD_RETURN (R368): the counter as the read found it enters e3. -/
def execGreadReturn (s : State) : Host.Outcome State Fault Refusal :=
  let id := argN s 0
  let o := getOp s id
  if hasOp s id then .next (delOp (fillReply s (o.thread.getD 0) 3 id o.result s.mer) id) else .next s

/-- A grant leaves for its thread, which is parked until it arrives (R365, R368): its arrival is a GATE_SIGNAL_REQUEST
with operand 1 set. DESIGN CHOICE, log 72. -/
def sendGrant (s : State) (id : Nat) : State :=
  let d := draw s (getOp s id).vf 0 1024
  sched d.2 (s.mer + d.1) .gateSignalRequest [id, 1]

/-- A request is granted: the grant leaves, and the count follows once the covered writes are performed (R365). -/
def grant (s : State) (id : Nat) : State :=
  let d := draw (sendGrant (modOp s id fun o => { o with granted := true }) id) (getOp s id).vf 1 1024
  sched d.2 (s.mer + d.1) .gateCounterIncrement [id]

/-- A waiting request takes a token (R365). -/
def takeToken (s : State) (g : Nat) : State :=
  let x := getGate s g
  match x.fifo with
  | id :: t =>
    if (x.rate = 0 ∨ 1 ≤ x.level) ∧ !x.quiesced then
      grant (modGate s g fun y => { y with fifo := t, level := if y.rate = 0 then y.level else y.level - 1 }) id
    else s
  | [] => s

/-- GATE_SIGNAL_REQUEST (R365): granted on arrival when a token is there and none waits, queued otherwise. With operand 1
set it is the grant, which arrives at its thread (R368). -/
def execGateSignalRequest (s : State) : Host.Outcome State Fault Refusal :=
  let id := argN s 0
  let g := (getOp s id).a
  if !hasOp s id then .next s
  else if argN s 1 = 1 then .next (deliver s id false)
  else
    let s1 := modGate s g fun y => { y with fifo := y.fifo ++ [id] }
    .next (if (getGate s g).fifo = [] then takeToken s1 g else s1)

/-- The token interval of a rate (R365). -/
def tokenEvery (rate : Nat) : Nat := 4000000 / rate

/-- GATE_TOKEN_ADD (R365): a token is added unless the bucket is full, and goes to the head of the FIFO at once. -/
def execGateTokenAdd (s : State) : Host.Outcome State Fault Refusal :=
  let g := argN s 0
  let x := getGate s g
  if !x.active ∨ x.gen ≠ argN s 1 ∨ x.epoch ≠ argN s 2 ∨ x.rate = 0 then .next s
  else
    let s1 := modGate s g fun y => { y with level := if y.level < y.burst then y.level + 1 else y.level }
    .next (sched (takeToken s1 g) (s.mer + tokenEvery x.rate) .gateTokenAdd [g, x.gen, x.epoch])

/-- Dies that hold a view of a gate (R364): the dies of every partition with a valid entry for it. -/
def viewDies (s : State) (g : Nat) : List Nat :=
  (List.range 4).filter fun d => s.gviews.any fun e => e.2.valid && e.2.index == g && maskHas (diesOf s (e.1 / 256)) d

/-- GATE_COUNTER_INCREMENT (R364, R365): once every covered write is performed the counter grows, and the new value goes
to every die that holds a view; a gate that has been freed meanwhile counts nothing. DESIGN CHOICE, log 28. -/
def execGateCounterIncrement (s : State) : Host.Outcome State Fault Refusal :=
  let id := argN s 0
  let o := getOp s id
  if !hasOp s id ∨ o.complete then .next s
  else if o.after.any (hasOp s) then
    let d := draw s o.vf 1 1024
    .next (sched d.2 (s.mer + d.1) .gateCounterIncrement [id])
  else if !(getGate s o.a).active ∨ (getGate s o.a).gen ≠ o.size then
    .next (if o.watching then dropOp s id else modOp s id fun x => { x with complete := true })
  else
    let s1 := setGate s o.a fun y => { y with counter := min (y.counter + 1) (2 ^ 64 - 1) }
    let v := (getGate s1 o.a).counter
    let s2 := (viewDies s1 o.a).foldl (fun a die =>
      let d := draw a o.vf 1 2048
      sched d.2 (s.mer + d.1) .gateMirrorUpdate [die, o.a, v, (getGate s1 o.a).gen]) s1
    .next (if o.watching then dropOp s2 id else modOp s2 id fun x => { x with complete := true })

/-- Release the waiters of a die whose threshold a mirror meets, in FIFO order (R368). -/
def releaseWaiters (s : State) (die g : Nat) : State :=
  let m := mirror s die g
  s.gwaiters.foldl (fun a id =>
    let o := getOp a id
    if o.die = die ∧ o.a = g ∧ o.size ≤ m then
      deliver (modOp { a with gwaiters := a.gwaiters.filter (· != id) } id fun x => { x with granted := true }) id false
    else a) s

/-- A value reaches the mirror of a gate on a die, which takes the larger (R364), and the waiters that it releases
(R368). -/
def raiseMirror (s : State) (die g v : Nat) : State :=
  releaseWaiters { s with mirrors := mapSet 0 s.mirrors (mirrorKey die g) (max (mirror s die g) v) } die g

/-- GATE_MIRROR_UPDATE (R364, R368): a mirror never decreases. -/
def execGateMirrorUpdate (s : State) : Host.Outcome State Fault Refusal :=
  let die := argN s 0
  let g := argN s 1
  if (getGate s g).gen ≠ argN s 3 then .next s
  else .next (raiseMirror s die g (argN s 2))

/-- Freeze the thread of a parked gate request with a gate fault (R369): the record names the gate bundle, and the
thread would issue the bundle after it next. A request whose grant is on its way is still counted. A thread that is
frozen already does so in place of its park, when it is continued. DEDUCED, log 36. -/
def freezeOnGate (s : State) (id code : Nat) : State :=
  let o := getOp s id
  let t := o.thread.getD 0
  let th := getTh s t
  let s1 := if o.granted && !o.complete then modOp s id fun x => { x with watching := true }
    else delOp { s with gwaiters := s.gwaiters.filter (· != id) } id
  let e := gateTrap code o.b (viewOf s o.vf o.b)
  let r := recBranch th
    { threadRec s t code with unit := e.unit, pc := o.recNo, nextpc := th.pc, addr := e.addr, d5 := e.d5 }
  let other (p : Park) : Bool := p != .gate id
  let s2 := modTh s1 t fun x => { x with parks := x.parks.filter other, wasParked := x.wasParked.filter other }
  if th.st = .frozen then modTh s2 t fun x => { x with broken := some r }
  else sendRec (freezeTh s2 t r) (threadCol t) r

/-- A thread is parked on a gate request: on a wait until it is met, on a signal until its grant arrives (R368). -/
def gateParked (s : State) (id : Nat) (o : Op) : Bool :=
  ((o.kind == .gsig && !o.watching) || (o.kind == .gwait && !o.granted))
    && (match o.thread with
        | some t => some (getTh s t).lid == o.lid && holdsPark (getTh s t) (.gate id)
        | none => false)

/-- Requests on a gate that f picks, and on which threads are parked, freeze their threads and leave its FIFO (R369). -/
def breakGate (s : State) (g code : Nat) (f : Op → Bool) : State :=
  let ids := (s.ops.filter fun e => gateParked s e.1 e.2 && e.2.a == g && f e.2).map (·.1)
  ids.foldl (fun a id => freezeOnGate a id code)
    (modGate s g fun y => { y with fifo := y.fifo.filter fun i => !ids.contains i })

/-- GSIG issued alone (R368). -/
def execGsig (o : XOp) (s : State) : Host.Outcome State Fault Refusal := runSlot (effGsig o) s

/-- GWAIT issued alone (R368). -/
def execGwait (o : XOp) (s : State) : Host.Outcome State Fault Refusal := runSlot (effGwait o) s

/-- GPOLL issued alone (R368). -/
def execGpoll (o : XOp) (s : State) : Host.Outcome State Fault Refusal := runSlot (effGpoll o) s

/-- GREAD issued alone (R368). -/
def execGread (o : XOp) (s : State) : Host.Outcome State Fault Refusal := runSlot (effGread o) s

end Sys2Proof.Machine
end

