-- ==== Sys2Proof/Machine/Launch.lean ====
section
/-! DEFINITION. Launch records, population, the start of the gang and the end of a launch (02 R74, R75; 11 R273 to R276; 12
R314 to R321). -/

namespace Sys2Proof.Machine

/-- Bits hi to lo of a record. -/
def bits (x hi lo : Nat) : Nat := x / 2 ^ lo % 2 ^ (hi - lo + 1)

/-- User cores of a die in ascending order: the one of ordinal u stands at position u (R21). -/
def userCores (s : State) (die : Nat) : List Nat := (List.range 144).filter fun c => !isFirmware s die c

/-- A safe-point record (R74). -/
def safeRecOf (x : Nat) : SafeRec :=
  { stubAt := bits x 156 144, resumeAt := bits x 140 128, lSeed := bits x 124 124 == 1, lRrb := bits x 123 123 == 1
    lLc := bits x 122 122 == 1, lAcc := bits x 121 120, lP := bits x 119 113 * 2, lV := bits x 111 64
    lX := bits x 63 32, lS := bits x 31 1 * 2
    rsv := bits x 255 157 + bits x 143 141 + bits x 127 125 + bits x 112 112 + bits x 0 0 }

/-- Bundle i of a kernel, and its safe-point mark (R36, R74). -/
def kernBundle (k i : Nat) : Nat := k / 2 ^ (256 * i) % 2 ^ 256
def bundleSp (b : Nat) : Option Nat := if bits b 254 254 = 1 then some (bits b 253 244) else none

/-- The checks of a safe-point table of a kernel of n bundles (R75). -/
def sptabBad (kern n : Nat) (tab : List SafeRec) : Bool :=
  ((List.range tab.length).any fun k =>
    let r := tab.getD k {}
    r.rsv != 0 || n ≤ r.resumeAt || bundleSp (kernBundle kern r.resumeAt) != some k || (r.stubAt != 0 && n ≤ r.stubAt))
    || (List.range n).any fun i =>
      match bundleSp (kernBundle kern i) with
      | some k => tab.length ≤ k
      | none => false

/-- Nest fields of a launch record (R314). -/
def nestE (x l : Nat) : Nat := bits x (543 + 64 * l) (512 + 64 * l)
def nestT (x l : Nat) : Nat := bits x (575 + 64 * l) (544 + 64 * l)
def permAt (x j : Nat) : Nat := bits x (224 + 3 * j) (222 + 3 * j)

/-- A launch record that fails R315, but for its safe-point table, on a die of a partition. -/
def recordBad (s : State) (vf die x : Nat) : Bool :=
  let nlev := bits x 221 219
  let k := slotCount s vf
  let spmax := bits x 287 263
  bits x 511 505 != 0 || bits x 447 441 != 0 || bits x 345 320 != 0 || bits x 262 256 != 0 || bits x 212 0 != 0
    || bits x 372 359 == 0 || 8192 < bits x 372 359 || bits x 372 359 ≤ bits x 358 346 || 1024 < bits x 383 373
    || (spmax != 0 && (spmax < 64 || 2 ^ 24 < spmax))
    || bits x 1023 896 == 0 || (bitsOf (bits x 1023 896) 128).any (fun u => (userCores s die).length ≤ u)
    || bits x 218 215 == 0 || k < bits x 218 215 || k * 1024 < bits x 372 359
    || bits x 240 240 != 0 || (bits x 255 240 &&& (getVf s vf).layout.syncd) != bits x 255 240
    || bits x 504 448 % 32 != 0 || bits x 440 384 % 32 != 0
    || 6 < nlev
    || ((List.range 6).any fun l =>
      if l < nlev then nestE x l == 0 || nestT x l == 0 || 1024 < (nestE x l + nestT x l - 1) / nestT x l
      else nestE x l != 0 || nestT x l != 0)
    || ((List.range nlev).any fun l => !((List.range nlev).any fun j => permAt x j == l))
    || (List.range 6).any fun j => nlev ≤ j && permAt x j != 0

/-- The launch that a record asks for (R314, R275). -/
def launchOf (s : State) (vf die x : Nat) (kern : Nat) (tab : List SafeRec) (gn : Nat × Nat) : Launch :=
  let nlev := bits x 221 219
  { vf := vf, die := die, klen := bits x 372 359, entry := bits x 358 346, sptab := tab
    spmax := if bits x 287 263 = 0 then 4096 else bits x 287 263, syncmask := bits x 255 240
    ntile := (List.range nlev).map fun l => (nestE x l + nestT x l - 1) / nestT x l
    perm := (List.range nlev).map (permAt x), quota := bits x 218 215
    cores := (bitsOf (bits x 1023 896) 128).map fun u => (userCores s die).getD u 0
    race := bits x 214 214 == 1, wload := bits x 213 213 == 1, seed := bits x 319 288
    args := (List.range 8).map fun j => BitVec.ofNat 64 (bits x (1087 + 64 * j) (1024 + 64 * j)), kern := kern
    graph := some gn }

/-- A read of a command core that did not deliver (R306, R315): held, or the end of the node or graph. -/
def nodeReadFail (s : State) (g n : Nat) (r : DevRead) (ev : Instr) : State :=
  match r with
  | .xlate page => holdEvent s (nodeOp s g n .cpl) page ev [g, n]
  | .perm c dva => eventPerm s (nodeOp s g n .cpl) c dva
  | .integrity c pa key => eventIntegrity s (nodeOp s g n .cpl) c pa key
  | .ok _ _ => s

/-- LAUNCH_NODE: the record, the kernel and the safe-point table are read and checked (R315); a record that fails a check
and asks for a declined feature is malformed. DESIGN CHOICE, log 63. -/
def execLaunchNode (s : State) : Host.Outcome State Fault Refusal :=
  let g := argN s 0
  let n := argN s 1
  let x := getGraph s g
  let nd := nodeOf x n
  let a := bodyBits nd 184 128
  if nd.st ≠ .ready ∨ x.failed ∨ nd.checked then .next s
  else if nd.body ≠ a ∨ a % 64 ≠ 0 then .next (nodeFail s g n 1 0)
  else
    match devRead s x.vf x.sub a 192 with
    | .ok r bad =>
      let s := sawRange s x.vf x.sub a 192
      if bad then .next (nodeFail s g n 9 0)
      else if recordBad s x.vf nd.die r then .next (nodeFail s g n 1 0)
      else if bits r 214 214 = 1 ∧ !featOk s x.vf 2 then .next (nodeFail s g n 2 0)
      else
        match devRead s x.vf x.sub (bits r 504 448) (32 * bits r 372 359),
              devRead s x.vf x.sub (bits r 440 384) (32 * bits r 383 373) with
        | .ok kern kb, .ok tb tbad =>
          let s := sawRange (sawRange s x.vf x.sub (bits r 504 448) (32 * bits r 372 359)) x.vf x.sub (bits r 440 384)
            (32 * bits r 383 373)
          let tab := (List.range (bits r 383 373)).map fun i => safeRecOf (kernBundle tb i)
          if kb ∨ tbad then .next (nodeFail s g n 9 0)
          else if sptabBad kern (bits r 372 359) tab then .next (nodeFail s g n 1 0)
          else
            let f := fresh s
            let s1 := { f.2 with
              launches := mapSet {} f.2.launches f.1 (launchOf s x.vf nd.die r kern tab (g, n)) }
            let s2 := modNode s1 g n fun y => { y with checked := true, lid := some f.1 }
            .next (if x.det then s2 else sched s2 s.mer .nodeStart [g, n])
        | .ok _ _, e =>
          .next (nodeReadFail (sawRange (sawRange s x.vf x.sub (bits r 504 448) (32 * bits r 372 359)) x.vf x.sub (bits r 440 384)
            (32 * bits r 383 373)) g n e .launchNode)
        | e, _ => .next (nodeReadFail (sawRange s x.vf x.sub (bits r 504 448) (32 * bits r 372 359)) g n e .launchNode)
    | e => .next (nodeReadFail (sawRange s x.vf x.sub a 192) g n e .launchNode)

/-- Launches of a partition that run on a die. -/
def runningOn (s : State) (vf die : Nat) : List Launch :=
  (s.launches.filter fun e => e.2.vf == vf && e.2.die == die && e.2.running && !e.2.done).map (·.2)

/-- EMPTY contexts of a partition on a core, in ascending slot order (R316). -/
def emptySlots (s : State) (vf die core : Nat) : List Nat :=
  (bitsOf (slotsOf s vf) 8).filter fun k => (getTh s (slotid die core k)).st == .empty

/-- A COPY node to the weight store (R308). -/
def toWeights (nd : Node) : Bool := nd.ty == 2 && bodyBits nd 288 288 == 1

/-- A node that loads the weight store of its die, or a deterministic one that will on its cycle (R193, R319): checked says
that it had what it needs in its decision cycle. -/
def loadsWeights (failed : Bool) (nd : Node) : Bool :=
  toWeights nd && (nd.st == .running || (!failed && nd.st == .ready && nd.checked))

/-- The resources of a launch are free (R317, R193): a sync domain belongs to one running launch of its die, of whichever
partition (R278). DEDUCED, log 24. -/
def launchFree (s : State) (x : Launch) : Bool :=
  let run := runningOn s x.vf x.die
  let wst := s.graphs.any fun e => e.2.vf == x.vf && e.2.nodes.any fun nd =>
    loadsWeights e.2.failed nd && nd.die == x.die
  x.cores.all (fun c =>
    decide (x.quota ≤ (emptySlots s x.vf x.die c).length)
      && decide (((run.filter fun y => y.cores.contains c).foldl (fun m y => m + y.klen) x.klen)
        ≤ slotCount s x.vf * 1024))
    && run.all (fun y => !y.wload && !x.wload) && !wst
    && s.launches.all fun e =>
      !(e.2.die == x.die && e.2.running && !e.2.done) || (e.2.syncmask &&& x.syncmask) == 0

/-- The contexts that a launch takes (R316): cores in ascending order, on each its lowest EMPTY slots. -/
def launchSlots (s : State) (x : Launch) : List Nat :=
  x.cores.flatMap fun c => ((emptySlots s x.vf x.die c).take x.quota).map fun k => slotid x.die c k

/-- A launch takes its resources and its LAUNCH id (R316); its gang starts at cycle g. -/
def beginLaunch (s : State) (l g : Nat) : State :=
  let x := getLaunch s l
  let ids := (getVf s x.vf).nextLaunch
  let ts := launchSlots s x
  let s1 := modVf s x.vf fun v => { v with nextLaunch := if (ids + 1) % 2 ^ 32 = 0 then 1 else (ids + 1) % 2 ^ 32 }
  let s2 := modLaunch s1 l fun y => { y with id := ids, members := ts, running := true, start := g }
  sched (ts.foldl (fun a t => modTh a t fun th => { th with st := .populated, vf := x.vf, lid := l }) s2) s.mer
    .launchPopulate [l]

/-- A context at population (R273, R138, R140, R182, R276): it is also the thread's first checkpoint. Commands that a killed
launch has left in the context's matrix unit do not delay its own (R145). DESIGN CHOICE, log 70. -/
def populated (x : Launch) (l i nth : Nat) : Thread :=
  let tiles := x.ntile.foldl (· * ·) 1
  let n := if x.ntile = [] then 0 else tiles
  let regs := ((x.args.foldl (fun (a : Map Word × Nat) v => (mapSet 0 a.1 a.2 v, a.2 + 1)) ([], 4)).1)
  let sreg := mapSet 0 (mapSet 0 (mapSet 0 (mapSet 0 regs 1 (BitVec.ofNat 64 i)) 2 (BitVec.ofNat 64 nth)) 3
    (BitVec.ofNat 64 x.quota)) 31 (BitVec.ofNat 64 x.klen)
  let fmt : FmtCtx := { mseedv := x.seed }
  let c0 := i * n / nth
  { st := .populated, vf := x.vf, lid := l, pc := x.entry, sreg := sreg, seed := BitVec.ofNat 32 x.seed
    lidx := BitVec.ofNat 32 i, launch := BitVec.ofNat 32 x.id, cursor := c0, sliceEnd := (i + 1) * n / nth, fmt := fmt
    ckpt := { pc := x.entry, sreg := sreg, seed := BitVec.ofNat 32 x.seed, cursor := c0, fmt := fmt } }

/-- The kernel enters the instruction store of a core, and a race-checked launch clears the shadows of its cores (R316,
R239). -/
def fillCore (l : Nat) (s : State) (core : Nat) : State :=
  let x := getLaunch s l
  let s1 := { s with mem := wrMem s.mem (istoreBase l x.die core) (32 * x.klen) x.kern }
  let lo := scratchBase x.die core / 8
  let banks := bitsOf (slotsOf s x.vf) 8
  if x.race then
    { s1 with shadows := s1.shadows.filter fun e =>
        !(decide (lo ≤ e.1) && decide (e.1 < lo + 32768) && banks.contains ((e.1 - lo) / 4096)) }
  else s1

/-- A member's context is populated; one that an overflowed record has frozen meanwhile stays frozen (R391). -/
def fillMember (x : Launch) (l i : Nat) (th : Thread) : Thread :=
  if th.lid ≠ l then th
  else
    match th.st with
    | .populated => populated x l i x.members.length
    | .stopped | .saved =>
      if th.unborn then { populated x l i x.members.length with st := th.st, inPlace := true, unborn := true } else th
    | .frozen =>
      { populated x l i x.members.length with
        st := .frozen, fault := th.fault, frec := { th.frec with pc := x.entry, nextpc := x.entry } }
    | _ => th

/-- LAUNCH_POPULATE (R273, R316). A start cycle that a pre-emption has cancelled is announced anew at resume (R294). -/
def execLaunchPopulate (s : State) : Host.Outcome State Fault Refusal :=
  let l := argN s 0
  let x := getLaunch s l
  if !x.running ∨ x.killed.isSome then .next s
  else
    let s1 := (List.range x.members.length).foldl (fun a i => modTh a (x.members.getD i 0) (fillMember x l i)) s
    let s2 := x.cores.foldl (fillCore l) s1
    .next (if x.start = 0 then s2 else sched s2 x.start .gangStart [l, x.start])

/-- The gang of a launch may start: its partition is not being stopped or saved (R294). -/
def gangMay (s : State) (x : Launch) : Bool := (getVf s x.vf).pre == .none

/-- GANG_START (R274): a thread in slot k issues first in the first cycle c of at least G with c mod 8 = k. The start
cycle of a gang whose partition is being stopped is cancelled (R294). -/
def execGangStart (s : State) : Host.Outcome State Fault Refusal :=
  let l := argN s 0
  let x := getLaunch s l
  if x.killed.isSome ∨ x.start ≠ argN s 1 then .next s
  else if !gangMay s x then .next (modLaunch s l fun y => { y with start := 0 })
  else
    .next (x.members.foldl (fun a t =>
      modTh a t fun th =>
        if th.st = .populated ∧ th.lid = l then
          { th with st := .running, nextTurn := slotCycle s.mer (slotOf t), reached := false }
        else th) s)

/-- The context of a completed launch becomes EMPTY (R321); its mailbox registers and inbox stay (R234). -/
def emptied (th : Thread) : Thread :=
  { xreg := th.xreg, pres := th.pres, inbox := th.inbox, drainDue := th.drainDue, nextTurn := 0 }

/-- The kernel leaves the instruction store of a core. -/
def dropCore (l : Nat) (s : State) (core : Nat) : State :=
  let x := getLaunch s l
  let lo := istoreBase l x.die core
  { s with mem := s.mem.filter fun c => !(decide (lo ≤ c.1) && decide (c.1 < lo + 2 ^ 18)) }

/-- LAUNCH_COMPLETE (R321): contexts become EMPTY, domains and instruction share are free, and the node is done, or fails
as the launch was killed or orphaned. -/
def execLaunchComplete (s : State) : Host.Outcome State Fault Refusal :=
  let l := argN s 0
  let x := getLaunch s l
  if !launchDone s l then .next s
  else
    let s1 := (x.members.filter fun t => (getTh s t).lid == l).foldl (fun a t => modTh a t emptied) s
    let s2 := { x.cores.foldl (dropCore l) s1 with launches := mapDel s1.launches l }
    let s3 :=
      match x.graph with
      | none => s2
      | some (g, n) =>
        match x.killed with
        | some code => if x.aborted then nodeFail s2 g n 10 0 else nodeFail s2 g n 6 code
        | none => if x.orphan then nodeFail s2 g n 7 0x25 else nodeDone s2 g n
    .next (kickAll s3)

end Sys2Proof.Machine
end

