-- ==== Sys2Proof/Machine/Copies.lean ====
section
/-! DEFINITION. The copy instructions at issue: their checks, words, pages and promise (08 R220 to R227; 10 R258). -/

namespace Sys2Proof.Machine

/-- A row of a copy: local address or weight offset, device address, bytes. -/
structure Row where
  loc : Int
  dva : Nat
  len : Nat
deriving DecidableEq, Repr

/-- What a copy asks for, before its promise (R220, R221): loc says that it has a local side, rd and wr which side of it
the device is, weight that the other side is the weight store. -/
structure CopyReq where
  opc : Nat
  rows : List Row
  total : Nat
  ty : Nat := 0
  fill : Option Word := none
  devRead : Bool := false
  loc : Bool := true
  weight : Bool := false
deriving DecidableEq, Repr

/-- Opcodes of copies into a local scratchpad, and out of one (R220). -/
def copyIn (opc : Nat) : Bool := opc == 0x20 || opc == 0x22

/-- Rows of a 2-D descriptor (R221); a device address is taken modulo 2^64. DESIGN CHOICE, log 32. -/
def rowsOf (a : Int) (b : Nat) (desc : Nat) : List Row :=
  let ds := signedOf 64 (desc / 2 ^ 64 % 2 ^ 64)
  let len := desc / 2 ^ 24 % 2 ^ 24
  (List.range (desc / 2 ^ 48 % 2 ^ 16)).map fun (i : Nat) =>
    { loc := a + i * (desc % 2 ^ 24 : Nat), dva := (((b : Int) + i * ds) % 2 ^ 64).toNat, len := len }

/-- The first row with a byte outside [0, size). -/
def rowOutside (size : Nat) (l : List Row) : Option Row :=
  l.find? fun r => r.len != 0 && (decide (r.loc < 0) || decide ((size : Int) < r.loc + r.len))

/-- Local words of rows, by local address. -/
def rowWords (l : List Row) : List Nat :=
  l.flatMap fun r => (List.range (r.len / 8)).map fun i => r.loc.toNat + 8 * i

/-- The race check of a copy's local words at issue, as if the thread accessed them (R240); wr says that they are
written. -/
def raceRows (s : State) (wr : Bool) (l : List Nat) : Option Trap :=
  let t := s.cur
  let w (a : Nat) : Nat := localWord s (curTh s).vf (dieOf t) (coreOf t) (a / 8)
  if raceOn s t then
    (l.find? fun a => raceBad s t (w a) || (wr && sourceBusy s (curTh s).vf (w a))).map fun a =>
      { code := 0x05, unit := 4, addr := a, d5 := shadowOf s (w a) }
  else none

/-- ALIGN of a list of operands, the first that is no multiple of 8 (R222). -/
def alignFirst (l : List Nat) : Option Trap :=
  (l.find? fun a => a % 8 != 0).map fun a => { code := 0x04, unit := 4, addr := a }

/-- ALIGN of a descriptor's steps, which names the descriptor (R222). DEDUCED, log 32. -/
def alignDesc (c desc : Nat) : Option Trap :=
  if desc % 8 ≠ 0 ∨ desc / 2 ^ 24 % 8 ≠ 0 ∨ desc / 2 ^ 64 % 8 ≠ 0 then some { code := 0x04, unit := 4, addr := c }
  else none

/-- LOCAL_RANGE of a copy (R222): its length, and its local or weight bytes. -/
def rangeRows (s : State) (q : CopyReq) (bad : Bool) (a : Nat) : Option Trap :=
  let vf := (curTh s).vf
  let size := if q.weight then weightSize s vf (dieOf s.cur) else localSize s vf
  if bad ∨ 2 ^ 24 < q.total then some { code := 0x03, unit := 4, addr := a }
  else if q.loc then
    (rowOutside size q.rows).map fun r => { code := 0x03, unit := 4, addr := (BitVec.ofInt 64 r.loc).toNat }
  else none

/-- The words that a copy moves (R220, R224). -/
def copyParts (s : State) (q : CopyReq) : List Part :=
  let t := s.cur
  let vf := (curTh s).vf
  q.rows.flatMap fun r => (List.range (r.len / 8)).map fun i =>
    let dva := (r.dva + 8 * i) % 2 ^ 64
    let a := r.loc.toNat + 8 * i
    let here := if q.weight then weightAddr s vf (dieOf t) a else localAddr s vf (dieOf t) (coreOf t) a
    match q.fill with
    | some v => { dst := dva, dstDev := true, data := v, got := true }
    | none =>
      if q.devRead then { src := dva, dst := here, srcDev := true } else { src := here, dst := dva, dstDev := true }

/-- The distinct pages of a list of device addresses, in order. -/
def distinctPages (l : List Nat) : List Nat := (l.map fun a => a / 4096 * 4096).eraseDups

/-- The reserved copy rate of a partition (R225, R339). -/
def copyRate (s : State) (vf : Nat) : Nat :=
  if vf = 0 then 8
  else if (getVf s vf).layout.crate = 0 then slotCount s vf else (getVf s vf).layout.crate

/-- Quotient rounded up. -/
def ceilDiv (a b : Nat) : Nat := (a + b - 1) / b

/-- Copies to another package without a link rate have a free term in their promise, since R258 divides by the rate. -/
def linkTerm (s : State) (vf sub : Nat) (pages : List Nat) : Nat × State :=
  if linkRate s vf = 0 ∧ pages.any (remoteNow s vf sub) then draw s vf 0 (2 ^ 32) else (0, s)

/-- What a channel free at F with rate r grants a request of b bytes (R225, R258): its start, the channel's new free
cycle, and the promise; extra is the free term of linkTerm. -/
def promise (s : State) (vf sub f r b scP extra : Nat) (pages : List Nat) (words : List Nat) (cpw : Bool) : Nat × Nat × Nat :=
  let t0 := max (max (s.mer + 16) f) (if pages.any (scNow s vf sub) then scP else 0)
  let f' := t0 + ceilDiv b r
  let far := pages.filter (remoteNow s vf sub)
  let bfar := 8 * (words.filter fun a => remoteNow s vf sub a).length
  let rterm := if far = [] then 0 else 2048 + 128 * far.length + ceilDiv bfar (linkRate s vf) + extra
  (t0, f', f' + 256 + 64 * pages.length + (if cpw then 32 * ceilDiv b 8192 else 0) + rterm)

/-- Draw the cycle of every local source read and enter it (R227). -/
def enterReads (s : State) (id p : Nat) (parts : List Part) : State :=
  (List.range parts.length).foldl (fun a i =>
    let x := parts.getD i {}
    if x.srcDev ∨ x.got then a
    else
      let d := drawPort a (getOp a id).vf (x.src / 8) s.mer (p - 1)
      modOp (addWact d.2 { at_ := d.1, word := x.src / 8, kind := .opRead id i }) id fun o =>
        setPart o i fun y => { y with at_ := d.1 }) s

/-- A copy that passed its checks is issued (R225 to R227): its promise, its e0 entry, its local accesses, its
translations and its completion. Every copy leaves an entry in e0, CPOUT included, which the walk of R334 leaves out.
DEDUCED, log 71. -/
def issueCopy (s0 : State) (q : CopyReq) : State :=
  let t := s0.cur
  let th := curTh s0
  let vf := th.vf
  let ck := coreKey (dieOf t) (coreOf t)
  let sub := (getVf s0 vf).cursub
  let parts := copyParts s0 q
  let dvas := if q.devRead then parts.map (·.src) else parts.map (·.dst)
  let pages := distinctPages dvas
  let e := linkTerm s0 vf sub pages
  let s := e.2
  let pr := promise s vf sub (mapGet 0 (getVf s vf).chan ck) (copyRate s vf) q.total th.scPrev e.1 pages dvas
    (q.opc == 0x24)
  let sc := pages.any (scNow s vf sub)
  let acc := if q.devRead then 0 else if q.opc = 0x25 then 2 else 1
  let x := addOp s
    { kind := .copy, opc := q.opc, vf := vf, sub := sub, die := dieOf t, core := coreOf t, thread := some t
      lid := some th.lid, region := th.region, instar := instarOf s vf, c := s.mer, t0 := pr.1, p := pr.2.2
      a := ((q.rows.map (·.loc.toNat)).headD 0), b := dvas.headD 0, size := q.total, ty := q.ty, sc := sc, parts := parts
      pages := pages.map fun g => { page := g, acc := acc } }
  let s1 := modVf x.2 vf fun v => { v with chan := mapSet 0 v.chan ck pr.2.1 }
  let s2 := modCur s1 fun y =>
    { y with
      e0 := y.e0 ++ [{ val := pr.2.2, avail := some (s.mer + 16), op := x.1, region := y.region }]
      scPrev := if sc then pr.2.2 else y.scPrev }
  let s3 := sched (sched s2 (s.mer + 16) .replyEntryAvailable [t, 0]) pr.2.2 .copyComplete [x.1]
  let s4 := if q.devRead then enterWrites s3 x.1 pr.1 (pr.2.2 - 1)
    else if q.loc then enterReads s3 x.1 pr.2.2 parts else s3
  if pages = [] then s4
  else
    let d := drawIn s4 vf s.mer pr.1
    sched d.2 d.1 .copyTranslate [x.1, 0]

/-- Parks before a copy: a full e0 queue, or 32 copies in flight, which lasts until the oldest completes (R53, R225). -/
def copyParks (s : State) (t : Nat) : List Park :=
  (if 32 ≤ (getTh s t).e0.length then [.replyFull] else [])
    ++ (if 32 ≤ copiesOf s t ∨ (getTh s t).parks.contains .copyLimit then [.copyLimit] else [])

/-- The first trap of a list. -/
def firstTrap (l : List (Option Trap)) : Option Trap := (l.find? Option.isSome).join

/-- A copy at issue (R222): parks, checks in the order of R210, and the request. -/
def copyEff (q : CopyReq) (checks : List (Option Trap)) : Eff := fun s =>
  match copyParks s s.cur with
  | p :: ps => .ok ((p :: ps).foldl (fun a y => addPark a s.cur y) s)
  | [] =>
    match firstTrap (checks ++ [if q.loc && !q.weight then raceRows s q.devRead (rowWords q.rows) else none]) with
    | some e => .error e
    | none =>
      let s1 := if q.loc && !q.weight && q.devRead then
          (rowWords q.rows).foldl (fun a y =>
            markShadow a s.cur (localWord s (curTh s).vf (dieOf s.cur) (coreOf s.cur) (y / 8)) false) s
        else s
      .ok (issueCopy s1 q)

/-- A 1-D copy with the operands of R220. -/
def copy1 (opc : Nat) (o : LAOp) : Eff := predEff o.p fun s =>
  let th := curTh s
  let a := (rdS th o.a).toNat
  let b := (rdS th o.b).toNat
  let n := (rdS th o.c).toNat
  let q : CopyReq :=
    { opc := opc, rows := if n ≤ 2 ^ 24 then [{ loc := (a : Int), dva := b, len := n }] else [], total := n
      ty := if opc = 0x25 then o.fn / 64 % 16 * 4 + o.fn % 4 else 0
      fill := if opc = 0x26 then some (rdS th o.a) else none
      devRead := copyIn opc || opc == 0x24, loc := opc != 0x26, weight := opc == 0x24 }
  copyEff q
    [if opc = 0x24 ∧ !(getLaunch s th.lid).wload then some { code := 0x11, unit := 4, addr := a } else none,
     alignFirst (if opc = 0x26 then [b, n] else [a, b, n]), rangeRows s q false a] s

/-- A 2-D copy: the descriptor is read through the thread port (R221). -/
def copy2 (opc : Nat) (o : LAOp) : Eff := predEff o.p fun s =>
  let th := curTh s
  let a := (rdS th o.a).toNat
  let b := (rdS th o.b).toNat
  let c := (rdS th o.c).toNat
  let x := localAcc s 16 true false
  let size := localSize s th.vf
  let early := if c % 16 ≠ 0 then some { code := 0x04, unit := 4, addr := c }
    else if size < c + 16 then some { code := 0x03, unit := 4, addr := c } else none
  let desc := curLocal s c 16
  let nrow := desc / 2 ^ 48 % 2 ^ 16
  let len := desc / 2 ^ 24 % 2 ^ 24
  let q : CopyReq :=
    { opc := opc, rows := if nrow * len ≤ 2 ^ 24 then rowsOf a b desc else [], total := nrow * len
      devRead := copyIn opc }
  match firstTrap [alignFirst [a, b], early] with
  | some e => .error e
  | none =>
    copyEff q
      [alignDesc c desc, rangeRows s q (nrow == 0 || len == 0) c,
       checkAcc s s.cur x size [(0, (c : Int))]] (noteAcc s s.cur x c)

def effCpin (o : LAOp) : Eff := copy1 0x20 o
def effCpout (o : LAOp) : Eff := copy1 0x21 o
def effCpin2 (o : LAOp) : Eff := copy2 0x22 o
def effCpout2 (o : LAOp) : Eff := copy2 0x23 o
def effCpw (o : LAOp) : Eff := copy1 0x24 o
def effCpred (o : LAOp) : Eff := copy1 0x25 o
def effCpfill (o : LAOp) : Eff := copy1 0x26 o

/-- CPIN issued alone (R220). -/
def execCpin (o : LAOp) (s : State) : Host.Outcome State Fault Refusal := runSlot (effCpin o) s

/-- CPOUT issued alone (R220). -/
def execCpout (o : LAOp) (s : State) : Host.Outcome State Fault Refusal := runSlot (effCpout o) s

/-- CPIN2 issued alone (R221). -/
def execCpin2 (o : LAOp) (s : State) : Host.Outcome State Fault Refusal := runSlot (effCpin2 o) s

/-- CPOUT2 issued alone (R221). -/
def execCpout2 (o : LAOp) (s : State) : Host.Outcome State Fault Refusal := runSlot (effCpout2 o) s

/-- CPW issued alone (R224). -/
def execCpw (o : LAOp) (s : State) : Host.Outcome State Fault Refusal := runSlot (effCpw o) s

/-- CPRED issued alone (R223). -/
def execCpred (o : LAOp) (s : State) : Host.Outcome State Fault Refusal := runSlot (effCpred o) s

/-- CPFILL issued alone (R224). -/
def execCpfill (o : LAOp) (s : State) : Host.Outcome State Fault Refusal := runSlot (effCpfill o) s

end Sys2Proof.Machine
end

