-- ==== Sys2Proof/Machine/Mask.lean ====
section
/-! DEFINITION. MASKQ and the mask engines (06 R163 to R176): checks at issue, acceptance, promise, and the mask with its
trailer. -/

namespace Sys2Proof.Machine

/-- Bytes of a mask request's destination, with VM1 = V/64 - 1 (R169). -/
def maskV (o : LAOp) : Nat := 64 * (o.fn * 8 + o.sz + 1)

/-- Engine numbers of a partition on a die: bit 4d + j of MENG (R339). -/
def maskEngines (s : State) (vf die : Nat) : List Nat :=
  if vf = 0 then [] else (bitsOf ((getVf s vf).layout.meng / 2 ^ (4 * die) % 16) 4).map fun j => 4 * die + j

/-- The engine with the smallest free cycle (R171). -/
def pickEngine (s : State) (l : List Nat) : Option Nat :=
  match l with
  | [] => none
  | e :: t => some (t.foldl (fun m x => if mapGet 0 s.maskFree x < mapGet 0 s.maskFree m then x else m) e)

/-- An engine whose last request is not accepted yet has an unknown free cycle, kept as 2^64 plus the cycle of that
acceptance, which it lies above. -/
def engineHeld (f : Nat) : Bool := decide (2 ^ 64 ≤ f)

/-- Place a request on an engine (R171): its start S is max(c + 64, F), and it is accepted at S + 1,024.
DEDUCED, log 40. -/
def placeMask (s : State) (e id : Nat) : State :=
  let a := max ((getOp s id).c + 64) (mapGet 0 s.maskFree e) + 1024
  sched (modOp { s with maskFree := mapSet 0 s.maskFree e (2 ^ 64 + a) } id fun o => { o with t0 := a, n := e })
    a .maskAccept [id]

/-- Requests of a die that have no engine yet, in issue order (R171). -/
def waitingMask (s : State) (vf die : Nat) : List Nat :=
  (s.ops.filter fun e =>
    (e.2.kind == .mask || e.2.kind == .nodeMask) && e.2.vf == vf && e.2.die == die && e.2.t0 == 0).map (·.1)

/-- Place waiting requests in order (R171). The smallest known free cycle is the smallest of all when it does not lie
above the acceptance under way on another engine; otherwise the request waits for that acceptance. -/
def startMasks (s : State) (vf die : Nat) (ids : List Nat) : State :=
  match ids with
  | [] => s
  | id :: t =>
    let es := maskEngines s vf die
    let f (e : Nat) : Nat := mapGet 0 s.maskFree e
    match pickEngine s (es.filter fun e => !engineHeld (f e)) with
    | none => s
    | some e =>
      if es.all fun h => !engineHeld (f h) || decide (2 ^ 64 + f e ≤ f h) then startMasks (placeMask s e id) vf die t
      else s

def runMasks (s : State) (vf die : Nat) : State := startMasks s vf die (waitingMask s vf die)

/-- The number of a mask request of a partition among its free values. -/
def maskNo (s : State) (vf : Nat) : Nat × State := (mapGet 0 s.free vf, (draw s vf 0 0).2)

/-- MASKQ (R169 to R171). -/
def effMaskq (o : LAOp) : Eff := predEff o.p fun s =>
  let t := s.cur
  let th := curTh s
  let vf := th.vf
  let a := (rdS th o.a).toNat
  let b := (rdS th o.b).toNat
  let c := (rdS th o.c).toNat
  let v := maskV o
  let n := v / 8 + 16
  let q : CopyReq := { opc := 0x28, rows := [{ loc := (a : Int), dva := 0, len := n }], total := n, devRead := true }
  let align (x m : Nat) : Option Trap := if x % m ≠ 0 then some { code := 0x04, unit := 4, addr := x } else none
  if 8 ≤ th.e1.length then .ok (addPark s t .replyFull)
  else match firstTrap [align a 64, align b 8, align c 64, rangeRows s q false a, raceRows s true (rowWords q.rows)] with
  | some e => .error e
  | none =>
    if maskEngines s vf (dieOf t) = [] then
      .ok (sched (modCur s fun y =>
        { y with e1 := y.e1 ++ [{ val := 0, avail := some (s.mer + 16), op := 0, region := y.region }] }) (s.mer + 16)
        .replyEntryAvailable [t, 1])
    else
      let w (x : Nat) : Nat := localWord s vf (dieOf t) (coreOf t) (x / 8)
      let s1 := (rowWords q.rows).foldl (fun y x => markShadow y t (w x) false) s
      let k := maskNo s1 vf
      let x := addOp k.2
        { kind := .mask, recNo := k.1, opc := 0x28, vf := vf, sub := (getVf s vf).cursub, die := dieOf t, core := coreOf t
          thread := some t, lid := some th.lid, region := th.region, instar := instarOf s vf, c := s.mer, a := a
          b := b, size := c, ty := v, p := 2 ^ 64
          parts := (rowWords q.rows).map fun y => { dst := localAddr s vf (dieOf t) (coreOf t) y } }
      .ok (runMasks (modCur x.2 fun y => { y with e1 := y.e1 ++ [{ op := x.1, region := y.region }] }) vf (dieOf t))

/-- The outcome of a chain of engine reads: what they found, or the read that stopped them, with the ranges read. -/
inductive MaskRes where
  | ok (h : MaskHead) (l : List (Nat × Nat))
  | stop (r : DevRead) (l : List (Nat × Nat))
deriving DecidableEq, Repr

/-- The cycle in which a mask request reads a word (R175): a free one from its issue up to hi, of its partition's own
(R338); recNo is the number that the request has there. -/
def wordCycle (o : Op) (hi w : Nat) : Nat :=
  o.c + (Config.freeWord (2 ^ 40 + o.vf) (o.recNo * 2 ^ 64 + w)).toNat % (hi + 1 - o.c)

/-- A word as the request sees it: as it stood in its own cycle (R175, R241). -/
def wordAt (o : Op) (hi w now : Nat) (bad : Bool) : Nat × Bool :=
  match o.olds.find? fun x => x.place == w && decide (wordCycle o hi w ≤ x.till) with
  | some x => (x.val, x.bad)
  | none => (now, bad)

/-- The words that hold the bytes pa to pa + n - 1 of one line, each as the request sees it. -/
def wordsAt (s : State) (o : Op) (hi pa n : Nat) (bad : Bool) : Nat × Bool :=
  let lo := pa / 8 * 8
  let ws := (List.range ((pa % 8 + n + 7) / 8)).map fun i =>
    let w := lo + 8 * i
    wordAt o hi w (if (lineOf s w).clean then cleanBytes s w 8 else rdMem s.mem (deviceBase + w) 8) bad
  (ws.foldr (fun x acc => x.1 + 2 ^ 64 * acc) 0 / 2 ^ (8 * (pa % 8)) % 2 ^ (8 * n), ws.any (·.2))

/-- The translation of an address for a request: the one it has, else that of this cycle (R201). -/
def maskTr (s : State) (o : Op) (a : Nat) : XRes :=
  match pageOf o a 0 with
  | some g => .ok (pagePa g a) g.key g.sc
  | none => translate s o.vf o.sub a 0

/-- Bytes read by a mask request line by line (R174, R175). -/
def maskDevFrom (s : State) (o : Op) (hi : Nat) (spans : List (Nat × Nat)) : DevRead :=
  match spans with
  | [] => .ok 0 false
  | (a, n) :: t =>
    match maskTr s o a with
    | .xlate => .xlate (a / 4096 * 4096)
    | .perm r => .perm r a
    | .ok pa key _ =>
      match readLine s pa key n with
      | .key => .perm 2 a
      | .integrity c => .integrity c (pa / 64 * 64) key
      | .ok _ bad =>
        let x := wordsAt s o hi pa n bad
        match maskDevFrom s o hi t with
        | .ok u b => .ok (x.1 + u * 2 ^ (8 * n)) (x.2 || b)
        | e => e

/-- n bytes from an address, which is taken modulo 2^64. DESIGN CHOICE, log 62. -/
def maskDev (s : State) (o : Op) (hi a n : Nat) : DevRead :=
  maskDevFrom s o hi (lineSpans (a % 2 ^ 64) n)

/-- Read n bytes up to acceptance, after the ranges l, and go on with their value and poison. -/
def maskRead (s : State) (o : Op) (l : List (Nat × Nat)) (a n : Nat)
    (k : List (Nat × Nat) → Nat → Bool → MaskRes) : MaskRes :=
  match maskDev s o o.t0 a n with
  | .ok v bad => k (l ++ [(a, n)]) v bad
  | r => .stop r (l ++ [(a, n)])

/-- The pages of read addresses that a request has translated are kept with it, so that it is translated once and an
invalidation waits for it (R201), and the lines read are corrected (R204). -/
def keepPage (s : State) (o : Op) (a : Nat) : Op :=
  match pageOf o a 0, translate s o.vf o.sub (a % 2 ^ 64) 0 with
  | none, .ok pa key sc =>
    { o with pages := o.pages ++
        [{ page := a % 2 ^ 64 / 4096 * 4096, acc := 0, pa := some (pa / 4096 * 4096), key := key, sc := sc }] }
  | _, _ => o
def keepPages (s : State) (id : Nat) (spans : List (Nat × Nat)) : State :=
  let as := spans.flatMap fun x => (lineSpans x.1 x.2).map (·.1)
  let o := getOp s id
  modOp
    (as.foldl (fun q a =>
      match maskTr s o (a % 2 ^ 64) with
      | .ok pa _ _ => sawLine q (lineKey o pa) pa
      | _ => q) s) id fun o => as.foldl (keepPage s) o

/-- What a request has read of given ranges, up to the first page that stops it, stands for it whatever is written later:
a replay goes on from that page (R395). Each word is kept as one that is never too late. -/
def readWords (s : State) (o : Op) (hi : Nat) (spans : List (Nat × Nat)) : List Old :=
  let lines := (spans.flatMap fun x => lineSpans (x.1 % 2 ^ 64) x.2).map fun x => (maskTr s o x.1, x.1, x.2)
  (lines.takeWhile fun x =>
    match x.1 with
    | .ok _ _ _ => true
    | _ => false).flatMap fun x =>
    match x.1 with
    | .ok pa _ _ =>
      (List.range ((pa % 8 + x.2.2 + 7) / 8)).map fun i =>
        let w := pa / 8 * 8 + 8 * i
        let v := wordsAt s o hi w 8 (lineBad s w)
        { place := w, val := v.1, bad := v.2, till := 2 ^ 128 }
    | _ => []

/-- Field of a word. -/
def fld (x hi lo : Nat) : Nat := x / 2 ^ lo % 2 ^ (hi - lo + 1)

/-- Check 1 of R173 on a header, for vocabulary v. -/
def headerBad (h v : Nat) : Bool :=
  fld h 31 0 != 0x4D514B53 || fld h 47 32 != 1 || fld h 63 48 != 0 || fld h 159 128 != v
    || !(1 ≤ fld h 95 64 && fld h 95 64 ≤ 2 ^ 20) || !(1 ≤ fld h 127 96 && fld h 127 96 ≤ 2 ^ 20)
    || !(1 ≤ fld h 191 160 && fld h 191 160 ≤ 2 ^ 20)
    || [192, 256, 320, 384, 448].any fun lo => fld h (lo + 63) lo % 64 != 0

/-- The address of the top symbol of a cursor of n symbols, and of its class-map and class entries (R164, R168). -/
def topAt (o : Op) (n : Nat) : Nat := o.b + 8 + (n - 1)
def mapAt (o : Op) (h st top : Nat) : Nat := o.size + fld h 255 192 + 4 * (256 * st + top)
def classAt (o : Op) (h cls : Nat) : Nat := o.size + fld h 319 256 + 16 * cls

/-- The reads up to acceptance (R171, R173): header, cursor header, top symbol, class-map entry, class entry. b is the
cursor, size the image, ty the vocabulary of the request. The cursor header is read whatever check 1 says. DEDUCED,
log 62. A word that reads poisoned or uncorrectable counts, for the checks and for E, with the bits that are stored.
DESIGN CHOICE, log 62. -/
def maskHead (s : State) (o : Op) : MaskRes :=
  maskRead s o [] o.size 64 fun l h bh =>
  maskRead s o l o.b 8 fun l cu bc =>
    let m : MaskHead := { header := h, cursor := cu, bad := bh || bc }
    let n := fld cu 47 32
    if headerBad h o.ty then .ok { m with status := 2 } l
    else if fld cu 63 48 ≠ 0 ∨ 4096 < n ∨ fld h 95 64 ≤ fld cu 31 0 then .ok { m with status := 1 } l
    else
      maskRead s o l (topAt o n) (if n = 0 then 0 else 1) fun l y by_ =>
      maskRead s o l (mapAt o h (fld cu 31 0) (if n = 0 then 0xFF else y)) 4 fun l ce bce =>
        let cls := fld ce 19 0
        let m1 : MaskHead := { m with cls := cls, bad := m.bad || by_ || bce }
        if fld ce 31 20 ≠ 0 ∨ fld h 127 96 ≤ cls then .ok { m1 with status := 2 } l
        else
          maskRead s o l (classAt o h cls) 16 fun l k bk =>
            let bad := fld k 127 96 != 0 || fld k 63 48 != 0 || fld h 191 160 ≤ fld k 95 64
            .ok { m1 with
                  status := if bad then 2 else 0, base := fld k 95 64, first := fld k 31 0, count := fld k 47 32
                  entry := true, bad := m1.bad || bk } l

/-- The exceptions and the base mask of a class (R165, R166). -/
def excSpan (o : Op) (m : MaskHead) : Nat × Nat := (o.size + fld m.header 447 384 + 8 * m.first, 8 * m.count)
def baseSpan (o : Op) (m : MaskHead) : Nat × Nat := (o.size + fld m.header 383 320 + m.base * (o.ty / 8), o.ty / 8)

def excAt (x k : Nat) : Nat := x / 2 ^ (64 * k) % 2 ^ 64

/-- An exception that fails check 3 (R173). -/
def excBad (e v : Nat) : Bool := fld e 63 39 != 0 || v ≤ fld e 17 0

/-- Sym and Holds (R167): stack bytes are read at the cursor, those in the word of the top symbol as they were read with
it. -/
def stackByte (s : State) (o : Op) (n depth : Nat) : DevRead :=
  let a := o.b + 8 + (n - 1 - depth)
  if depth + 1 ≤ n then maskDev s o (if a / 8 = topAt o n / 8 then o.t0 else s.mer) a 1 else .ok 0xFF false

/-- The ranges read after acceptance: the exceptions, the base mask, and the stack bytes that the exceptions name, where
they pass their checks (R167, R168, R173). -/
def restSpans (s : State) (o : Op) (m : MaskHead) : List (Nat × Nat) :=
  let n := fld m.cursor 47 32
  let ks := List.range m.count
  if !m.entry then []
  else
    [excSpan o m, baseSpan o m]
      ++ (match maskDev s o s.mer (excSpan o m).1 (excSpan o m).2 with
          | .ok x _ =>
            if m.status ≠ 0 ∨ ks.any fun k => excBad (excAt x k) o.ty then []
            else (ks.filterMap fun k =>
              let d := fld (excAt x k) 29 18
              if d + 1 ≤ n then some (o.b + 8 + (n - 1 - d), 1) else none).eraseDups
          | _ => [])

/-- The tokens that exceptions make illegal, as a mask, or the read that stopped. -/
def excMask (s : State) (o : Op) (n x : Nat) (ks : List Nat) (acc : Nat × Bool) : DevRead :=
  match ks with
  | [] => .ok acc.1 acc.2
  | k :: t =>
    let e := excAt x k
    match stackByte s o n (fld e 29 18) with
    | .ok y b =>
      let holds := (y == fld e 37 30) != (fld e 38 38 == 1)
      excMask s o n x t (if holds then acc.1 else acc.1 ||| 2 ^ fld e 17 0, acc.2 || b)
    | r => r

/-- The mask and its trailer (R172, R173). -/
def maskBytes (v status cls legal : Nat) : Nat :=
  let first := ((bitsOf legal v).head?).getD 0xFFFFFFFF
  legal + 2 ^ v * (popc v legal + cls * 2 ^ 32 + first * 2 ^ 64 + status * 2 ^ 96)

/-- The result of a request (R167, R172, R173): the bytes and whether they are poisoned, or the read that stopped. -/
def maskResult (s : State) (o : Op) (m : MaskHead) : DevRead :=
  if !m.entry then .ok (maskBytes o.ty m.status m.cls 0) m.bad
  else
    match maskDev s o s.mer (excSpan o m).1 (excSpan o m).2 with
    | .ok x bx =>
      match maskDev s o s.mer (baseSpan o m).1 (baseSpan o m).2 with
      | .ok bm bb =>
        let ks := List.range m.count
        if m.status ≠ 0 ∨ ks.any fun k => excBad (excAt x k) o.ty then
          .ok (maskBytes o.ty 2 m.cls 0) (m.bad || bx || bb)
        else
          match excMask s o (fld m.cursor 47 32) x ks (0, false) with
          | .ok ill be =>
            .ok (maskBytes o.ty 0 m.cls (bm &&& (2 ^ o.ty - 1 - ill % 2 ^ o.ty))) (m.bad || bx || bb || be)
          | r => r
      | r => r
    | r => r

/-- A read of a mask request stopped: it is held as a copy is, with the words that it has read, or it fails (R174,
R395). -/
def maskStop (s : State) (id : Nat) (kept : List Old) (r : DevRead) : State :=
  match r with
  | .xlate page => holdXlate (modOp s id fun o => { o with watching := true, olds := kept ++ o.olds }) id page 0
  | .perm c dva => permFail s id c 0 dva
  | .integrity c pa key => integrityFail s id c pa key
  | .ok _ _ => s

/-- MASK_ACCEPT (R171): the promise is computed and the e1 entry holds it, with E = 0 where no class entry could be
read; a read that stopped holds the request or fails it at once (R174, R395). Otherwise the words of the destination
take their cycles, and that in which the engine makes its last reads is free up to the first of them (R175). DEDUCED,
log 40. -/
def execMaskAccept (s : State) : Host.Outcome State Fault Refusal :=
  let id := argN s 0
  let o := getOp s id
  if !hasOp s id then .next s
  else
    let r := maskHead s o
    let h := match r with
      | .ok m _ => some m
      | .stop _ _ => none
    let p := s.mer + 64 + o.ty / 16 + 32 * (h.getD {}).count
    let s0 := if maskHas (getVf s o.vf).layout.meng o.n then { s with maskFree := mapSet 0 s.maskFree o.n p } else s
    let s1 := keepPages (modOp s0 id fun x => { x with p := p, head := h }) id
      (match r with
       | .ok _ l | .stop _ l => l)
    let s2 := match o.thread with
      | some t => fillReply s1 t 1 id p s.mer
      | none => s1
    let s3 := runMasks (sched s2 p .maskComplete [id, 1]) o.vf o.die
    match r with
    | .stop e l => .next (maskStop s3 id (readWords s3 (getOp s3 id) o.t0 l) e)
    | .ok _ _ =>
      let s4 := enterWrites s3 id s.mer (p - 1)
      let d := drawIn s4 o.vf s.mer ((getOp s4 id).parts.foldl (fun m x => if x.due = 0 then m else min m x.due) (p - 1))
      .next (sched d.2 d.1 .maskComplete [id, 0])

/-- The reads of a request are done: its local words are written in the cycles that they have, or in others where those
have passed, and its device lines are (R175, R311), poisoned where a packet has failed (R399). -/
def maskWrites (s : State) (id v : Nat) (bad : Bool) : State :=
  let s1 := modOp s id fun o =>
    { o with
      watching := false
      parts := (List.range o.parts.length).zipWith (fun i p =>
        { p with data := BitVec.ofNat 64 (v / 2 ^ (64 * i)), bad := bad || o.crc || p.crc, got := true }) o.parts }
  let o := getOp s1 id
  if o.kind = .mask then
    let r := (List.range o.parts.length).foldl (fun (a : State × Nat) i =>
      let x := o.parts.getD i {}
      if x.due ≠ 0 then a
      else
        let d := drawPort a.1 o.vf (x.dst / 8) s.mer (o.p - 1)
        (addWact d.2 { at_ := d.1, word := x.dst / 8, kind := .opWrite id i }, max a.2 d.1)) (s1, s.mer)
    if o.missed then sched r.1 (r.2 + 1) .maskComplete [id, 1] else r.1
  else sched s1 s.mer .copyTranslate [id, 0]

/-- MASK_COMPLETE (R167 to R176): in its first part the engine's last reads and the cycles of its writes; in its second,
at the promise, the end of the request, or a missed promise. DEDUCED, log 40. -/
def execMaskComplete (s : State) : Host.Outcome State Fault Refusal :=
  let id := argN s 0
  let o := getOp s id
  if !hasOp s id ∨ o.complete ∨ o.failed then .next s
  else if argN s 1 = 0 then
    if swapped s o then .next (sched s (s.mer + 4096) .maskComplete [id, 0])
    else
      match (match o.head with
        | some m => .ok m []
        | none => maskHead s o : MaskRes) with
      | .stop r l =>
        let s1 := keepPages s id l
        .next (maskStop s1 id (readWords s1 (getOp s1 id) o.t0 l) r)
      | .ok m l =>
        let rest := restSpans s o m
        let s1 := keepPages (modOp s id fun x => { x with head := some m }) id (l ++ rest)
        let o1 := getOp s1 id
        let n := fld m.cursor 47 32
        match maskResult s1 o1 m with
        | .ok v bad => .next (maskWrites s1 id v bad)
        | r =>
          .next (maskStop s1 id
            (readWords s1 o1 o.t0 [(topAt o n, if n = 0 then 0 else 1)] ++ readWords s1 o1 s.mer rest) r)
  else if o.kind ≠ .mask then .next s
  else completeRequest s

/-- MASKQ issued alone (R171). -/
def execMaskq (o : LAOp) (s : State) : Host.Outcome State Fault Refusal := runSlot (effMaskq o) s

end Sys2Proof.Machine
end

