-- ==== Sys2Proof/Machine/Graphs.lean ====
section
/-! DEFINITION. Queue records and graphs: kicks, RUN and MARK, the nodes, the choice among ready nodes and deterministic
mode (12 R300 to R320, R322, R407). -/

namespace Sys2Proof.Machine

/-- A command queue, and its replacement. -/
def getQ (s : State) (vf q : Nat) : Queue := mapGet {} (getVf s vf).queues q
def modQ (s : State) (vf q : Nat) (f : Queue → Queue) : State :=
  modVf s vf fun v => { v with queues := mapSet {} v.queues q (f (mapGet {} v.queues q)) }

/-- Fields of QCFG (R301). -/
def qEn (c : Nat) : Bool := c / 2 ^ 63 % 2 == 1
def qDie (c : Nat) : Nat := c / 2 ^ 24 % 8
def qSize (c : Nat) : Nat := 2 ^ (c / 2 ^ 16 % 16)
def qVec (c : Nat) : Nat := c % 2 ^ 11

/-- A guest switch of a function is under way (R352). -/
def switching (s : State) (vf : Nat) : Bool :=
  let v := getVf s vf
  v.cmdRun && v.cmdStep == 1 && v.cmdRec % 256 == 5

/-- A queue whose records may be taken now (R302, R335, R346, R351, R357, R35). -/
def mayTake (s : State) (vf : Nat) (x : Queue) : Bool :=
  let v := getVf s vf
  qEn x.cfg && !x.orphan && !v.halted && !v.tstop && !switching s vf
    && v.tdisp != .error && v.layout.slots != 0 && x.sub == v.cursub

/-- Reserved bits of a queue record are zero and its opcode is known (R304). -/
def recordOk (r : Nat) : Bool :=
  bits r 511 320 == 0 && bits r 127 121 == 0 && bits r 63 11 == 0 && (bits r 7 0 == 1 || bits r 7 0 == 2)
    && (bits r 7 0 == 2 || bits r 120 64 % 64 == 0)

/-- The record as a graph under way, with the status it ends with if it is refused (R304, R305, R319); one that is
malformed and asks for a declined feature is malformed, and the DET bit of a MARK is ignored. DESIGN CHOICE, log 63. -/
def graphOf (s : State) (vf q n r : Nat) : Graph × Nat :=
  let x := getQ s vf q
  let g : Graph :=
    { vf := vf, q := q, idx := n, sub := x.sub, die := qDie x.cfg, opc := bits r 7 0, cplval := bits r 319 256
      cpladdr := bits r 255 192, base := bits r 191 128, irq := bits r 10 10 == 1, order := bits r 9 9 == 1
      det := bits r 8 8 == 1 && bits r 7 0 == 1, dva := bits r 120 64 }
  (g, if !recordOk r then 1 else if g.det && !featOk s vf 3 then 2 else if g.det && decide (g.base < s.mer + 8192) then 4
      else 0)

/-- A record is taken (R303, R305). A refused one completes at once; a misaligned CPLADDR sets CPLERR.
DEDUCED, log 38. -/
def takeRecord (s : State) (vf q : Nat) : State :=
  let x := getQ s vf q
  let r := rdMem s.mem (hostAddr (qPasid x.cfg) (x.qbase + 64 * (x.ci % qSize x.cfg))) 64
  let gs := graphOf s vf q x.ci r
  let s1 := modQ s vf q fun y => { y with ci := (y.ci + 1) % 2 ^ 32 }
  if gs.1.cpladdr % 16 ≠ 0 then
    let s2 := modQ s1 vf q fun y => { y with cplerr := true }
    if gs.1.irq then raiseMsix s2 vf (qVec x.cfg) else s2
  else
    let f := fresh s1
    let g : Graph := { gs.1 with status := gs.2, failed := gs.2 != 0 }
    let s2 := { f.2 with graphs := mapPut f.2.graphs f.1 g }
    if gs.2 ≠ 0 then completeRecord s2 f.1
    else if g.opc = 1 then sched s2 s.mer .runRec [f.1]
    else if canStart s2 f.1 then sched s2 s.mer .markRec [f.1]
    else s2

/-- The fetch of a queue's next record leaves, if its kicks cover one that may be taken now; the response comes after a
free time, as a KICK with operand 3 set (R303, R322). DESIGN CHOICE, log 64. -/
def startFetch (s : State) (vf q : Nat) : State :=
  let x := getQ s vf q
  if mayTake s vf x ∧ x.ci ≠ x.pi ∧ x.fetching = 0 ∧ !linkCut s vf then
    let d := draw (modQ s vf q fun y => { y with fetching := 1 }) vf 1 4096
    sched d.2 (s.mer + d.1) .kick [vf, q, 0, 1]
  else s

/-- Every queue of a function goes on with the records that its kicks cover. -/
def takeAll (s : State) (vf : Nat) : State := (List.range 16).foldl (fun a q => startFetch a vf q) s

/-- A fetch has returned (R322): its record is taken, unless the response is to be discarded, as one over an Insecure stream
is (R398), or the queue may take none now; an invalidation that waited for it completes. -/
def fetchReturn (s : State) (vf q : Nat) : State :=
  let x := getQ s vf q
  let s1 := modQ s vf q fun y => { y with fetching := 0, awaited := false }
  let s2 := if x.awaited then { s1 with out := s1.out ++ [.pasidDone vf q] } else s1
  startFetch (if x.fetching = 1 ∧ mayTake s vf x ∧ x.ci ≠ x.pi ∧ !linkCut s vf then takeRecord s2 vf q else s2) vf q

/-- KICK (R303): accepted, without effect, or refused with KICKERR; a larger PI supersedes an earlier one. With operand 3
set it is the return of a record's fetch. -/
def execKick (s : State) : Host.Outcome State Fault Refusal :=
  let vf := argN s 0
  let q := argN s 1
  let p := argN s 2 % 2 ^ 32
  let x := getQ s vf q
  let d := (p + 2 ^ 32 - x.ci) % 2 ^ 32
  if argN s 3 = 1 then .next (fetchReturn s vf q)
  else if !qEn x.cfg ∨ x.orphan ∨ (d ≠ 0 ∧ qSize x.cfg < d) then
    .next (modQ s vf q fun y => { y with kickerr := true })
  else if d ≤ (x.pi + 2 ^ 32 - x.ci) % 2 ^ 32 then .next s
  else .next (startFetch (modQ s vf q fun y => { y with pi := p }) vf q)

/-- Reserved bits of QCFG read as zero (R301). -/
def qcfgMask : Nat := 2 ^ 63 + (2 ^ 20 - 1) * 2 ^ 32 + 7 * 2 ^ 24 + 15 * 2 ^ 16 + 2047

/-- A valid QCFG write with EN = 1 (R301, R345). -/
def qcfgOk (s : State) (vf v : Nat) : Bool :=
  let lsize := v / 2 ^ 16 % 16
  (getVf s vf).locked && maskHas (diesOf s vf) (qDie v) && decide (qDie v < 4) && decide (6 ≤ lsize)
    && decide (lsize ≤ 12) && decide (qVec v < 32)

/-- TDISP holds the locked items (R346). -/
def tdispHolds (s : State) (vf : Nat) : Bool := (getVf s vf).tdisp == .locked || (getVf s vf).tdisp == .run

/-- A discarded write to a locked item puts the interface into ERROR (R346): graphs run on, but their completions and
interrupts are discarded. -/
def tdispError (s : State) (vf : Nat) : State :=
  let s1 := modVf s vf fun v => { v with tdisp := .error }
  { s1 with graphs := s1.graphs.map fun e => if e.2.vf = vf then (e.1, { e.2 with mute := true }) else e }

/-- The graphs of a queue run on, but their completions and interrupts are discarded (R322). -/
def muteQueue (s : State) (vf q : Nat) : State :=
  { s with graphs := s.graphs.map fun e => if e.2.vf = vf ∧ e.2.q = q then (e.1, { e.2 with mute := true }) else e }

/-- QCFG_WRITE (R301, R302, R322, R351): a queue that is disabled while a fetch is outstanding is orphaned. -/
def execQcfgWrite (s : State) : Host.Outcome State Fault Refusal :=
  let vf := argN s 0
  let q := argN s 1
  let v := argN s 2 &&& qcfgMask
  let x := getQ s vf q
  if tdispHolds s vf then .next (tdispError s vf)
  else if !qEn v then
    let cut := qEn x.cfg && x.fetching == 1
    let s1 := modQ s vf q fun y =>
      { y with
        cfg := if qEn y.cfg then y.cfg % 2 ^ 63 else v, ci := 0, pi := 0, orphan := cut
        fetching := if cut then 2 else y.fetching }
    .next (if cut then muteQueue s1 vf q else s1)
  else if qEn x.cfg then .next s
  else if qcfgOk s vf v then
    .next (modQ s vf q fun y => { y with cfg := v, ci := 0, pi := 0, sub := (getVf s vf).cursub })
  else .next (modQ s vf q fun y => { y with cfgerr := true })

/-- PASID_INVALIDATION (R322): the queue is orphaned, the completions and interrupts of its graphs are discarded, and the
invalidation completes once no fetch of the queue is outstanding. -/
def execPasidInvalidation (s : State) : Host.Outcome State Fault Refusal :=
  let vf := argN s 0
  let q := argN s 1
  let busy := (getQ s vf q).fetching != 0
  let s1 := muteQueue (modQ s vf q fun y =>
    { y with orphan := true, fetching := if busy then 2 else 0, awaited := busy }) vf q
  .next (if busy then s1 else { s1 with out := s1.out ++ [.pasidDone vf q] })

/-- MARK (R304): it completes at once. -/
def execMarkRec (s : State) : Host.Outcome State Fault Refusal :=
  let g := argN s 0
  if s.graphs.any (fun e => e.1 == g) && canStart s g then .next (completeRecord s g) else .next s

/-- A node record (R307). -/
def nodeRec (x : Nat) : Node :=
  { ty := bits x 7 0, die := bits x 10 8, prio := bits x 12 11, npred := bits x 27 16, off := bits x 63 32
    succ := [bits x 79 64, bits x 95 80, bits x 111 96, bits x 127 112], body := x / 2 ^ 128 }

/-- A node whose words 0 and 1 or loop rules fail (R306, R307, R309). -/
def nodeBad (s : State) (g : Graph) (raw i : Nat) : Bool :=
  let nd := nodeOf g i
  let n := g.nodes.length
  let outs := (List.range 4).filterMap (succOf nd)
  let lo := bodyLo nd
  let loops := (List.range n).filter fun j => (nodeOf g j).ty == 6
  9 < nd.ty || bits raw 15 13 != 0 || bits raw 31 28 != 0 || 4 ≤ nd.die || !maskHas (diesOf s g.vf) nd.die
    || outs.any (fun j => j ≤ i || n ≤ j) || decide (outs.eraseDups.length ≠ outs.length)
    || decide ((edgesInto g i).length ≠ nd.npred)
    || (nd.ty == 6 &&
      (i ≤ lo
        || ((List.range i).any fun b => lo ≤ b && ((List.range 4).filterMap (succOf (nodeOf g b))).any fun j =>
              !(lo ≤ j && j ≤ i))
        || (edgesInto g i).any (fun e => decide (e / 4 < lo) || decide (i ≤ e / 4))
        || loops.any fun j => j < i && !(j ≤ lo || lo ≤ bodyLo (nodeOf g j))))

/-- The image of a graph as read (R306): a header and its nodes, or what stops the record, with the number of its lines
that have been read. -/
inductive Image where
  | ok (l : List Nat)
  | bad (status node lines : Nat)
  | stop (r : DevRead) (lines : Nat)
deriving DecidableEq, Repr

/-- Read nodes i, i + 1, … of an image. -/
def readNodes (s : State) (g : Graph) (i n : Nat) : Image :=
  match n with
  | 0 => .ok []
  | m + 1 =>
    match devRead s g.vf g.sub (g.dva + 64 + 64 * i) 64 with
    | .ok v bad =>
      if bad then .bad 9 i (i + 2)
      else
        match readNodes s g (i + 1) m with
        | .ok l => .ok (v :: l)
        | e => e
    | r => .stop r (i + 1)

/-- Read and check an image (R306, R307, R309). -/
def readImage (s : State) (g : Graph) : Image :=
  match devRead s g.vf g.sub g.dva 64 with
  | .ok h bad =>
    let n := bits h 63 48
    if bad then .bad 9 0xFFFF 1
    else if h / 2 ^ 64 ≠ 0 ∨ n = 0 ∨ 4096 < n ∨ bits h 47 32 ≠ 1 ∨ bits h 31 0 ≠ 0x47525048 then .bad 1 0xFFFF 1
    else
      match readNodes s g 0 n with
      | .ok l =>
        let g1 : Graph := { g with nodes := l.map nodeRec }
        match (List.range n).find? fun i => nodeBad s g1 (l.getD i 0) i with
        | some i => .bad 1 i (n + 1)
        | none => .ok l
      | e => e
  | r => .stop r 0

/-- Enter the decision cycle of a node of a deterministic graph (R319); operand 3 says that it has passed already. -/
def schedDecision (s : State) (g n : Nat) : State :=
  let x := getGraph s g
  let nd := nodeOf x n
  let c := nd.base + nd.off - 4096
  if x.det then sched s (max s.mer c) .deterministicDecision [g, n, nd.base, if c < s.mer then 1 else 0] else s

/-- The nodes of a record as its image gives them; under DET their bases and decision cycles stand from then on, whether
the graph may start yet or not (R304, R319). -/
def setNodes (s : State) (g : Nat) (l : List Nat) : State :=
  let s1 := modGraph s g fun x => { x with nodes := l.map fun r => { nodeRec r with base := x.base } }
  (List.range l.length).foldl (fun a n => schedDecision a g n) s1

/-- The nodes of a record start (R310). -/
def startGraph (s : State) (g : Nat) : State := endGraph (sweep (modGraph s g fun x => { x with started := true }) g) g

/-- RUN (R304, R306): the image is read and checked when the record is taken; the graph starts when it may. -/
def execRunRec (s : State) : Host.Outcome State Fault Refusal :=
  let g := argN s 0
  let x := getGraph s g
  let saw (lines : Nat) : State := sawRange s x.vf x.sub x.dva (64 * lines)
  if !s.graphs.any (fun e => e.1 == g) ∨ x.started then .next s
  else if x.nodes ≠ [] then .next (if canStart s g then startGraph s g else s)
  else
    match readImage s x with
    | .ok l =>
      let s1 := setNodes (saw (l.length + 1)) g l
      .next (if canStart s1 g then startGraph s1 g else s1)
    | .bad status node k => .next (completeRecord (failGraph (saw k) g status node 0) g)
    | .stop r k => .next (nodeReadFail (saw k) g 0xFFFF r .runRec)

/-- Effective priority of a ready node (R318). -/
def effPrio (s : State) (nd : Node) : Nat := min 3 (nd.prio + (s.mer - nd.readyAt) / 1024000)

/-- Node (g, n) stands ahead of node (h, m) (R318). -/
def aheadOf (s : State) (g n h m : Nat) : Bool :=
  let a := nodeOf (getGraph s g) n
  let b := nodeOf (getGraph s h) m
  let ka := [4 - effPrio s a, a.readyAt, (getGraph s g).q, g, n]
  let kb := [4 - effPrio s b, b.readyAt, (getGraph s h).q, h, m]
  decide (List.lt ka kb)

/-- Two launches want some of the same contexts, instruction share or domains. -/
def rivals (x y : Launch) : Bool :=
  x.vf == y.vf && x.die == y.die && (x.cores.any y.cores.contains || (x.syncmask &&& y.syncmask) != 0)

/-- The ready LAUNCH nodes of the package, without deterministic ones. -/
def readyLaunches (s : State) : List (Nat × Nat × Launch) :=
  s.graphs.flatMap fun e =>
    if e.2.det ∨ e.2.failed then []
    else
      (List.range e.2.nodes.length).filterMap fun n =>
        let nd := nodeOf e.2 n
        match nd.lid with
        | some l => if nd.st = .ready ∧ nd.ty = 1 then some (e.1, n, getLaunch s l) else none
        | none => none

/-- A ready node ahead in the order waits for something that this one wants (R318). -/
def heldBack (s : State) (g n : Nat) (x : Launch) : Bool :=
  (readyLaunches s).any fun e => rivals e.2.2 x && aheadOf s e.1 e.2.1 g n

/-- A COPY node to the weight store waits for the launches of its die to end (R193). -/
def wstWaits (s : State) (g n : Nat) : Bool :=
  let x := getGraph s g
  let nd := nodeOf x n
  toWeights nd && !(runningOn s x.vf nd.die).isEmpty

/-- A LOOP node and its body never run concurrently (R312): a loop waits for a running body node, and a body node for its
running loop. DEDUCED, log 53. -/
def loopWaits (x : Graph) (i : Nat) : Bool :=
  let nd := nodeOf x i
  (nd.ty == 6 && (List.range i).any fun j => decide (bodyLo nd ≤ j) && (nodeOf x j).st == .running)
    || (List.range x.nodes.length).any fun j =>
      decide (i < j) && (nodeOf x j).ty == 6 && decide (bodyLo (nodeOf x j) ≤ i) && (nodeOf x j).st == .running

/-- The event that runs a node of each type (R307). -/
def nodeEvent (ty : Nat) : Instr :=
  match ty with
  | 0 => .joinNode | 1 => .launchNode | 2 => .copyNode | 3 => .signalNode | 4 => .waitNode | 5 => .condNode
  | 6 => .loopNode | 7 => .collNode | 8 => .maskNode | _ => .portNode

/-- The partition may start a launch now (R335, R336, R391), but not during a guest switch (R352). -/
def mayStart (s : State) (vf : Nat) : Bool :=
  let v := getVf s vf
  v.resident && !v.barred && !v.tstop && v.pre == .none && !switching s vf

/-- A LAUNCH node starts: its contexts are taken and its gang start is announced (R316, R319). -/
def startLaunch (s : State) (g n l : Nat) : State :=
  let x := getGraph s g
  let nd := nodeOf x n
  let s1 := modNode s g n fun y => { y with st := .running }
  if x.det then beginLaunch s1 l (nd.base + nd.off)
  else
    let d := draw s1 x.vf 1 4096
    beginLaunch d.2 l (s.mer + d.1)

/-- A node that does not start now: a LAUNCH needs its partition's contexts (R336), a partition with an overflowed record
starts no launch, copy or engine node (R391), and a frozen one starts nothing (R344). The others need none of its
resources (R318). DEDUCED, log 53. -/
def holdsNode (s : State) (x : Graph) (nd : Node) : Bool :=
  let v := getVf s x.vf
  v.tstop || (v.barred && (nd.ty == 1 || nd.ty == 2 || decide (7 ≤ nd.ty)))
    || (nd.ty == 1 && !x.det && !mayStart s x.vf)

/-- A node that is held back is looked at again when its priority grows (R318). -/
def awaitAge (s : State) (g n : Nat) : State :=
  let nd := nodeOf (getGraph s g) n
  let c := nd.readyAt + ((s.mer - nd.readyAt) / 1024000 + 1) * 1024000
  if 3 ≤ effPrio s nd ∨ s.agenda.any (fun i => i.ev == .nodeStart && i.cycle == c && i.args == [g, n]) then s
  else sched s c .nodeStart [g, n]

/-- SCHEDULE_OVERRUN (R319): a record to row 0 of the node's die, and the graph fails: it starts nothing more, or not at
all, and ends when the record is acted on (R394). DEDUCED, log 24. -/
def overrun (s : State) (g n : Nat) : State :=
  let x := getGraph s g
  let nd := nodeOf x n
  let r : FaultRec :=
    { code := 0x10, fatal := true, vf := x.vf, mer := s.mer, instar := instarOf s x.vf, addr := n
      d5 := nd.base + nd.off - 4096, heal := .graph g }
  modGraph (failGraph (sendRec s (collector nd.die 0) r) g 5 n 0) g fun y => { y with recs := y.recs + 1, started := true }

/-- NODE_START (R317, R318): a ready node starts when its partition may run, its resources are free and no node ahead
waits for them; a node of a sliced partition that is not resident asks for a slice. A deterministic node that R193, R312 or
R391 keeps from its start cycle overruns (R319). DEDUCED, log 24. -/
def execNodeStart (s : State) : Host.Outcome State Fault Refusal :=
  let g := argN s 0
  let n := argN s 1
  let x := getGraph s g
  let nd := nodeOf x n
  if nd.st ≠ .ready ∨ x.failed then .next s
  else if holdsNode s x nd then .next (sched s s.mer .partitionResume [x.vf])
  else if nd.ty = 1 then
    match nd.lid with
    | some l =>
      if x.det ∨ loopWaits x n then .next s
      else if !launchFree s (getLaunch s l) ∨ heldBack s g n (getLaunch s l) then .next (awaitAge s g n)
      else .next (kickReady (startLaunch s g n l) x.vf)
    | none => .next s
  else if x.det && (wstWaits s g n || loopWaits x n || decide (nd.base + nd.off < s.mer)) then .next (overrun s g n)
  else if wstWaits s g n || loopWaits x n then .next s
  else .next (sched (modNode s g n fun y => { y with st := .running }) s.mer (nodeEvent nd.ty) [g, n])

/-- A running node of the type its event names. -/
def nodeRuns (s : State) (g n ty : Nat) : Bool :=
  (nodeOf (getGraph s g) n).st == .running && (nodeOf (getGraph s g) n).ty == ty

/-- JOIN (R311). -/
def execJoinNode (s : State) : Host.Outcome State Fault Refusal :=
  let g := argN s 0
  let n := argN s 1
  if !nodeRuns s g n 0 then .next s
  else if (nodeOf (getGraph s g) n).body ≠ 0 then .next (nodeFail s g n 1 0) else .next (nodeDone s g n)

/-- COPY (R311, R407): a copy from device memory to device memory or the weight store on the partition's node channel. -/
def execCopyNode (s : State) : Host.Outcome State Fault Refusal :=
  let g := argN s 0
  let n := argN s 1
  let x := getGraph s g
  let nd := nodeOf x n
  let src := bodyBits nd 184 128
  let dst := bodyBits nd 248 192
  let len := bodyBits nd 287 256
  let wst := bodyBits nd 288 288 == 1
  let used := src + dst * 2 ^ 64 + len * 2 ^ 128 + (if wst then 2 ^ 160 else 0)
  if !nodeRuns s g n 2 then .next s
  else if nd.body ≠ used ∨ src % 8 ≠ 0 ∨ dst % 8 ≠ 0 ∨ len % 8 ≠ 0 ∨ (wst ∧ weightSize s x.vf nd.die < dst + len) then
    .next (nodeFail s g n 1 0)
  else
    let parts : List Part := (List.range (len / 8)).map fun i =>
      { src := src + 8 * i, dst := if wst then weightAddr s x.vf nd.die (dst + 8 * i) else dst + 8 * i
        srcDev := true, dstDev := !wst }
    let sp := (distinctPages (parts.map (·.src)))
    let dp := if wst then [] else distinctPages (parts.map (·.dst))
    let words := parts.map (·.src) ++ (if wst then [] else parts.map (·.dst))
    let v := getVf s x.vf
    let pages := (sp ++ dp).eraseDups
    let e := linkTerm s x.vf x.sub pages
    let s := e.2
    let pr := promise s x.vf x.sub (mapGet 0 v.nodeChan nd.die) (copyRate s x.vf) len (mapGet 0 v.nodeSc nd.die) e.1 pages
      words wst
    let sc := pages.any (scNow s x.vf x.sub)
    let f := addOp s
      { nodeOp s g n .nodeCopy with
        opc := if wst then 0x24 else 0, t0 := pr.1, p := pr.2.2, b := dst, size := len, sc := sc, parts := parts
        pages := sp.map (fun p => { page := p, acc := 0 }) ++ dp.map fun p => { page := p, acc := 1 } }
    let s1 := modVf f.2 x.vf fun y =>
      { y with
        nodeChan := mapSet 0 y.nodeChan nd.die pr.2.1
        nodeSc := if sc then mapSet 0 y.nodeSc nd.die pr.2.2 else y.nodeSc }
    let s2 := enterWrites (sched (modNode s1 g n fun y => { y with op := some f.1 }) pr.2.2 .copyComplete [f.1]) f.1 pr.1
      (pr.2.2 - 1)
    if parts = [] then .next s2
    else
      let d := drawIn s2 x.vf s.mer pr.1
      .next (sched d.2 d.1 .copyTranslate [f.1, 0])

/-- SIGNAL (R311). -/
def execSignalNode (s : State) : Host.Outcome State Fault Refusal :=
  let g := argN s 0
  let n := argN s 1
  let nd := nodeOf (getGraph s g) n
  let a := bodyBits nd 184 128
  let v := bodyBits nd 255 192
  if !nodeRuns s g n 3 then .next s
  else if nd.body ≠ a + v * 2 ^ 64 ∨ a % 8 ≠ 0 then .next (nodeFail s g n 1 0)
  else
    let f := addOp s
      { nodeOp s g n .nodeSignal with
        b := a, p := s.mer + 1024, pages := [{ page := a / 4096 * 4096, acc := 1 }]
        parts := [{ dst := a, dstDev := true, data := BitVec.ofNat 64 v, got := true }] }
    .next (sched f.2 s.mer .copyTranslate [f.1, 0])

/-- WAIT (R311): the watch is set up at the first run; a write to the word, or its translation, makes it look. -/
def execWaitNode (s : State) : Host.Outcome State Fault Refusal :=
  let g := argN s 0
  let n := argN s 1
  let nd := nodeOf (getGraph s g) n
  let a := bodyBits nd 184 128
  let th := bodyBits nd 255 192
  let tmo := bodyBits nd 319 256
  if !nodeRuns s g n 4 then .next s
  else
    match nd.op with
    | none =>
      if nd.body ≠ a + th * 2 ^ 64 + tmo * 2 ^ 128 ∨ a % 8 ≠ 0 then .next (nodeFail s g n 1 0)
      else
        let f := addOp s
          { nodeOp s g n .nodeWait with b := a, size := th, pages := [{ page := a / 4096 * 4096, acc := 0 }] }
        let s1 := modNode f.2 g n fun y => { y with op := some f.1 }
        let s2 := if tmo = 0 then s1 else sched s1 (s.mer + tmo) .waitNodeTimeout [g, n, f.1]
        .next (sched s2 s.mer .copyTranslate [f.1, 0])
    | some id =>
      if (getOp s id).granted then .next (nodeDone (modNode (delOp s id) g n fun y => { y with op := none }) g n)
      else .next (watchHit 0 (2 ^ 64) s (id, getOp s id))

/-- WAIT_NODE_TIMEOUT (R311, R313). -/
def execWaitNodeTimeout (s : State) : Host.Outcome State Fault Refusal :=
  let g := argN s 0
  let n := argN s 1
  let id := argN s 2
  if nodeRuns s g n 4 && (nodeOf (getGraph s g) n).op == some id then .next (nodeFail (delOp s id) g n 8 0) else .next s

/-- COND (R311). -/
def execCondNode (s : State) : Host.Outcome State Fault Refusal :=
  let g := argN s 0
  let n := argN s 1
  let x := getGraph s g
  let nd := nodeOf x n
  let a := bodyBits nd 184 128
  let m := bodyBits nd 255 192
  if !nodeRuns s g n 5 then .next s
  else if nd.body ≠ a + m * 2 ^ 64 ∨ a % 8 ≠ 0 then .next (nodeFail s g n 1 0)
  else
    match devRead s x.vf x.sub a 8 with
    | .ok v bad =>
      let s := sawRange s x.vf x.sub a 8
      if bad then .next (nodeFail s g n 9 0)
      else .next (nodeDoneWith s g n fun k => if v &&& m ≠ 0 then k < 2 else 2 ≤ k)
    | r => .next (nodeReadFail s g n r .condNode)

/-- Resolutions of edges out of a loop's body that are still on their way to another die, and starts of its nodes that are
still to come, are void once it repeats. DEDUCED, log 53. -/
def dropEdges (s : State) (g lo i : Nat) : State :=
  { s with agenda := s.agenda.filter fun x =>
      !((x.ev == .crossDieEdge || x.ev == .nodeStart || x.ev == .launchNode) && x.args.getD 0 0 == g
        && decide (lo ≤ x.args.getD 1 0) && decide (x.args.getD 1 0 < i)) }

/-- A loop repeats (R312, R319): its body and itself become pending, edges out of the body are unresolved, and under DET
the base of the next run is the start cycle of the loop node. -/
def repeatLoop (s : State) (g i : Nat) : State :=
  let nd := nodeOf (getGraph s g) i
  let lo := bodyLo nd
  let base := nd.base + nd.off
  let s1 := modGraph (dropEdges s g lo i) g fun x =>
    { x with
      nodes := (List.range x.nodes.length).zipWith (fun j y =>
        if lo ≤ j ∧ j < i then { y with st := .pending, count := 1, base := base, checked := false, lid := none, op := none }
        else if j = i then { y with st := .pending, count := y.count + 1, base := base } else y) x.nodes
      edges := x.edges.filter fun e => !(decide (lo ≤ e.1 / 4) && decide (e.1 / 4 < i)) }
  sweep ((List.range (i + 1)).foldl (fun a j => if lo ≤ j then schedDecision a g j else a) s1) g

/-- LOOP (R312). -/
def execLoopNode (s : State) : Host.Outcome State Fault Refusal :=
  let g := argN s 0
  let i := argN s 1
  let x := getGraph s g
  let nd := nodeOf x i
  let a := bodyBits nd 184 128
  let m := bodyBits nd 255 192
  let mx := bodyBits nd 287 256
  let go (s : State) (more : Bool) : State :=
    if more && decide (nd.count < mx) && !x.failed then repeatLoop s g i else nodeDone s g i
  if !nodeRuns s g i 6 then .next s
  else if nd.body ≠ a + m * 2 ^ 64 + mx * 2 ^ 128 + bodyLo nd * 2 ^ 160 ∨ a % 8 ≠ 0 ∨ mx = 0 then
    .next (nodeFail s g i 1 0)
  else if a = 0 then .next (go s true)
  else
    match devRead s x.vf x.sub a 8 with
    | .ok v bad =>
      let s := sawRange s x.vf x.sub a 8
      if bad then .next (nodeFail s g i 9 0) else .next (go s (v &&& m != 0))
    | r => .next (nodeReadFail s g i r .loopNode)

/-- MASK (R311, R169 to R175): the request of a mask engine of the die, with the mask and trailer in device memory. -/
def execMaskNode (s : State) : Host.Outcome State Fault Refusal :=
  let g := argN s 0
  let n := argN s 1
  let x := getGraph s g
  let nd := nodeOf x n
  let cur := bodyBits nd 184 128
  let img := bodyBits nd 248 192
  let dst := bodyBits nd 312 256
  let vm := bodyBits nd 331 320
  let v := 64 * (vm + 1)
  if !nodeRuns s g n 8 then .next s
  else if nd.body ≠ cur + img * 2 ^ 64 + dst * 2 ^ 128 + vm * 2 ^ 192 ∨ cur % 8 ≠ 0 ∨ img % 64 ≠ 0 ∨ dst % 64 ≠ 0 then
    .next (nodeFail s g n 1 0)
  else if !featOk s x.vf 4 then .next (nodeFail s g n 2 0)
  else if maskEngines s x.vf nd.die = [] then .next (nodeFail s g n 3 0)
  else
    let len := v / 8 + 16
    let k := maskNo s x.vf
    let f := addOp k.2
      { nodeOp s g n .nodeMask with
        recNo := k.1, opc := 0x28, b := cur, size := img, ty := v, p := 2 ^ 64, pages := pageSpan dst len 1
        parts := (List.range (len / 8)).map fun i => { dst := dst + 8 * i, dstDev := true } }
    .next (runMasks (modNode f.2 g n fun y => { y with op := some f.1 }) x.vf nd.die)

/-- CROSS_DIE_EDGE (R320): the edge is resolved on the other die. -/
def execCrossDieEdge (s : State) : Host.Outcome State Fault Refusal :=
  let g := argN s 0
  let e := 4 * argN s 1 + argN s 2
  if !s.graphs.any (fun y => y.1 == g) then .next s
  else .next (endGraph (sweep (modGraph s g fun x => { x with edges := mapSet 0 x.edges e (argN s 3) }) g) g)

/-- DETERMINISTIC_DECISION (R319): a node still pending, a ready one without its resources, or a partition swapped out is
an overrun, and so is a node whose decision cycle had passed when its graph or its loop's run began; a LAUNCH begins its
population, a COPY to the weight store keeps launches from its die (R193), and during a guest switch has not what it needs (R352). One that R391 bars is late when the bar is lifted.
DEDUCED, log 24. -/
def execDeterministicDecision (s : State) : Host.Outcome State Fault Refusal :=
  let g := argN s 0
  let n := argN s 1
  let x := getGraph s g
  let nd := nodeOf x n
  let v := getVf s x.vf
  if !s.graphs.any (fun y => y.1 == g) ∨ x.failed ∨ nd.base ≠ argN s 2 ∨ nd.st = .skipped ∨ nd.st = .done then .next s
  else if nd.st = .pending ∨ !v.resident then .next (overrun s g n)
  else if v.barred ∧ nd.ty = 1 then .next (sched s (s.mer + 256) .deterministicDecision [g, n, nd.base, 1])
  else if argN s 3 = 1 then .next (overrun s g n)
  else if nd.ty = 1 ∧ nd.st = .ready then
    match nd.lid with
    | some l =>
      if launchFree s (getLaunch s l) && !loopWaits x n && !switching s x.vf then .next (startLaunch s g n l)
      else .next (overrun s g n)
    | none => .next (overrun s g n)
  else if wstWaits s g n then .next (overrun s g n)
  else .next (if toWeights nd then modNode s g n fun y => { y with checked := true } else s)

end Sys2Proof.Machine
end

