-- ==== Sys2Proof/Machine/Engines.lean ====
section
/-! DEFINITION. Port and collective engines: their rings, records, the data they move and the status they write (10 R259 to
R266; 12 R311). -/

namespace Sys2Proof.Machine

/-- The number of an engine's ring: port engines 0 to 31, collective engines 32 to 47 (R339, R259). -/
def ringKey (vf e : Nat) : Nat := vf * 64 + e

/-- The engines of one kind that a layout assigns, in ascending engine number (R308). -/
def portEngines (l : Layout) : List Nat := bitsOf l.peng 32
def collEngines (l : Layout) : List Nat := (bitsOf l.ceng 16).map (32 + ·)

/-- Rank r of a group, and the ranks that are functions of this package (R262). -/
def localRanks (s : State) (x : Group) : List Nat :=
  (List.range x.ranks.length).filter fun r => (x.ranks.getD r (0, 0)).1 == s.pkg.pkg
def getGroup (s : State) (g : Nat) : Group := mapGet {} s.pkg.groups g

/-- Element bytes of a collective type code, 0 where it is none (R262, R263, R47). -/
def collBytes (ty : Nat) : Nat :=
  if ty = 2 ∨ ty = 6 ∨ ty = 8 then 4 else if ty = 3 ∨ ty = 7 then 8 else if ty = 9 then 2 else 0

/-- Fields of a collective record (R262). -/
def cRank (r : Nat) : Nat := bits r 105 96
def cCount (r : Nat) : Nat := bits r 191 160
def cNm1 (r : Nat) : Nat := bits r 89 80
def cGroup (r : Nat) : Nat := bits r 159 144
def cRoot (r : Nat) : Nat := bits r 137 128
def cOp (r : Nat) : Nat := bits r 15 8

/-- The first element of chunk j of n (R263). -/
def chunkAt (e n j : Nat) : Nat := j * e / n

/-- Elements that SRC holds and that DST receives (R263). -/
def srcElems (r : Nat) : Nat :=
  let n := cNm1 r + 1
  if cOp r = 3 then chunkAt (cCount r) n (cRank r + 1) - chunkAt (cCount r) n (cRank r)
  else if cOp r = 4 ∧ cRank r ≠ cRoot r then 0 else cCount r
def dstElems (r : Nat) : Nat :=
  let n := cNm1 r + 1
  if cOp r = 2 then chunkAt (cCount r) n (cRank r + 1) - chunkAt (cCount r) n (cRank r) else cCount r

/-- Two byte ranges that overlap without being the same address (R262). -/
def badOverlap (a la b lb : Nat) : Bool :=
  a != b && la != 0 && lb != 0 && decide (a < b + lb) && decide (b < a + la)

/-- The common tail of a record (R260): reserved bits zero and words aligned. -/
def tailOk (r : Nat) : Bool :=
  bits r 447 441 == 0 && bits r 383 377 == 0 && bits r 376 320 % 8 == 0
    && (bits r 16 16 == 0 || bits r 440 384 % 8 == 0)

/-- A port record passes its checks (R261, R266). -/
def portOk (s : State) (vf r : Nat) : Bool :=
  let opc := bits r 15 8
  let qp := mapGet {} s.pkg.qps (bits r 279 256)
  tailOk r && bits r 319 280 == 0 && bits r 191 185 == 0 && bits r 127 57 == 0 && bits r 31 17 == 0 && bits r 7 1 == 0
    && decide (1 ≤ opc) && decide (opc ≤ 4) && bits r 184 128 % 8 == 0 && bits r 56 32 % 8 == 0
    && decide (bits r 56 32 ≤ 2 ^ 24)
    && (if opc ≤ 2 then bits r 279 256 == 0 else s.pkg.qps.any (fun e => e.1 == bits r 279 256) && qp.vf == vf)

/-- A collective record passes its checks (R262, R263): the bytes of a full vector are a multiple of 8, and a chunk may
end within a word. DEDUCED, log 65. -/
def collOk (s : State) (vf r : Nat) : Bool :=
  let g := getGroup s (cGroup r)
  let b := collBytes (bits r 5 2)
  tailOk r && bits r 319 313 == 0 && bits r 255 249 == 0 && bits r 143 138 == 0 && bits r 127 106 == 0
    && bits r 95 90 == 0 && bits r 79 17 == 0 && bits r 1 0 == 0
    && decide (1 ≤ cOp r) && decide (cOp r ≤ 4) && bits r 7 6 != 3 && b != 0
    && decide (1 ≤ cCount r) && decide (cCount r ≤ 2 ^ 21)
    && bits r 312 256 % 8 == 0 && bits r 248 192 % 8 == 0
    && (if cOp r = 4 then decide (cRoot r ≤ cNm1 r) else cRoot r == 0)
    && g.valid && g.ranks.length == cNm1 r + 1 && g.ranks[cRank r]? == some (s.pkg.pkg, vf)
    && cCount r * b % 8 == 0
    && !badOverlap (bits r 248 192) (srcElems r * b) (bits r 312 256) (dstElems r * b)

/-- A record with the bound of R265: an ALLRED of at most 4 KiB. -/
def smallRed (coll : Bool) (r : Nat) : Bool := coll && cOp r == 1 && decide (cCount r * collBytes (bits r 5 2) ≤ 4096)

/-- A record of an engine is taken (R3, R205, R259, R260): one of a declined feature, whatever its words are, then one that
reads poisoned and a MALFORMED one go to their status at once. DESIGN CHOICE, log 41. -/
def submitRecord (s : State) (coll : Bool) (r : Nat) (bad : Bool) (o : Op) : State :=
  let st := if !featOk s o.vf (if coll then 7 else 8) then 2 else if bad then 6
    else if (if coll then collOk s o.vf r else portOk s o.vf r) then 0 else 1
  let opc := bits r 15 8 + (if coll then 16 else 0)
  let x := addOp s
    { o with
      kind := .engine, opc := opc, n := r, status := st, a := if coll then 1 else 0, t0 := s.mer
      ty := if smallRed coll r then 1 else 0 }
  let s1 := match o.ring with
    | some (k, _) => { x.2 with rings := mapSet {} x.2.rings k <|
        { (mapGet {} x.2.rings k : Ring) with open_ := (mapGet ({} : Ring) x.2.rings k).open_ ++ [x.1] } }
    | none =>
      match o.node with
      | some (g, n) => modNode x.2 g n fun y => { y with op := some x.1 }
      | none => x.2
  if st = 0 then sched s1 s.mer (engineEvent opc) [x.1] else sched s1 s.mer .engineRecordComplete [x.1]

/-- The number of records taken goes to the consumed word of ring k (R259): a write that is still to be performed takes
the newer number, so that the word never falls. DESIGN CHOICE, log 41. -/
def putConsumed (s : State) (k : Nat) (o : Op) : State :=
  let x := mapGet ({} : Ring) s.rings k
  let o1 := { o with kind := .cpl, ring := some (k, 0), parts := wordWrite x.consumed (BitVec.ofNat 64 x.taken) }
  match s.ops.find? fun e => e.2.kind == .cpl && e.2.parts != [] && e.2.ring == some (k, 0) with
  | some e => modOp s e.1 fun y => { y with parts := o1.parts }
  | none =>
    let y := addOp s { o1 with b := x.consumed, p := s.mer + 1024, pages := wordPage x.consumed 1 }
    sched y.2 s.mer .copyTranslate [y.1, 0]

/-- What a read for ring k that gave no word leads to; the event ev with its operands is carried out again after a replay. -/
def ringStop (s : State) (o : Op) (r : DevRead) (args : List Nat) : State :=
  match r with
  | .xlate page => holdEvent s o page .ringDoorbell args
  | .perm c dva => eventPerm s o c dva
  | .integrity c pa key => eventIntegrity s o c pa key
  | .ok _ _ => s

/-- What a ring's engine reads and writes for itself is charged to. -/
def ringOp (s : State) (x : Ring) : Op :=
  { kind := .cpl, vf := x.vf, sub := (getVf s x.vf).cursub, die := x.die, instar := instarOf s x.vf, c := s.mer }

/-- The next submitted record of ring k is taken (R259); the others follow it in index order. -/
def takeRingRecord (s : State) (k : Nat) : State :=
  let x := mapGet ({} : Ring) s.rings k
  let o := ringOp s x
  let a := x.base + 64 * (x.taken % 256)
  if x.seen ≤ x.taken then s
  else
    match devRead s x.vf o.sub a 64 with
    | .ok r bad =>
      let s1 := sawRange s x.vf o.sub a 64
      let s2 := putConsumed { s1 with rings := mapSet {} s1.rings k { x with taken := x.taken + 1 } } k o
      sched (submitRecord s2 (x.kind == 1) r bad { o with ring := some (k, x.taken) }) (s.mer + 1) .ringDoorbell [k, 1]
    | e => ringStop s o e [k, 1]

/-- RING_DOORBELL (R259): the doorbell is read, and the records up to the highest count that it has shown are taken; with
operand 1 set the next of them is. A doorbell that reads poisoned is left until its next write. DESIGN CHOICE, log 41. -/
def execRingDoorbell (s : State) : Host.Outcome State Fault Refusal :=
  let k := argN s 0
  let x := mapGet ({} : Ring) s.rings k
  let o := ringOp s x
  if !s.rings.any (fun e => e.1 == k) then .next s
  else if argN s 1 = 1 then .next (takeRingRecord s k)
  else
    match devRead s x.vf o.sub x.bell 8 with
    | .ok v false =>
      let s1 := sawRange s x.vf o.sub x.bell 8
      let s2 := { s1 with rings := mapSet {} s1.rings k { x with seen := max x.seen v } }
      .next (if s.agenda.any fun i => i.ev == .ringDoorbell && i.args == [k, 1] then s2 else takeRingRecord s2 k)
    | .ok _ true => .next s
    | e => .next (ringStop s o e [k])

/-- ORD (R261): an earlier record of the ring has no status yet. -/
def ordBlocked (s : State) (id : Nat) : Bool :=
  let o := getOp s id
  match o.ring with
  | some (k, _) => o.a == 0 && o.n % 2 == 1 && (mapGet ({} : Ring) s.rings k).open_.any fun i => decide (i < id)
  | none => false

/-- The reads or writes of an engine record leave in the 1,024 cycles from now (R227, R264). -/
def engineMove (s : State) (id : Nat) (parts : List Part) (pages : List PageReq) : State :=
  let s1 := modOp s id fun o => { o with parts := parts, pages := pages, t0 := s.mer, p := s.mer + 1024 }
  if parts = [] then sched s1 s.mer (engineEvent (getOp s id).opc) [id]
  else
    let d := drawIn s1 (getOp s id).vf s.mer (s.mer + 512)
    sched d.2 d.1 .copyTranslate [id, 0]

/-- The words of a device range of n bytes as sources, and as destinations of given words (R261, R263). -/
def engineReads (a n : Nat) : List Part := (List.range ((n + 7) / 8)).map fun i => { src := a + 8 * i, srcDev := true }
def engineWrites (a n : Nat) (l : List (Nat × Bool)) : List Part :=
  (List.range l.length).zipWith (fun i v => { dst := a + 8 * i, dstDev := true, got := true, bytes := min 8 (n - 8 * i)
                                              data := BitVec.ofNat 64 v.1, bad := v.2 }) l

/-- The status with which a record ends: what it still had to do is given up. -/
def endRecord (s : State) (id status : Nat) : State :=
  sched (modOp (dropEvents s id) id fun o => { o with status := status, held := none, parts := [] }) s.mer
    .engineRecordComplete [id]

/-- Draw n words of data that come from outside the package; with mark set some may be poisoned. -/
def drawWords (s : State) (vf n : Nat) (mark : Bool) : List (Nat × Bool) × State :=
  match n with
  | 0 => ([], s)
  | m + 1 =>
    let d := draw s vf 0 (2 ^ 64 - 1)
    let b := if mark then draw d.2 vf 0 1 else (0, d.2)
    let r := drawWords b.2 vf m mark
    ((d.1, b.1 == 1) :: r.1, r.2)

/-- The n words of host memory at an IOVA of a function, under its PASID (R261); one that crosses two host words is
poisoned with either. -/
def hostWords (s : State) (vf iova n : Nat) : List (Nat × Bool) :=
  (List.range n).map fun i =>
    let a := hostAddr (getVf s vf).pasid (iova + 8 * i)
    (rdMem s.mem a 8, poisoned s (a / 8) || poisoned s ((a + 7) / 8))

/-- An engine's words enter host memory: host words that they cover whole are clean, and then those that a poisoned one
touches arrive poisoned (R205). -/
def hostStore (s : State) (vf iova : Nat) (ps : List Part) : State :=
  let at_ (i : Nat) : Nat := hostAddr (getVf s vf).pasid (iova + 8 * i)
  let s1 := (List.range ps.length).foldl (fun m i =>
    let m1 := { m with mem := wrMem m.mem (at_ i) 8 (ps.getD i {}).data.toNat }
    if at_ i % 8 = 0 ∨ 0 < i then setPoison m1 (at_ i / 8) false else m1) s
  (List.range ps.length).foldl (fun m i =>
    if (ps.getD i {}).bad then setPoison (setPoison m (at_ i / 8) true) ((at_ i + 7) / 8) true else m) s1

/-- POISONED where a word was delivered poisoned (R260). -/
def poisonStatus (l : List Part) : Nat := if l.any (·.bad) then 6 else 0

/-- A port record that brings data in (R261): its words are obtained, and every write performed ends it. -/
def portIn (s : State) (id : Nat) (words : List (Nat × Bool)) : State :=
  let o := getOp s id
  let a := bits o.n 184 128
  if o.granted then (if allPerformed o then endRecord s id (poisonStatus o.parts) else s)
  else
    engineMove (modOp s id fun x => { x with granted := true, status := if words.any (·.2) then 6 else 0 }) id
      (engineWrites a (bits o.n 56 32) words) (pageSpan a (bits o.n 56 32) 1)

/-- A port record that takes data out (R261): its words are read first. -/
def portOut (s : State) (id : Nat) (send : State → List Part → State) : State :=
  let o := getOp s id
  let a := bits o.n 184 128
  if o.granted then (if o.parts.all (·.got) then endRecord (send s o.parts) id (poisonStatus o.parts) else s)
  else engineMove (modOp s id fun x => { x with granted := true }) id (engineReads a (bits o.n 56 32))
    (pageSpan a (bits o.n 56 32) 0)

/-- A record that may be carried out now: present, undecided, and not held back by ORD. -/
def recordRuns (s : State) (id : Nat) : Bool :=
  hasOp s id && !(getOp s id).complete && !ordBlocked s id

/-- What the host answers to an access of an engine (R261): 1 refuses it, as an Insecure stream does (R398).
DESIGN CHOICE, log 42. -/
def hostAnswer (s : State) (vf : Nat) : Nat × State := if linkCut s vf then (1, s) else draw s vf 0 1

/-- HOSTRD (R261): host words to the device; the host may refuse the access. -/
def execHostrd (s : State) : Host.Outcome State Fault Refusal :=
  let id := argN s 0
  let o := getOp s id
  if !recordRuns s id then .next s
  else
    let d := if o.granted then (0, s) else hostAnswer s o.vf
    if d.1 = 1 then .next (endRecord d.2 id 3)
    else .next (portIn d.2 id (hostWords s o.vf (bits o.n 255 192) (bits o.n 56 32 / 8)))

/-- HOSTWR (R261): device words to the host, which may refuse them. -/
def execHostwr (s : State) : Host.Outcome State Fault Refusal :=
  let id := argN s 0
  let o := getOp s id
  if !recordRuns s id then .next s
  else
    let d := if o.granted && o.parts.all (·.got) then hostAnswer s o.vf else (0, s)
    if d.1 = 1 then .next (endRecord d.2 id 3)
    else .next (portOut d.2 id fun a ps => hostStore a o.vf (bits o.n 255 192) ps)

/-- The record's answer from the far side of its queue pair (R266): 0 it is served, 1 refused, 2 none.
DESIGN CHOICE, log 42. -/
def rdmaAnswer (s : State) (id : Nat) : Nat × State :=
  if (getOp s id).granted then (0, s)
  else
    let d := draw s (getOp s id).vf 0 2
    (d.1, sched d.2 (s.mer + 40000000) .engineRecordTimeout [id])

/-- The message of an RDMA WRITE; poisoned data is not sent (R205, R266). -/
def rdmaSend (r : Nat) (s : State) (ps : List Part) : State :=
  if ps.any (·.bad) then s
  else { s with out := s.out ++ [.remote (bits r 279 256) (bits r 255 192) (ps.flatMap fun p => bytesOfNat 8 p.data.toNat)] }

/-- RDMAWR and RDMARD (R261, R266). -/
def execRdmawr (s : State) : Host.Outcome State Fault Refusal :=
  let id := argN s 0
  if !recordRuns s id then .next s
  else
    let d := rdmaAnswer s id
    if d.1 = 1 then .next (endRecord d.2 id 3)
    else if d.1 = 2 then .next d.2
    else .next (portOut d.2 id (rdmaSend (getOp s id).n))
def execRdmard (s : State) : Host.Outcome State Fault Refusal :=
  let id := argN s 0
  let o := getOp s id
  if !recordRuns s id then .next s
  else
    let d := rdmaAnswer s id
    if d.1 = 1 then .next (endRecord d.2 id 3)
    else if d.1 = 2 then .next d.2
    else if o.granted then .next (portIn d.2 id [])
    else
      let w := drawWords d.2 o.vf (bits o.n 56 32 / 8) false
      .next (portIn w.2 id w.1)

/-- The fields of a collective record on which every rank of one operation agrees (R262). -/
def collKey (r : Nat) : List Nat := [cOp r, bits r 7 2, cRoot r, cNm1 r, cGroup r, cCount r]

/-- The record of a function for a group that waits longest, if its source has been read (R262, R264). -/
def waitingRank (s : State) (g vf : Nat) : Option Nat :=
  match s.ops.find? fun e => e.2.kind == .engine && e.2.a == 1 && e.2.vf == vf && e.2.status == 0 && !e.2.watching
      && !e.2.complete && cGroup e.2.n == g with
  | some e => if e.2.granted && e.2.parts.all (·.got) then some e.1 else none
  | none => none

/-- An element of a rank: its bits and whether it is poisoned (R263). -/
def elemOf (ps : List Part) (b i : Nat) : Nat × Bool :=
  let p := ps.getD (i * b / 8) {}
  (p.data.toNat / 2 ^ (8 * (i * b % 8)) % 2 ^ (8 * b), p.bad)

/-- Node of the tree for a type and reduction (R92, R263). -/
def collNode (rop ty : Nat) (x y : Nat × Bool) : Nat × Bool :=
  let v := if rop = 0 then
      (if tyFloat ty then (nodeAddF (fmtOf ty) (x.1, 0) (y.1, 0)).1 else (x.1 + y.1) % 2 ^ tyWidth ty)
    else if tyFloat ty then (nodeMaxF (fmtOf ty) (rop == 2) (x.1, 0) (y.1, 0)).1
    else pickInt (tySigned ty) (tyWidth ty) (rop == 2) x.1 y.1
  (v, x.2 || y.2)

/-- What each rank of a group contributes (R262): the words it read, or words from another package, which may be
poisoned. -/
def rankParts (s : State) (vf r : Nat) (ids : List (Option Nat)) : List (List Part) × State :=
  match ids with
  | [] => ([], s)
  | some id :: t =>
    let x := rankParts s vf r t
    ((getOp s id).parts :: x.1, x.2)
  | none :: t =>
    let n := cCount r * collBytes (bits r 5 2)
    let w := drawWords s vf ((n + 7) / 8) true
    let x := rankParts w.2 vf r t
    (engineWrites 0 n w.1 :: x.1, x.2)

/-- Element i of the result that rank k receives (R263); a reduction's NaN is the canonical one, for one rank too (R81).
-/
def collElem (r k : Nat) (ranks : List (List Part)) (i : Nat) : Nat × Bool :=
  let n := cNm1 r + 1
  let b := collBytes (bits r 5 2)
  let sum (j : Nat) : Nat × Bool :=
    let v := canonSum (collNode (bits r 7 6) (bits r 5 2)) (0, false) 11 (ranks.map fun p => elemOf p b j)
    (canonLane (bits r 5 2) v.1, v.2)
  match cOp r with
  | 1 => sum i
  | 2 => sum (chunkAt (cCount r) n k + i)
  | 3 =>
    let j := ((List.range n).find? fun j => decide (i < chunkAt (cCount r) n (j + 1))).getD 0
    elemOf (ranks.getD j []) b (i - chunkAt (cCount r) n j)
  | _ => elemOf (ranks.getD (cRoot r) []) b i

/-- Pack elements of b bytes into words, the last of which may be partly filled. -/
def packElems (b : Nat) (l : List (Nat × Bool)) : List (Nat × Bool) :=
  (List.range ((l.length * b + 7) / 8)).map fun w =>
    let es := (l.drop (w * 8 / b)).take (8 / b)
    (es.foldr (fun e acc => e.1 + 2 ^ (8 * b) * acc) 0, es.any (·.2))

/-- The result leaves for the destination of one local rank (R263, R264). -/
def collWrite (r : Nat) (ranks : List (List Part)) (s : State) (id : Nat) : State :=
  let m := (getOp s id).n
  let b := collBytes (bits r 5 2)
  let n := dstElems m * b
  let ws := packElems b ((List.range (dstElems m)).map (collElem r (cRank m) ranks))
  engineMove (modOp s id fun o => { o with watching := true, status := if ws.any (·.2) then 6 else 0 }) id
    (engineWrites (bits m 312 256) n ws) (pageSpan (bits m 312 256) n 1)

/-- Records of a group whose source words are read are looked at again: one that stood before them is over (R262). -/
def wakeGroup (s : State) (g : Nat) : State :=
  s.ops.foldl (fun a e =>
    if e.2.kind = .engine ∧ e.2.a = 1 ∧ e.2.granted ∧ !e.2.watching ∧ !e.2.complete ∧ e.2.status = 0 ∧ cGroup e.2.n = g
      ∧ e.2.parts.all (·.got) then schedOnce a (engineEvent e.2.opc) e.1
    else a) s

/-- Once every rank of this package has its source words, the operation is formed; a rank elsewhere may not respond
(R262 to R264). Ranks whose records do not agree wait for their timeout. DESIGN CHOICE, log 65. The records behind those
that are joined are looked at then. -/
def collJoin (s : State) (id : Nat) : State :=
  let r := (getOp s id).n
  let g := getGroup s (cGroup r)
  let ids := g.ranks.map fun x => if x.1 = s.pkg.pkg then waitingRank s (cGroup r) x.2 else none
  let mine := ids.filterMap (fun i => i)
  let far := decide (mine.length < g.ranks.length)
  if mine.length = (localRanks s g).length ∧ mine.all (fun i => collKey (getOp s i).n == collKey r) then
    let d := if far then draw s (getOp s id).vf 0 1 else (0, s)
    if d.1 = 1 then d.2
    else
      let x := rankParts d.2 (getOp s id).vf r ids
      wakeGroup (mine.foldl (collWrite r x.1) x.2) (cGroup r)
  else s

/-- A collective record (R263, R264): its source is read, the ranks are joined, its destination written, its status. -/
def collStep (s : State) : State :=
  let id := argN s 0
  let o := getOp s id
  if !recordRuns s id then s
  else if !o.granted then
    let n := srcElems o.n * collBytes (bits o.n 5 2)
    let s1 := sched (modOp s id fun x => { x with granted := true }) (s.mer + 40000000) .engineRecordTimeout [id]
    engineMove s1 id (engineReads (bits o.n 248 192) n) (pageSpan (bits o.n 248 192) n 0)
  else if !o.watching then collJoin s id
  else if allPerformed o then endRecord s id (poisonStatus o.parts)
  else s

/-- ALLRED, REDSCAT, ALLGATH, BCAST (R263). -/
def execAllred (s : State) : Host.Outcome State Fault Refusal := .next (collStep s)
def execRedscat (s : State) : Host.Outcome State Fault Refusal := .next (collStep s)
def execAllgath (s : State) : Host.Outcome State Fault Refusal := .next (collStep s)
def execBcast (s : State) : Host.Outcome State Fault Refusal := .next (collStep s)

/-- How a record's status ends its node (R311, R305). -/
def nodeStatus (s : State) (g n st : Nat) : State :=
  match st with
  | 0 => nodeDone s g n
  | 1 => nodeFail s g n 1 0
  | 2 => nodeFail s g n 2 0
  | 3 => nodeFail s g n 11 0
  | 4 => nodeFail s g n 6 0x21
  | 5 => nodeFail s g n 8 0
  | _ => nodeFail s g n 9 0

/-- A record is finished: its ring goes on with the records that have waited for it (R261), or its node ends. -/
def closeRecord (s : State) (id : Nat) : State :=
  let o := getOp s id
  let s1 := delOp s id
  match o.ring, o.node with
  | some (k, _), _ =>
    let x := mapGet ({} : Ring) s1.rings k
    let l := x.open_.filter (· != id)
    l.foldl (fun a i =>
      let y := getOp a i
      if y.granted ∨ y.status ≠ 0 ∨ !ordBlocked s i then a else schedOnce a (engineEvent y.opc) i)
      { s1 with rings := if s1.rings.any (fun e => e.1 == k) then mapSet {} s1.rings k { x with open_ := l } else s1.rings }
  | none, some (g, n) => nodeStatus s1 g n o.status
  | none, none => s1

/-- One word that an engine writes as a release: the status or the signal of a record (R260). -/
def releaseWord (s : State) (id phase dva v : Nat) : State :=
  let d := drawIn (dropEvents s id) (getOp s id).vf s.mer (s.mer + 512)
  sched (modOp d.2 id fun o =>
    { o with complete := true, result := phase, parts := engineWrites dva 8 [(v, false)], pages := pageSpan dva 8 1
             t0 := s.mer, p := s.mer + 1024 }) d.1 .copyTranslate [id, 0]

/-- ENGINE_RECORD_COMPLETE (R260): the status word is written, then the signal, each performed before what follows; a word
that cannot be written is left. A record of a declined feature has no effect but its status (R3); one with any other
status writes its signal. DEDUCED, log 41. The collective records behind it may go on now. -/
def execEngineRecordComplete (s : State) : Host.Outcome State Fault Refusal :=
  let id := argN s 0
  let o := getOp s id
  if !hasOp s id then .next s
  else if !o.complete then
    let a := bits o.n 376 320
    let s := if o.a = 1 then wakeGroup s (cGroup o.n) else s
    if a % 8 = 0 then .next (releaseWord s id 1 a o.status) else .next (closeRecord s id)
  else if o.result = 1 ∧ o.status ≠ 2 ∧ bits o.n 16 16 = 1 ∧ bits o.n 440 384 % 8 = 0 ∧ allPerformed o ∧ o.parts ≠ [] then
    .next (releaseWord s id 2 (bits o.n 440 384) (bits o.n 511 448))
  else .next (closeRecord s id)

/-- ENGINE_RECORD_TIMEOUT (R260, R266): a record not finished within 10 ms ends with TIMEOUT. -/
def execEngineRecordTimeout (s : State) : Host.Outcome State Fault Refusal :=
  let id := argN s 0
  let o := getOp s id
  if hasOp s id && !o.complete && (decide (o.opc < 16) || !o.watching) then .next (endRecord s id 5) else .next s

/-- A COLL or PORT node submits its record to an engine of the partition (R311, R27); a declined feature comes first, so
that neither the engine nor the record is looked at (R3). -/
def submitNode (s : State) (g n ty : Nat) (a e : Nat) (es : List Nat) (ev : Instr) : State :=
  let x := getGraph s g
  if !featOk s x.vf (if ty = 7 then 7 else 8) then nodeFail s g n 2 0
  else match es[e]? with
  | none => nodeFail s g n 3 0
  | some _ =>
    match devRead s x.vf x.sub a 64 with
    | .ok r bad =>
      let s := sawRange s x.vf x.sub a 64
      if bad then nodeFail s g n 9 0 else submitRecord s (ty == 7) r false (nodeOp s g n .engine)
    | f => nodeReadFail s g n f ev

/-- COLL and PORT (R311); a malformed node of a declined feature is malformed. DESIGN CHOICE, log 63. -/
def execCollNode (s : State) : Host.Outcome State Fault Refusal :=
  let g := argN s 0
  let n := argN s 1
  let x := getGraph s g
  let nd := nodeOf x n
  let a := bodyBits nd 184 128
  let e := bodyBits nd 195 192
  if !nodeRuns s g n 7 ∨ nd.op.isSome then .next s
  else if nd.body ≠ a + e * 2 ^ 64 then .next (nodeFail s g n 1 0)
  else .next (submitNode s g n 7 a e (collEngines (getVf s x.vf).layout) .collNode)
def execPortNode (s : State) : Host.Outcome State Fault Refusal :=
  let g := argN s 0
  let n := argN s 1
  let x := getGraph s g
  let nd := nodeOf x n
  let a := bodyBits nd 184 128
  let e := bodyBits nd 196 192
  if !nodeRuns s g n 9 ∨ nd.op.isSome then .next s
  else if nd.body ≠ a + e * 2 ^ 64 ∨ a % 64 ≠ 0 then .next (nodeFail s g n 1 0)
  else .next (submitNode s g n 9 a e (portEngines (getVf s x.vf).layout) .portNode)

/-- A ring of an engine as firmware sets it up at layout commit (R259): where its records and words lie is free, and its
home die is the partition's lowest (R389). DESIGN CHOICE, log 41. -/
def addRing (vf : Nat) (s : State) (e : Nat) : State :=
  let b := draw s vf 0 (2 ^ 45 - 5)
  let d := draw b.2 vf 0 (2 ^ 54 - 1)
  let c := draw d.2 vf 0 (2 ^ 54 - 1)
  { c.2 with rings := mapSet {} c.2.rings (ringKey vf e) <|
      { vf := vf, kind := if e < 32 then 0 else 1, die := (bitsOf (diesOf s vf) 4).headD 0
        base := b.1 * 4096, bell := d.1 * 8, consumed := c.1 * 8 } }
def setRings (s : State) (vf : Nat) : State :=
  let l := (getVf s vf).layout
  (portEngines l ++ collEngines l).foldl (addRing vf) { s with rings := s.rings.filter fun e => e.2.vf != vf }

end Sys2Proof.Machine
end

