-- ==== Sys2Proof/Machine/Priv.lean ====
section
/-! DEFINITION. The privileged instructions and their replies: device memory by physical address, control space, and the
state of frozen threads (08 R237, R238, R406; 11 R270; 17 R375, R382; 18 R387, R392). -/

namespace Sys2Proof.Machine

/-- Word i of a fault record (R387). -/
def recWord (r : FaultRec) (clean : Bool) (i : Nat) : Nat :=
  let b (x : Bool) : Nat := if x then 1 else 0
  match i with
  | 0 =>
    r.code % 256 + r.cause % 256 * 2 ^ 8 + r.unit % 8 * 2 ^ 16 + b r.fatal * 2 ^ 34 + b clean * 2 ^ 35
      + b r.merged * 2 ^ 36 + b r.sidv * 2 ^ 37 + r.slotid % 2 ^ 14 * 2 ^ 38 + r.vf % 2 ^ 12 * 2 ^ 52
  | 1 => r.mer % 2 ^ 64
  | 2 => r.pc % 2 ^ 14 + r.nextpc % 2 ^ 14 * 2 ^ 14 + r.tgt % 2 ^ 14 * 2 ^ 28 + r.dsl % 4 * 2 ^ 42
  | 3 => r.launch % 2 ^ 32 + r.instar % 2 ^ 32 * 2 ^ 32
  | 4 => r.addr % 2 ^ 64
  | 5 => r.d5 % 2 ^ 64
  | 6 => r.d6 % 2 ^ 64
  | 7 => r.d7 % 2 ^ 64
  | _ => 0

/-- The record with its word i written (R238, R387): NEXTPC, TGT and DSL of word 2 are what a CONTINUE uses, and every
other field is read-only (R11). DEDUCED, log 26. -/
def setRecWord (r : FaultRec) (i v : Nat) : FaultRec :=
  if i = 2 then { r with nextpc := v / 2 ^ 14 % 2 ^ 14, tgt := v / 2 ^ 28 % 2 ^ 14, dsl := v / 2 ^ 42 % 4 } else r

/-- Park codes (R271). -/
def parkCode (p : Park) : Nat :=
  match p with
  | .results _ => 1 | .cost _ => 2 | .xreg => 3 | .replyEmpty => 4 | .replyFull => 5 | .copyLimit => 6
  | .missed => 7 | .mqFull => 8 | .take _ => 9 | .put _ => 10 | .sync _ => 11 | .sleep _ => 12
  | .sigw _ => 13 | .fence _ _ => 14 | .gate _ => 15 | .send => 16 | .priv _ => 17

/-- STATE of a context (R270). -/
def stateCode (x : ThreadSt) : Nat :=
  match x with
  | .empty => 0 | .populated => 1 | .running => 2 | .parked => 3 | .frozen => 4 | .stopped => 5 | .saved => 6
  | .exited => 7

/-- The state word of a context (R270). -/
def stateWord (th : Thread) : Nat :=
  let park := if th.st = .parked ∨ th.st = .stopped then th.parks.head? else none
  let code := (park.map parkCode).getD 0
  let dom := match park with
    | some (.sync d) => d
    | _ => 0
  stateCode th.st + dom * 2 ^ 8 + code * 2 ^ 16 + (if th.st = .frozen then th.fault else 0) * 2 ^ 32

/-- Words of the format context (R138). -/
def fmtWord (f : FmtCtx) (i : Nat) : Nat :=
  match i with
  | 0 => f.atype + f.btype * 4 + f.acct * 16
  | 1 => f.aoff
  | 2 => f.boff
  | 3 => f.moff
  | 4 => f.mseedv
  | _ => 0

/-- A word of the format context as WINWR writes it (R238), whatever combination of types it names (R139). DEDUCED, log
26. -/
def setFmtWord (f : FmtCtx) (i v : Nat) : FmtCtx :=
  match i with
  | 0 => { f with atype := v % 4, btype := v / 4 % 4, acct := v / 16 % 2 }
  | 1 => { f with aoff := v % 2 ^ 32 }
  | 2 => { f with boff := v % 2 ^ 32 }
  | 3 => { f with moff := v % 2 ^ 32 }
  | 4 => { f with mseedv := v % 2 ^ 32 }
  | _ => f

/-- A context that WINRD and WINWR reach (R238): on the issuing core's die and frozen. -/
def inWindow (s : State) (t target : Nat) : Bool :=
  dieOf target == dieOf t && decide (target < 2 ^ 14) && decide (coreOf target < 144)
    && (getTh s target).st == .frozen

/-- Whether every result in flight of a context has landed, those of its queued MDRAINVs too (R387 CLEAN, R147). -/
def isClean (s : State) (t : Nat) : Bool :=
  (getTh s t).pend.isEmpty && (peerLoads s t).isEmpty && !(getTh s t).mq.any fun q => q.kind == .mdrainv

/-- The item of class cls and index i of a context (R238). -/
def winRead (s : State) (t cls i : Nat) : Nat :=
  let th := getTh s t
  match cls with
  | 0 => if i < 32 then (rdS th i).toNat else 0
  | 1 => if i < 384 then (rdVp th (i / 8)).toNat / 2 ^ (64 * (i % 8)) % 2 ^ 64 else 0
  | 2 => if i < 8 then (rdP th i).toNat else 0
  | 3 => if i < 32 then (mapGet 0 th.xreg i).toNat else 0
  | 4 =>
    if i = 0 then th.pres.toNat
    else if i ≤ 8 then ((th.inbox.getD (i - 1) {}).val).toNat
    else if i ≤ 16 then
      (match th.inbox[i - 9]? with
       | some m => m.reg + (if m.held then 0 else 2 ^ 63)
       | none => 0)
    else 0
  | 5 =>
    if i = 0 then s.mer % 2 ^ 64 else if i = 1 then t else if i = 2 then th.lc.toNat else if i = 3 then th.rrb
    else if i = 4 then th.seed.toNat else if i = 5 then th.fst.toNat else if i = 6 then th.tst.toNat
    else if i = 7 then th.phase.toNat else if i = 8 then th.spcnt.toNat
    else if i = 9 then instarOf s th.vf % 2 ^ 32 else if i = 10 then th.lidx.toNat else if i = 11 then th.pres.toNat
    else if i = 12 then th.launch.toNat else 0
  | 6 => if i = 0 then th.frec.nextpc else if i = 1 then stateWord th else 0
  | 7 => if i < 2048 then (mapGet 0 th.tiles i).toNat else 0
  | 8 => fmtWord th.fmt i
  | 9 => recWord th.frec (isClean s t) i
  | _ => 0

/-- The inbox with entry i edited (R238): the entries before it keep their places, and one that holds no message is
invalid. -/
def editInbox (l : List Msg) (i : Nat) (f : Msg → Msg) : List Msg :=
  (l ++ List.replicate (i + 1 - l.length) ({ held := true } : Msg)).modify i f

/-- Write the item of class cls and index i of a context (R238). DEDUCED, log 26. -/
def winWrite (th : Thread) (cls i v : Nat) : Thread :=
  match cls with
  | 0 => if i < 32 then goodParity (wrS th i (BitVec.ofNat 64 v)) i else th
  | 1 =>
    if i < 384 then
      let m := (2 ^ 64 - 1) * 2 ^ (64 * (i % 8))
      goodPieces (wrVp th (i / 8) (v * 2 ^ (64 * (i % 8))) m) (i / 8) m
    else th
  | 2 => if i < 8 then goodParity (wrP th i (v % 2 ^ 16) (2 ^ 16 - 1)) (128 + i) else th
  | 3 => if i < 32 then goodParity { th with xreg := mapSet 0 th.xreg i (BitVec.ofNat 64 v) } (224 + i) else th
  | 4 =>
    if i = 0 then { th with pres := BitVec.ofNat 32 v }
    else if i ≤ 8 then { th with inbox := editInbox th.inbox (i - 1) fun m => { m with val := BitVec.ofNat 64 v } }
    else if i ≤ 16 then
      { th with inbox := editInbox th.inbox (i - 9) fun m => { m with reg := v % 32, held := v / 2 ^ 63 % 2 == 0 } }
    else th
  | 5 =>
    if i = 2 then { th with lc := BitVec.ofNat 64 v } else if i = 3 then { th with rrb := v % 24 }
    else if i = 4 then { th with seed := BitVec.ofNat 32 v } else if i = 5 then { th with fst := BitVec.ofNat 5 v }
    else if i = 6 then { th with tst := BitVec.ofNat 33 v } else if i = 7 then { th with phase := BitVec.ofNat 4 v }
    else if i = 8 then { th with spcnt := BitVec.ofNat 32 v } else if i = 11 then { th with pres := BitVec.ofNat 32 v }
    else th
  | 6 => if i = 0 then { th with frec := { th.frec with nextpc := v % 2 ^ 14 } } else th
  | 7 => if i < 2048 then goodParity { th with tiles := mapSet 0 th.tiles i (BitVec.ofNat 32 v) } (1024 + i) else th
  | 8 => { th with fmt := setFmtWord th.fmt i v }
  | 9 => { th with frec := setRecWord th.frec i v }
  | _ => th

/-- Entries of a trap queue by kind: ordinary, reserved (R391). -/
def ordinary (c : Collector) : Nat := (c.queue.filter fun e => !e.2).length
def reserved (c : Collector) : Nat := (c.queue.filter fun e => e.2).length

/-- TQCNT (R392). -/
def tqcnt (c : Collector) : Nat :=
  ordinary c % 64 + reserved c % 8 * 2 ^ 8 + (if c.input = [] then 0 else 2 ^ 16)

/-- SCPROG of a scrub engine (R379). -/
def scprog (e : Scrub) : Nat := e.st % 4 + e.next / 4096 * 4096 % 2 ^ 48

/-- KEYST of a slot (R376). -/
def keyst (k : KeySlot) : Nat := k.st + k.kind * 2 ^ 4 + (if k.st = 0 then 0 else k.owner) * 2 ^ 16

/-- The collector that an address of R392 names, with its offset. -/
def colAddr (a : Nat) : Option (Nat × Nat) :=
  if 0x04000000 ≤ a ∧ a < 0x04100000 ∧ a % 2 ^ 18 < 0x8000 then
    some (collector ((a - 0x04000000) / 2 ^ 18) (a % 2 ^ 18 / 2 ^ 12), a % 2 ^ 12)
  else none

/-- The scrub engine and offset that an address names (R375). -/
def scrubAddr (a : Nat) : Option (Nat × Nat) :=
  if 0x01000000 ≤ a ∧ a < 0x01000800 then some ((a - 0x01000000) / 2 ^ 8, a % 2 ^ 8) else none

/-- BRKARM's address (R392): the die. -/
def brkAddr (a : Nat) : Option Nat :=
  if 0x04000000 ≤ a ∧ a < 0x04100000 ∧ a % 2 ^ 18 = 0x8000 then some ((a - 0x04000000) / 2 ^ 18) else none

/-- A control register as PRLD reads it (R375, R392); an address that names none, or a write-only one, reads zero. -/
def ctlSpaceRead (s : State) (a : Nat) : Nat :=
  if 0x00108000 ≤ a ∧ a < 0x00110000 then keyst (keySlot s ((a - 0x00108000) / 8))
  else if a = 0x00200008 then s.pkg.bndstat
  else
    match scrubAddr a, colAddr a, brkAddr a with
    | some (j, o), _, _ =>
      let e := mapGet {} s.scrubs j
      if o = 0 then e.lo else if o = 8 then e.hi else if o = 0x18 then scprog e else 0
    | _, some (c, o), _ =>
      let q := getCol s c
      if o = 0 then tqcnt q
      else if 0x40 ≤ o ∧ o < 0x80 then
        (match q.queue.head? with
         | some r => recWord r.1 false ((o - 0x40) / 8)
         | none => 0)
      else if o = 0x88 then q.sumMissed + q.sumLatent * 2 ^ 32
      else if o = 0x90 then q.ovf
      else if o = 0x98 then q.ovfn
      else if o = 0xA8 then q.supstat
      else 0
    | _, _, some d => mapGet 0 s.pkg.brkarm d
    | _, _, _ => 0

/-- Control registers whose write has no step of its own take it with the reply (R375, R379, R392). -/
def ctlSpaceWrite (s : State) (a v : Nat) : State :=
  match scrubAddr a, colAddr a, brkAddr a with
  | some (j, o), _, _ =>
    let e := mapGet {} s.scrubs j
    if e.st = 1 ∨ e.st = 3 then s
    else if o = 0 then { s with scrubs := mapSet {} s.scrubs j { e with lo := v % 2 ^ 48 } }
    else if o = 8 then { s with scrubs := mapSet {} s.scrubs j { e with hi := v % 2 ^ 48 } }
    else s
  | _, some (c, o), _ =>
    if o = 0x88 then modCol s c fun q => { q with sumMissed := v % 2 ^ 32, sumLatent := v / 2 ^ 32 }
    else if o = 0x98 then modCol s c fun q => { q with ovfn := v % 2 ^ 32 }
    else if o = 0xB0 then modCol s c fun q => { q with replayvf := v % 2 ^ 16 }
    else s
  | _, _, some d => { s with pkg := { s.pkg with brkarm := mapSet 0 s.pkg.brkarm d (v % 256) } }
  | _, _, _ => s

/-- The step that a control-space write of v at address a asks for, with its operands after the request's number, and
the bound on its effect (R375, R392, R393, R406). -/
def ctlStep (a v : Nat) : Option (Instr × List Nat × Nat × Nat) :=
  if a = 0x00100000 then some (if v / 2 ^ 12 % 2 = 1 then .keyzFree else .keyzZeroise, [v % 2 ^ 13], 1, 3072)
  else if a = 0x00200000 then some (if v % 2 = 1 then .bndreqRelease else .bndreqBind, [v], 1, 3072)
  else if 0x02000000 ≤ a ∧ a < 0x02100000 ∧ a % 2 ^ 8 = 0 ∧ a % 2 ^ 18 / 2 ^ 8 < 144 then
    some (.bzero, [(a - 0x02000000) / 2 ^ 18, a % 2 ^ 18 / 2 ^ 8, v % 256], 512, 768)
  else if 0x03000000 ≤ a ∧ a < 0x03100000 ∧ a % 2 ^ 18 = 0 then
    some (.chzero, [(a - 0x03000000) / 2 ^ 18, v % 2 ^ 32], 1, 512 + 1024 * (v / 2 ^ 16 % 2 ^ 16))
  else
    match scrubAddr a, colAddr a with
    | some (j, o), _ => if o = 0x10 then some (.scrubStart, [j, v], 1, 512) else none
    | _, some (c, o) =>
      if o = 0x80 then some (.tqpop, [c], 1, 512)
      else if o = 0x98 ∧ v % 2 ^ 32 = 0 then some (.tqovfnClear, [c], 1, 512)
      else if o = 0xB8 then some (if v % 2 = 1 then .replaypgUnfixable else .replaypgReplay, [c, v], 1, 512)
      else if o = 0xA0 then
        let act := v / 2 ^ 16 % 8
        some (if act = 1 then .supContinue else if act = 2 then .supRestart else if act = 3 then .supKill
              else if act = 4 then .supStop else .badAction, [c, v], 1, 512)
      else none
    | _, _ => none

/-- The acknowledgement of a control-space write whose effect is complete (R406); those of one collector come in the order
of the effects (R393). -/
def ackPriv (s : State) (id : Nat) : State :=
  if id = 0 then s
  else
    let o := getOp s id
    let d := draw s o.vf 1 512
    match colAddr o.a with
    | some (c, _) =>
      let at_ := max (s.mer + d.1) (getCol s c).ackAt
      sched (modCol d.2 c fun x => { x with ackAt := at_ }) at_ .privilegedReply [id, 1]
    | none => sched d.2 (s.mer + d.1) .privilegedReply [id, 1]

/-- The checks of a privileged address (R237), ALIGN before LOCAL_RANGE as R210 orders them. -/
def privCheck (a : Nat) : Option Trap :=
  if a % 8 ≠ 0 then some { code := 0x04, unit := 4, addr := a }
  else if 2 ≤ a / 2 ^ 62 ∨ a / 2 ^ 48 % 2 ^ 14 ≠ 0 then some { code := 0x03, unit := 4, addr := a }
  else none

/-- A privileged access leaves the core (R237, R406). A home on another package may turn out to be unreachable.
DESIGN CHOICE, log 42. -/
def privIssue (opc : Nat) (a : Nat) (v : Word) (key : Word) (dest : Dest) : Eff := fun s =>
  match privCheck a with
  | some e => .error e
  | none =>
    let x := addOp s
      { threadOp s .priv opc with a := a % 2 ^ 48, b := a, size := v.toNat, n := key.toNat % 2 ^ 12, dest := dest }
    let s1 := addPark x.2 s.cur (.priv x.1)
    let pa := a % 2 ^ 48
    if a / 2 ^ 62 = 0 then
      let far := isRemote s pa
      let f := if far then draw s1 (curTh s).vf 0 1 else (0, s1)
      if f.1 = 1 then .ok (sched f.2 (s.mer + 4000000) .privilegedUnreachableTimeout [x.1])
      else
        let d := draw f.2 (curTh s).vf 1 (if far then 8192 else 4096)
        .ok (sched d.2 (s.mer + d.1) .privilegedReply [x.1, 0])
    else
      match (if opc = 0x3D then ctlStep pa v.toNat else none) with
      | some (ev, args, lo, hi) =>
        let d := draw s1 (curTh s).vf lo hi
        .ok (sched d.2 (s.mer + d.1) ev (x.1 :: args))
      | none =>
        let d := draw s1 (curTh s).vf 1 1024
        .ok (sched d.2 (s.mer + d.1) .privilegedReply [x.1, 0])

/-- PRLD and PRST (R237). -/
def effPrld (o : LAOp) : Eff := predEff o.p fun s =>
  let th := curTh s
  privIssue 0x3C (rdS th o.a).toNat 0 (rdS th o.b) (.s o.d) s
def effPrst (o : LAOp) : Eff := predEff o.p fun s =>
  let th := curTh s
  privIssue 0x3D (rdS th o.a).toNat (rdS th o.b) (rdS th o.c) (.s 0) s

/-- WINRD and WINWR (R238): of the selector only the bits [19:0] that have a meaning count. DESIGN CHOICE, log 26. -/
def winIssue (opc : Nat) (target sel : Word) (v : Word) (dest : Dest) : Eff := fun s =>
  let x := addOp s
    { threadOp s .priv opc with a := target.toNat, b := sel.toNat % 2 ^ 20, size := v.toNat, dest := dest }
  let d := draw (addPark x.2 s.cur (.priv x.1)) (curTh s).vf 1 512
  .ok (sched d.2 (s.mer + d.1) .privilegedReply [x.1, 0])
def effWinrd (o : LAOp) : Eff := predEff o.p fun s =>
  let th := curTh s
  winIssue 0x3E (rdS th o.a) (rdS th o.b) 0 (.s o.d) s
def effWinwr (o : LAOp) : Eff := predEff o.p fun s =>
  let th := curTh s
  winIssue 0x3F (rdS th o.a) (rdS th o.b) (rdS th o.c) (.s 0) s

/-- A granule that only firmware reaches: DIRTY, or in a range being scrubbed (R382). -/
def granuleOf (s : State) (pa : Nat) : GranSt := mapGet .dirty s.granules (pa / 4096)
def beingScrubbed (s : State) (pa : Nat) : Bool :=
  s.scrubs.any fun e => (e.2.st == 1 || e.2.st == 3) && decide (e.2.lo ≤ pa) && decide (pa < e.2.hi)
def closedGranule (s : State) (pa : Nat) : Bool :=
  !isRemote s pa && (granuleOf s pa == .dirty || beingScrubbed s pa)

/-- A POISON for the next bundle of a firmware thread (R237, R388). DEDUCED, log 35. -/
def deferPoison (s : State) (t cause addr : Nat) : State :=
  modTh s t fun th =>
    { th with deferred := th.deferred ++ [{ at_ := s.mer, cause := cause, addr := addr, unit := 4 }] }

/-- The park of a privileged request ends, with v written to d (R237, R238). -/
def privEnd (s : State) (id v : Nat) : State :=
  let o := getOp s id
  let t := o.thread.getD 0
  let w := match o.dest with
    | .s i => modTh s t fun th => giveS th s.mer i (BitVec.ofNat 64 v)
    | _ => s
  endPark (delOp w id) t (· == .priv id) (s.mer + 1)

/-- All ones, which a refused or closed access reads (R237, R238, R382). -/
def allOnes : Nat := 2 ^ 64 - 1

/-- An untranslated access of firmware at its home (R237, R206, R357, R382): an address that names no memory first, under whatever
key (DESIGN CHOICE, log 35), then a granule that only firmware reaches. What a failed packet carries is poisoned (R399). DESIGN CHOICE, log 34. -/
def spaceZero (s : State) (id : Nat) : State :=
  let o := getOp s id
  let t := o.thread.getD 0
  let pa := o.a
  if !paOk s 0 pa then privEnd (deferPoison s t 5 o.b) id allOnes
  else if closedGranule s pa then privEnd s id allOnes
  else if o.opc = 0x3C then
    match readLine s pa o.n 8 with
    | .key => privEnd (deferPoison s t 5 o.b) id allOnes
    | .integrity _ => privEnd (deferPoison s t 4 o.b) id allOnes
    | .ok v bad0 =>
      let bad := bad0 || o.crc
      let s := sawLine s (lineKey o pa) pa
      let d := if bad then draw s o.vf 0 allOnes else (v, s)
      privEnd (if bad then deferPoison d.2 t 2 o.b else d.2) id d.1
  else
    match writeLine (sawPart s (lineKey o pa) pa o.n 8 false) pa o.n 8 o.size o.crc false with
    | .key => privEnd (deferPoison s t 5 o.b) id 0
    | .integrity _ => privEnd (deferPoison s t 4 o.b) id 0
    | .ok s1 latent => privEnd (observe (if latent then latentLine s1 id pa else s1) pa 8) id 0

/-- A partition whose overflowed records have all been read may start work again (R391, R394). DEDUCED, log 22. -/
def unbar (s : State) (r : FaultRec) : State :=
  if s.cols.any fun e => e.2.ovq.any fun x => x.vf == r.vf then s
  else kickReady (modVf s r.vf fun v => { v with barred := false }) r.vf

/-- A read of TQOVF acts on the overflowed fatal records (R394). DEDUCED, log 22. -/
def readOvf (s : State) (a : Nat) : State :=
  match colAddr a with
  | some (c, o) =>
    let l := (getCol s c).ovq
    if o = 0x90 then
      l.foldl unbar ((l.map (·.heal)).foldl recover (modCol s c fun q => { q with ovq := [] }))
    else s
  | none => s

/-- What is due at a context by now: results that land, and the drain of the inbox that an ended turn asked for (R55,
R183). -/
def settleTh (s : State) (t : Nat) : State := modTh s t fun th => drainDue (landUpto th s.mer) s.mer

/-- A tile element that WINRD reads with bad parity marks its tile (R238, R400). -/
def seeElem (cls i : Nat) (th : Thread) : Thread :=
  if cls = 7 ∧ i < 2048 ∧ th.parity.contains (1024 + i) then { th with tbad := th.tbad ||| 2 ^ (i / 1024) }
  else th

/-- PRIVILEGED_REPLY (R237, R238, R406): the access or register operation, and the end of the park; for a write whose
step has already taken effect, the acknowledgement alone. -/
def execPrivilegedReply (s : State) : Host.Outcome State Fault Refusal :=
  let id := argN s 0
  let o := getOp s id
  let t := o.thread.getD 0
  if !hasOp s id then .next s
  else if argN s 1 = 1 then .next (privEnd s id 0)
  else if o.opc = 0x3E then
    .next (if inWindow s t o.a then
      let s1 := settleTh s o.a
      privEnd (modTh s1 o.a (seeElem (o.b / 2 ^ 16) (o.b % 2 ^ 16))) id (winRead s1 o.a (o.b / 2 ^ 16) (o.b % 2 ^ 16))
      else privEnd s id allOnes)
  else if o.opc = 0x3F then
    .next (privEnd (if inWindow s t o.a then
      modTh (settleTh s o.a) o.a fun th => winWrite th (o.b / 2 ^ 16) (o.b % 2 ^ 16) o.size else s) id 0)
  else if o.b / 2 ^ 62 = 0 then .next (spaceZero s id)
  else if o.opc = 0x3C then .next (privEnd (readOvf s o.a) id (ctlSpaceRead s o.a))
  else .next (privEnd (ctlSpaceWrite s o.a o.size) id 0)

/-- PRIVILEGED_UNREACHABLE_TIMEOUT (R237, R406): the home stayed unreachable for 1 ms. -/
def execPrivilegedUnreachableTimeout (s : State) : Host.Outcome State Fault Refusal :=
  let id := argN s 0
  let o := getOp s id
  if hasOp s id then .next (privEnd (deferPoison s (o.thread.getD 0) 5 o.b) id allOnes) else .next s

/-- PRLD issued alone (R237). -/
def execPrld (o : LAOp) (s : State) : Host.Outcome State Fault Refusal := runSlot (effPrld o) s

/-- PRST issued alone (R237). -/
def execPrst (o : LAOp) (s : State) : Host.Outcome State Fault Refusal := runSlot (effPrst o) s

/-- WINRD issued alone (R238). -/
def execWinrd (o : LAOp) (s : State) : Host.Outcome State Fault Refusal := runSlot (effWinrd o) s

/-- WINWR issued alone (R238). -/
def execWinwr (o : LAOp) (s : State) : Host.Outcome State Fault Refusal := runSlot (effWinwr o) s

end Sys2Proof.Machine
end

