-- ==== Sys2Proof/Machine/Links.lean ====
section
/-! DEFINITION. The host link and what corrupts itself: CXL.mem, IDE, routes that fail, soft errors, and reply entries that
become available (01 R29; 07 R204; 08 R53, R225; 10 R258; 19 R398 to R400). -/

namespace Sys2Proof.Machine

/-- The offered feature word: bits 127:12 read as zero (R2), and KWIN and KDOM clear bits 6 and 9 (R404). -/
def foffer (s : State) : Nat :=
  let g := s.pkg.geuth
  g.foffer % 2 ^ 12 - (if !g.kwin && maskHas g.foffer 6 then 2 ^ 6 else 0)
    - (if !g.kdom && maskHas g.foffer 9 then 2 ^ 9 else 0)

/-- What the host receives for a CXL.mem read (R399). DEDUCED, log 49. -/
def cxlAnswer (s : State) (pa v : Nat) (bad : Bool) : State :=
  { s with out := s.out ++ [.cxl pa (bytesOfNat 64 v) bad] }

/-- CXL_MEM_REQUEST (R29, R399): the host reads (operand 0 is 0) or writes the line of physical address operand 1 under
the key slot of operand 2; operand 3 marks written data as poison, operand 4 is the 64 bytes written, and operand 5 is one more
than the IDE stream, or 0: what comes over an Insecure stream is discarded (R398). An access names no function, so bit 10 of
the offered word admits it. DESIGN CHOICE, log 49. -/
def execCxlMemRequest (s : State) : Host.Outcome State Fault Refusal :=
  let pa := argN s 1 / 64 * 64
  let key := argN s 2
  if !maskHas (foffer s) 10 ∨ insecure s (argN s 5) then .next s
  else if !paOk s 0 pa ∨ closedGranule s pa then .next (if argN s 0 = 0 then cxlAnswer s pa 0 true else s)
  else if argN s 0 = 0 then
    match readLine s pa key 64 with
    | .ok v bad => .next (cxlAnswer (sawPacket (sawLine s (2 ^ 16 + paDie pa) pa) pa) pa v (bad || packetFails s pa))
    | .key => .next (cxlAnswer s pa 0 true)
    | .integrity c => .next (cxlAnswer (ownerIntegrity s pa key c) pa 0 true)
  else
    match writeLine s pa key 64 (argN s 4) (argN s 3 == 1 || packetFails s pa) false with
    | .ok s1 _ => .next (observe (sawPacket s1 pa) pa 64)
    | .key => .next s
    | .integrity c => .next (ownerIntegrity s pa key c)

/-- ROUTE_LOSS_TIMEOUT (R258): a copy to another package found no route for 1 ms. -/
def execRouteLossTimeout (s : State) : Host.Outcome State Fault Refusal :=
  let id := argN s 0
  let o := getOp s id
  match o.pages.find? fun g => match g.pa with
      | some pa => isRemote s pa
      | none => false with
  | some g => if allPerformed o then .next s else .next (permFail s id 3 g.acc (firstDva o g))
  | none => .next s

/-- IDE_MAC_FAILURE (R398): the packet is discarded and its stream, operand 0, enters the Insecure state; the further
operands are the functions whose traffic goes over it. -/
def execIdeMacFailure (s : State) : Host.Outcome State Fault Refusal :=
  .next { s with pkg := { s.pkg with
    ide := mapSet false s.pkg.ide (argN s 0) true
    ideFn := (s.args.drop 1).foldl (fun m f => mapSet 0 m f (argN s 0 + 1)) s.pkg.ideFn } }

/-- A single-bit error of a word is held until the word is read; a second one makes it uncorrectable (R204). -/
def flipWord (s : State) (w : Nat) : State :=
  if mapGet false s.flips w then setPoison { s with flips := mapSet false s.flips w false } w true
  else { s with flips := mapSet false s.flips w true }

/-- The stored image of a node of the counter tree is damaged (R356). -/
def damageNode (s : State) (k : Nat) : State :=
  { s with tree := mapSet {} s.tree k { treeNode s k with bad := true } }

/-- The word whose mark an error of flat word w sets: itself, or the first of its line in device memory, whose check bits
belong to the line (R204, R17). -/
def eccWord (w : Nat) : Nat :=
  if deviceBase ≤ 8 * w ∧ 8 * w < hostBase then lineWord (8 * w - deviceBase) else w

/-- A packet of the transport fails its CRC-32C (R398, R399): all eight words of the device line that part b of a request
moves arrive poisoned, the ones that are still to be read among them. A line of which a word has been written has left the
transport. A part that the request has not is a packet of what it reads or writes besides. -/
def packetBad (o : Op) (b : Nat) : Op :=
  let line (p : Part) : Nat := (if p.srcDev then p.src else p.dst) / 64
  let k := line (o.parts.getD b {})
  if o.parts.length ≤ b then { o with crc := true }
  else if o.parts.any (fun p => line p == k && p.put) then o
  else { o with parts := o.parts.map fun p => if line p = k then { p with bad := true, crc := true } else p }

/-- SOFT_ERROR (R204, R356, R399, R400) by kind: 0 a single-bit and 1 an uncorrectable error of flat word a; 2 an
uncorrectable one of the device line at a; 3 a line or its MAC; 4 the tree node at height b above it; 5 the register
with parity code b of thread a; 6 tile element b of thread a; 7 the packet that carries word b of request a; 8 bit b of the CRC
of journal entry a (R348); 9 the next packet that carries the device line at a to a command core, to an engine that reads a
record, or to or from the outside. -/
def execSoftError (s : State) : Host.Outcome State Fault Refusal :=
  let a := argN s 1
  let b := argN s 2
  match argN s 0 with
  | 0 => .next (flipWord s (eccWord a))
  | 1 => .next (setPoison s (eccWord a) true)
  | 2 => .next (setLine s a { lineOf s a with bad := 3 })
  | 3 => .next (setLine s a { lineOf s a with bad := 1, clean := false })
  | 4 => .next (damageNode (setLine s a { lineOf s a with clean := false }) ((treePath a).getD b 0))
  | 5 => .next (modTh s a fun th => { th with parity := b :: th.parity })
  | 6 => .next (modTh s a fun th => { th with parity := (1024 + b % 2048) :: th.parity })
  | 7 => .next (if hasOp s a then modOp s a fun o => packetBad o b else s)
  | 9 => .next { s with pkg := { s.pkg with crcNext := a / 64 * 64 :: s.pkg.crcNext } }
  | 8 => .next { s with pkg := { s.pkg with
      journal := s.pkg.journal.modify a fun j => { j with crc := j.crc ^^^ 2 ^ (b % 32) } } }
  | _ => .next s

/-- REPLY_ENTRY_AVAILABLE (R53, R225): an EPOP parked on an empty queue of thread operand 0 goes on at its next turn. -/
def execReplyEntryAvailable (s : State) : Host.Outcome State Fault Refusal :=
  .next (endPark s (argN s 0) (· == .replyEmpty) s.mer)

end Sys2Proof.Machine
end

