-- ==== Sys2Proof/Machine/Mgmt.lean ====
section
/-! DEFINITION. The management mailbox: registers, command records, invalidations, and the mapping commands (07 R195 to
R201; 15 R341 to R346, R352; 18 R396; 15 R408; 10 R257). -/

namespace Sys2Proof.Machine

/-- Assigned opcodes and their rows (R267, R342, R370, R396). -/
def commandRow (opc : Nat) : Instr :=
  match opc with
  | 0x01 => .layoutCmd | 0x02 => .setmode | 0x03 => .maprange | 0x04 => .mappage | 0x05 => .gswitch | 0x06 => .sliceCmd
  | 0x07 => .faultring | 0x10 => .bindCmd | 0x11 => .releaseCmd | 0x20 => .keynew | 0x21 => .wadmit | 0x22 => .wrevoke
  | 0x28 => .gcreate | 0x29 => .gacl | 0x2A => .gfree | 0x2B => .gview | 0x2C => .gexport | 0x2D => .gimport
  | 0x30 => .domjoin | 0x31 => .domkey | 0x32 => .groupset | 0x33 => .qpcreate | 0x34 => .qpdestroy
  | _ => .unassignedMailboxOpcode

/-- Fields of the command record that a function's mailbox runs (R342). -/
def cmdArg (s : State) (f k : Nat) : Nat := bits (getVf s f).cmdRec (127 + 64 * k) (64 + 64 * k)
def cmdSub (s : State) (f : Nat) : Nat := bits (getVf s f).cmdRec 35 32
def cmdEvict (s : State) (f : Nat) : Bool := bits (getVf s f).cmdRec 8 8 == 1
/-- The function a command acts on (R342). -/
def cmdVf (s : State) (f : Nat) : Nat := if f = 0 then bits (getVf s f).cmdRec 31 16 else f

/-- Host memory as the management core reaches it for a function, under its PASID (R341). -/
def fnHost (s : State) (f iova : Nat) : Nat := hostAddr (getVf s f).pasid iova

/-- What a command of function f reads in host memory, and host memory after it writes there (R341): over an Insecure stream
nothing arrives (R398), so that a read gives all ones. PRESUMED, log 49. -/
def hostRead (s : State) (f iova n : Nat) : Nat :=
  if linkCut s f then 2 ^ (8 * n) - 1 else rdMem s.mem (fnHost s f iova) n
def hostWrite (s : State) (f iova n v : Nat) : Memory := if linkCut s f then s.mem else wrMem s.mem (fnHost s f iova) n v

/-- The command at the head of the doorbell order starts: its record is read under the function's PASID (R341). -/
def startCmd (s : State) (f : Nat) : State :=
  let r := hostRead s f (getVf s f).cmdaddr 64
  let d := draw (modVf s f fun v => { v with cmdRec := r, cmdStep := 0 }) f 1 4096
  sched d.2 (s.mer + d.1) (commandRow (bits r 7 0)) [f]

/-- CMDDB (R341): a doorbell starts a command unless one runs. -/
def doorbell (s : State) (f : Nat) : State :=
  if (getVf s f).cmdRun ∨ (f = 0 ∧ s.pkg.recovery) then s
  else
    let s1 := modVf s f fun v => { v with cmdRun := true }
    let s2 := { s1 with pkg := { s1.pkg with cmdq := s1.pkg.cmdq ++ [f] } }
    if s.pkg.cmdq = [] then startCmd s2 f else s2

/-- A command ends with a status (R341): vector 0 if its IRQ bit is set, and the next command in doorbell order starts. -/
def endCmd (s : State) (f status : Nat) : State :=
  let irq := bits (getVf s f).cmdRec 9 9 == 1
  let s1 := modVf s f fun v => { v with cmdRun := false, cmdStatus := status, cmdRec := 0, cmdStep := 0 }
  let s2 := if irq then raiseMsix s1 f 0 else s1
  let q := s.pkg.cmdq.filter (· != f)
  let s3 := { s2 with pkg := { s2.pkg with cmdq := q } }
  match q with
  | [] => s3
  | h :: _ => startCmd s3 h

/-- A command waits: it is looked at again. -/
def waitCmd (s : State) (f : Nat) : State := sched s (s.mer + 64) (commandRow (bits (getVf s f).cmdRec 7 0)) [f]
def setStep (s : State) (f k : Nat) : State := modVf s f fun v => { v with cmdStep := k }

/-- Mailboxes that take a command. -/
inductive Boxes where
  | pf | vf | both
deriving DecidableEq, Repr

/-- The checks common to every command (R342): that it is the one running, reserved bits, the mailbox, the target. -/
def runCmd (s : State) (opc : Nat) (b : Boxes) (target : Bool) (k : State) : Host.Outcome State Fault Refusal :=
  let f := argN s 0
  let r := (getVf s f).cmdRec
  if !(getVf s f).cmdRun ∨ s.pkg.cmdq.head? ≠ some f ∨ bits r 7 0 ≠ opc then .next s
  else if bits r 511 256 ≠ 0 ∨ bits r 63 36 ≠ 0 ∨ bits r 15 10 ≠ 0 then .next (endCmd s f 1)
  else if (b = .pf ∧ f ≠ 0) ∨ (b = .vf ∧ f = 0) then .next (endCmd s f 8)
  else if f = 0 ∧ target ∧ (cmdVf s f = 0 ∨ 2048 < cmdVf s f ∨ s.pkg.numVfs < cmdVf s f) then .next (endCmd s f 1)
  else .next k

/-- A command whose opcode is unassigned ends with MALFORMED (R342). -/
def execUnassignedMailboxOpcode (s : State) : Host.Outcome State Fault Refusal :=
  let f := argN s 0
  let v := getVf s f
  if !v.cmdRun ∨ s.pkg.cmdq.head? ≠ some f ∨ commandRow (bits v.cmdRec 7 0) ≠ .unassignedMailboxOpcode then .next s
  else .next (endCmd s f 1)

/-- The TDISP interface locks an item against a command of the physical function (R346). -/
def pfLocked (s : State) (f vf : Nat) : Bool := f == 0 && tdispHolds s vf

/-- A write to the MSI-X table (R343): the mask bit of a vector's second word is kept inverted, and a pending vector that
is unmasked is raised. -/
def msixWrite (s : State) (f w v : Nat) : State :=
  let x := if w % 2 = 1 then v ^^^ 2 ^ 32 else v
  let s1 := modVf s f fun y => { y with msix := mapSet 0 y.msix w (BitVec.ofNat 64 x) }
  let vec := w / 2
  if !msixMasked (getVf s1 f) vec ∧ maskHas (getVf s1 f).msixPend vec then
    raiseMsix (modVf s1 f fun y => { y with msixPend := y.msixPend - 2 ^ vec }) f vec
  else s1

/-- A write to the queue registers of a virtual function (R300 to R303). -/
def queueWrite (s : State) (f off v : Nat) : State :=
  let q := (off - 0x1000) / 32
  if off % 32 = 0 then if qEn (getQ s f q).cfg then s else modQ s f q fun y => { y with qbase := v / 4096 * 4096 }
  else if off % 32 = 8 then sched s s.mer .qcfgWrite [f, q, v]
  else if off % 32 = 16 then sched s s.mer .kick [f, q, v]
  else
    modQ s f q fun y =>
      { y with
        kickerr := y.kickerr && !maskHas v 32, cfgerr := y.cfgerr && !maskHas v 34
        cplerr := y.cplerr && !maskHas v 35 }

/-- FACCEPT and REFUSED (R345). -/
def featureWrite (s : State) (f off v : Nat) : State :=
  let x := getVf s f
  if off = 0x60 then
    let s1 := if maskHas v 2 then modVf s f fun y => { y with refused := false } else s
    if maskHas v 0 then sched s1 s.mer .featureLock [f, v] else s1
  else if x.locked then s
  else if off = 0x50 then modVf s f fun y => { y with faccept := y.faccept / 2 ^ 64 * 2 ^ 64 + v }
  else modVf s f fun y => { y with faccept := y.faccept % 2 ^ 64 + v * 2 ^ 64 }

/-- The registers that TDISP locks with BAR 0 (R346): all but the mailbox, KICK and QSTAT. -/
def lockedReg (off : Nat) : Bool :=
  !(decide (off < 0x40) || (decide (0x1000 ≤ off) && decide (off < 0x1200) && decide (16 ≤ off % 32)))

/-- A write of v at an offset of BAR 0 of function f (R343, R344); what is not listed is ignored (R12). -/
def barWrite (s : State) (f off v : Nat) : State :=
  if tdispHolds s f ∧ lockedReg off then tdispError s f
  else if off = 0 then modVf s f fun y => { y with cmdaddr := v / 64 * 64 }
  else if off = 8 then if v = 1 then doorbell s f else s
  else if 0x2000 ≤ off ∧ off < 0x2200 ∧ off % 8 = 0 then msixWrite s f ((off - 0x2000) / 8) v
  else if f = 0 then if off = 0x80 ∧ maskHas v 0 then { s with pkg := { s.pkg with warn := false } } else s
  else if off = 0x50 ∨ off = 0x58 ∨ off = 0x60 then featureWrite s f off v
  else if 0x1000 ≤ off ∧ off < 0x1200 ∧ off % 8 = 0 then queueWrite s f off v
  else s

/-- A bit of a register word. -/
def bitAt (b : Bool) (i : Nat) : Nat := if b then 2 ^ i else 0

/-- A queue register as it reads (R300 to R302). -/
def queueRead (s : State) (f off : Nat) : Nat :=
  let x := getQ s f ((off - 0x1000) / 32)
  if off % 32 = 0 then x.qbase
  else if off % 32 = 8 then x.cfg
  else if off % 32 = 16 then 0
  else x.ci + bitAt x.kickerr 32 + bitAt x.orphan 33 + bitAt x.cfgerr 34 + bitAt x.cplerr 35

/-- A register of the physical function as it reads (R344). -/
def pfRead (s : State) (off : Nat) : Nat :=
  let p := s.pkg
  if off = 0x70 then bitAt p.inDom 63 + (if p.inDom then p.pkg else 0)
  else if off = 0x78 then p.pwr.toNat
  else if off = 0x80 then bitAt p.warn 0 + bitAt p.trip 1 + p.tcause % 4 * 4 + p.tdie % 8 * 2 ^ 8
  else if off = 0x88 then p.temp.toNat
  else if off = 0x90 then p.temp1.toNat
  else 0

/-- The 8 bytes of BAR 0 of function f that a read at an offset returns (R341, R343 to R345): a write-only register, a
reserved field and an offset that is not listed read zero (R11, R12). -/
def barRead (s : State) (f off : Nat) : Nat :=
  let v := getVf s f
  if off = 0 then v.cmdaddr
  else if off = 0x10 then bitAt v.cmdRun 63 + v.cursub * 2 ^ 8 + v.cmdStatus
  else if 0x2000 ≤ off ∧ off < 0x2200 ∧ off % 8 = 0 then
    let w := (off - 0x2000) / 8
    (mapGet 0 v.msix w).toNat ^^^ (if w % 2 = 1 then 2 ^ 32 else 0)
  else if off = 0x3000 then v.msixPend % 2 ^ 32
  else if f = 0 then pfRead s off
  else if off = 0x40 then foffer s % 2 ^ 64
  else if off = 0x48 then foffer s / 2 ^ 64 % 2 ^ 64
  else if off = 0x50 then v.faccept % 2 ^ 64
  else if off = 0x58 then v.faccept / 2 ^ 64 % 2 ^ 64
  else if off = 0x60 then bitAt v.locked 1 + bitAt v.refused 2
  else if off = 0x70 then bitAt v.tstop 0
  else if 0x1000 ≤ off ∧ off < 0x1200 ∧ off % 8 = 0 then queueRead s f off
  else 0

/-- The bits of a configuration-space word that are fixed, and their value, by offset in 8-byte words (R343, R344): a
header whose BAR 0 has 64 KiB and whose other BARs are absent; the capabilities PCI Express and MSI-X, with the table
and the pending bits where BAR 0 has them, and no other; and among the extended ones PASID for a virtual function, of 20
bits, and SR-IOV for the physical one. The layout is that of PCI Express. PRESUMED, log 43. -/
def configFixed (f off : Nat) : Nat × Nat :=
  if off = 0x10 then (2 ^ 64 - 1 - 0xFFFF0000, 0)
  else if off = 0x18 ∨ off = 0x20 then (2 ^ 64 - 1, 0)
  else if off = 0x30 then (0xFF * 2 ^ 32 + 0xFFFFFFFF, 0x40 * 2 ^ 32)
  else if off = 0x40 then (0xFFFF, 0x10 + 0x80 * 2 ^ 8)
  else if off = 0x80 then (0xFFFFFFFF * 2 ^ 32 + 0x3FFFFFFF, 0x2000 * 2 ^ 32 + 31 * 2 ^ 16 + 0x11)
  else if off = 0x88 then (0xFFFFFFFF, 0x3000)
  else if off = 0x100 then
    if f = 0 then (0xFFFFFFFF, 0x10 + 2 ^ 16) else (0xFFFFFFFF + 0x1F * 2 ^ 40, 0x1B + 2 ^ 16 + 20 * 2 ^ 40)
  else (0, 0)

/-- A word of the configuration space of a function (R343, R346): its fixed bits, and beside them what the host has
written, else what firmware's tables give, which is open. TDISP locks it. DESIGN CHOICE, log 43. -/
def configRead (s : State) (f off : Nat) : Word :=
  let x := configFixed f off
  let w := (mapGet (Config.configWord f off) (getVf s f).config off).toNat
  BitVec.ofNat 64 (x.2 ||| (w &&& (2 ^ 64 - 1 - x.1)))
def configWrite (s : State) (f off v : Nat) : State :=
  if tdispHolds s f then tdispError s f
  else modVf s f fun y => { y with config := mapPut y.config off (BitVec.ofNat 64 v) }

/-- REGISTER_WRITE (R343, R344, R398): the host writes v at an offset of BAR 0 of function f. With operand 3 it reads
there (1), or writes (2) or reads (3) configuration space; operand 4 is one more than the IDE stream, or 0. A packet over
an Insecure stream is discarded. -/
def execRegisterWrite (s : State) : Host.Outcome State Fault Refusal :=
  let f := argN s 0
  let off := argN s 1
  let v := argN s 2 % 2 ^ 64
  if 2048 < f ∨ (f ≠ 0 ∧ s.pkg.recovery) ∨ insecure s (argN s 4) then .next s
  else
    match argN s 3 with
    | 0 => .next (barWrite s f off v)
    | 1 => .next { s with out := s.out ++ [.reg f off (BitVec.ofNat 64 (barRead s f off))] }
    | 2 => .next (configWrite s f off v)
    | _ => .next { s with out := s.out ++ [.reg f (2 ^ 16 + off) (configRead s f off)] }

/-- FEATURE_LOCK (R3, R345): LOCK = 1 checks the accepted word. -/
def execFeatureLock (s : State) : Host.Outcome State Fault Refusal :=
  let f := argN s 0
  let a := (getVf s f).faccept
  if f = 0 ∨ 2048 < f ∨ !maskHas (argN s 1) 0 ∨ (getVf s f).locked then .next s
  else if maskHas a 0 ∧ a < 2 ^ 12 ∧ a &&& foffer s = a then .next (modVf s f fun v => { v with locked := true })
  else .next (modVf s f fun v => { v with refused := true })

/-- Key slots that a function holds (R196, R257, R359): its own, or a window key it is admitted to; admissions are kept by
256·slot·16 + function. -/
def admitKey (key vf : Nat) : Nat := key * 65536 + vf
def rightsOf (s : State) (key vf : Nat) : Nat :=
  if (keySlot s key).owner = vf then 7 else mapGet 0 s.admits (admitKey key vf)
def holdsKey (s : State) (key vf : Nat) : Bool :=
  let k := keySlot s key
  key != 0 && k.st == 1 && (k.owner == vf || (k.kind == 1 && mapGet 0 s.admits (admitKey key vf) != 0))

/-- Every granule of n bytes from physical address lo is bound to a function (R372). DEDUCED, log 44. -/
def boundTo (s : State) (vf lo n : Nat) : Bool :=
  let a := lo / 4096
  let b := (lo + n + 4095) / 4096
  (s.granules.filter fun e => decide (a ≤ e.1) && decide (e.1 < b) && e.2 == .bound vf).length == b - a

/-- The physical ranges of this package that a range entry reaches: base and length (R197). -/
def entryRanges (e : RangeEntry) : List (Nat × Nat) :=
  if e.home = 0 then [((e.base + e.offset) % 2 ^ 48, e.limit - e.base)]
  else
    (List.range 4).filterMap fun d =>
      let first := (d + 4 - e.rot) % 4
      let n := (e.limit - e.base) / 4096
      let k := (n + 3 - first) / 4
      if k = 0 then none else some (e.offset - paDie e.offset * 2 ^ 39 + d * 2 ^ 39, k * 4096)

/-- Two ranges of numbers meet. -/
def meets (a la b lb : Nat) : Bool := decide (a < b + lb) && decide (b < a + la)

/-- A range entry (R196). -/
def entryOf (x : Nat) : RangeEntry :=
  { valid := bits x 242 242 == 1, sc := bits x 241 241 == 1, win := bits x 240 240 == 1, keyid := bits x 239 228
    home := bits x 227 226, rot := bits x 225 224, pr := bits x 223 223 == 1, pw := bits x 222 222 == 1
    pd := bits x 221 221 == 1, offset := bits x 191 144, limit := bits x 120 64, base := bits x 56 0 }

/-- Whether an entry's addresses are of another package (R256). -/
def entryRemote (s : State) (e : RangeEntry) : Bool := (entryRanges e).any fun r => isRemote s r.1

/-- Permissions within admitted rights (R359): bit 0 read, 1 write, 2 reduce. -/
def within (e : RangeEntry) (r : Nat) : Bool := (!e.pr || maskHas r 0) && (!e.pw || maskHas r 1) && (!e.pd || maskHas r 2)

/-- An interleaved entry has OFFSET.DIE zero, and BASE, LIMIT and OFFSET on 16 KiB (R197). -/
def badSpread (e : RangeEntry) : Bool :=
  e.home == 1 && (paDie e.offset != 0 || e.base % 16384 != 0 || e.limit % 16384 != 0 || e.offset % 16384 != 0)

/-- The checks of a range entry (R3, R195, R196, R197, R257, R342, R359): 0, or the status with which it is refused. An
entry of another package without feature bit 9 is UNSUPPORTED, after every check that gives MALFORMED (DESIGN CHOICE,
log 63); a window entry without bit 6 is MALFORMED, as R196 has it. DEDUCED, log 45. -/
def entryStatus (s : State) (vf sub idx x : Nat) : Nat :=
  let e := entryOf x
  let k := keySlot s e.keyid
  if bits x 255 243 ≠ 0 ∨ bits x 220 192 ≠ 0 ∨ bits x 143 121 ≠ 0 ∨ bits x 63 57 ≠ 0 then 1
  else if !e.valid then 0
  else if e.base % 4096 ≠ 0 ∨ e.limit % 4096 ≠ 0 ∨ e.limit ≤ e.base ∨ 1 < e.home ∨ (e.home = 0 ∧ e.rot ≠ 0)
    ∨ badSpread e then 1
  else if !holdsKey s e.keyid vf ∨ (e.win ∧ (!featOk s vf 6 ∨ k.kind ≠ 1 ∨ !within e (rightsOf s e.keyid vf))) then 1
  else if entryRemote s e ∧ k.kind ≠ 2 then 1
  else if (getVf s vf).ranges.any fun r =>
      r.1 / 256 == sub && r.1 % 256 != idx && r.2.valid && meets r.2.base (r.2.limit - r.2.base) e.base (e.limit - e.base)
  then 1
  else if entryRemote s e ∧ !featOk s vf 9 then 2
  else if !entryRemote s e ∧ !(entryRanges e).all fun r => boundTo s (if e.win then k.owner else vf) r.1 r.2 then 8
  else 0

/-- Start an invalidation (R201). -/
def invalidate (s : State) (x : Invalid) : State :=
  let d := draw { s with seq := s.seq + 1, invs := mapPut s.invs s.seq x } x.vf 1 4096
  sched d.2 (s.mer + d.1) .invalidationComplete [s.seq]

/-- A page of a request that was translated and still has accesses to perform; a watch has them until it ends, and a mask
request its reads until its result is formed. -/
def openPage (o : Op) (g : PageReq) : Bool :=
  g.pa.isSome
    && (if o.kind = .sigw ∨ o.kind = .nodeWait then true
        else if g.acc = 0 ∧ (o.kind = .mask ∨ o.kind = .nodeMask) then o.parts.any (!·.got)
        else if g.acc = 0 then o.parts.any fun p => p.srcDev && p.src / 4096 * 4096 == g.page && !p.got
        else o.parts.any fun p => p.dstDev && p.dst / 4096 * 4096 == g.page && !p.performed)

/-- A request translated under the old entry of an invalidation has accesses to perform (R201): the entry is named by
device addresses, by physical addresses (sub 17) or by its key (sub 18). A guest switch has no entry that changes: it
waits for no watch and no held request. DEDUCED, log 46. -/
def invOpen (x : Invalid) (o : Op) : Bool :=
  let inside (a : Nat) : Bool := decide (x.base ≤ a) && decide (a < x.base + x.len)
  let waits := o.kind == .sigw || o.kind == .nodeWait || o.held.isSome
  o.vf == x.vf && !(x.what == 1 && waits) && o.pages.any fun g =>
    openPage o g
      && (if x.sub = 17 then inside (g.pa.getD 0) else if x.sub = 18 then g.key == x.base
          else (x.sub == 16 || o.sub == x.sub) && inside g.page)
def invPending (s : State) (x : Invalid) : Bool := s.ops.any fun e => invOpen x e.2

/-- Replay the held requests of a range of pages (R395); their deadlines are gone. -/
def replayPages (s : State) (vf sub base len : Nat) : State :=
  let s1 := { s with agenda := s.agenda.filter fun (i : Item) =>
    !(i.ev == Instr.faultDeadlineExpire && i.args.getD 0 0 == vf && i.args.getD 1 0 == sub
        && decide (base ≤ i.args.getD 2 0) && decide (i.args.getD 2 0 < base + len)) }
  s1.ops.foldl (fun a (e : Nat × Op) =>
    match e.2.held with
    | some p => if e.2.vf = vf ∧ e.2.sub = sub ∧ base ≤ p ∧ p < base + len then replayOp a e.1 else a
    | none => a) s1

/-- Granules of a released range become DIRTY (R373). -/
def dirtyRange (s : State) (lo n : Nat) : State :=
  { s with granules := s.granules.filter fun e => !(decide (lo / 4096 ≤ e.1) && decide (e.1 < (lo + n) / 4096)) }

/-- A range entry is written (R196). -/
def setRange (s : State) (vf sub idx x : Nat) : State :=
  let e := entryOf x
  modVf s vf fun v => { v with ranges := mapSet {} v.ranges (sub * 256 + idx) (if e.valid then e else {}) }

/-- MAPRANGE (R195, R196, R342): the entry is checked, and takes effect with its invalidation (R201). -/
def execMaprange (s : State) : Host.Outcome State Fault Refusal :=
  let f := argN s 0
  let vf := cmdVf s f
  let sub := cmdSub s f
  let idx := cmdArg s f 0
  let x := hostRead s f (cmdArg s f 1) 32
  let st := if 256 ≤ idx then 1 else entryStatus s vf sub idx x
  let old := mapGet ({} : RangeEntry) (getVf s vf).ranges (sub * 256 + idx)
  let new := entryOf x
  runCmd s 0x03 .both true <|
    if (getVf s f).cmdStep ≠ 0 then s
    else if pfLocked s f vf then endCmd s f 5
    else if st ≠ 0 then endCmd s f st
    else
      let lo := if old.valid then (if new.valid then min old.base new.base else old.base) else new.base
      let hi := if old.valid then (if new.valid then max old.limit new.limit else old.limit) else new.limit
      invalidate (setStep s f 1)
        { vf := vf, sub := sub, base := lo, len := hi - lo, what := 0, fn := f, place := idx, entry := x }

/-- A leaf entry (R198). -/
def leafOf (x : Nat) : Leaf :=
  { valid := bits x 63 63 == 1, span := bits x 61 61 == 1, sc := bits x 60 60 == 1, pr := bits x 59 59 == 1
    pw := bits x 58 58 == 1, pd := bits x 57 57 == 1, addr := bits x 47 12 * 4096 }

/-- Members of the group that one MAPPAGE writes (R408). -/
def spanCount (lvl : Nat) (span : Bool) : Nat := if !span then 1 else if lvl = 0 then 16 else 4

/-- The checks of a MAPPAGE (R198, R342, R408). -/
def pageStatus (s : State) (vf dva x lvl : Nat) : Nat :=
  let f := leafOf x
  let size := leafSize lvl * spanCount lvl f.span
  if 2 < lvl ∨ 2 ^ 57 ≤ dva ∨ 2 ^ 64 ≤ x then 1
  else if !f.valid then (if x = 0 ∧ dva % leafSize lvl = 0 then 0 else 1)
  else if bits x 62 62 = 0 ∨ bits x 56 48 ≠ 0 ∨ bits x 11 0 ≠ 0 ∨ (f.span ∧ lvl = 1) ∨ dva % size ≠ 0 ∨ f.addr % size ≠ 0 then 1
  else if !boundTo s vf f.addr size then 8
  else 0

/-- Leaves of a table below a leaf that is split: n leaves of level lvl with the same attributes (R408). -/
def splitLeaf (sub lvl dva : Nat) (f : Leaf) (m : Map Leaf) (n : Nat) : Map Leaf :=
  match n with
  | 0 => m
  | k + 1 =>
    splitLeaf sub lvl dva f
      (mapSet {} m (leafKey sub lvl (dva + k * leafSize lvl)) { f with span := false, addr := f.addr + k * leafSize lvl }) k

/-- The address, level and sub-context of an entry's key. -/
def keyDva (k : Nat) : Nat := k % 2 ^ 57
def keyLvl (k : Nat) : Nat := k / 2 ^ 57 % 8
def keySub (k : Nat) : Nat := k / 2 ^ 57 / 8

/-- Split the leaf of level lvl + 1 that covers an address, if there is one (R408): a pointer to a new table, at tab,
takes its place. -/
def splitOne (sub dva : Nat) (tab : Nat → Nat) (m : Map Leaf) (lvl : Nat) : Map Leaf :=
  let key := leafKey sub (lvl + 1) dva
  let f := mapGet ({} : Leaf) m key
  if f.valid && f.leaf then
    splitLeaf sub lvl (dva / leafSize (lvl + 1) * leafSize (lvl + 1)) f
      (mapSet {} m key { valid := true, leaf := false, addr := tab (lvl + 1) }) 512
  else m

/-- Split every larger leaf over an address down to a level (R408). -/
def splitDown (sub lvl dva : Nat) (tab : Nat → Nat) (m : Map Leaf) : Map Leaf :=
  if lvl = 0 then splitOne sub dva tab (splitOne sub dva tab m 1) 0 else if lvl = 1 then splitOne sub dva tab m 1 else m

/-- The members of the span group of a level that holds an address become ordinary leaves: the group is no longer whole
(R198, R408). -/
def unspan (sub lvl dva : Nat) (m : Map Leaf) : Map Leaf :=
  let g := leafSize lvl * spanCount lvl true
  m.map fun e =>
    if keySub e.1 = sub ∧ keyLvl e.1 = lvl ∧ keyDva e.1 / g = dva / g then (e.1, { e.2 with span := false }) else e

/-- The pointers from the root down to the table of a level, where they are missing (R198, R342). -/
def addTables (sub lvl dva : Nat) (tab : Nat → Nat) (m : Map Leaf) : Map Leaf :=
  [4, 3, 2, 1].foldl (fun a l =>
    let key := leafKey sub l dva
    if lvl < l ∧ !(mapGet ({} : Leaf) a key).valid then mapSet {} a key { valid := true, leaf := false, addr := tab l } else a) m

/-- The page table after one MAPPAGE (R408); tab gives the addresses of tables that it makes. -/
def mapPages (m : Map Leaf) (sub lvl dva : Nat) (f : Leaf) (tab : Nat → Nat) : Map Leaf :=
  let n := spanCount lvl f.span
  let size := leafSize lvl * n
  let m0 := unspan sub 2 dva (if lvl = 0 then unspan sub 0 dva m else m)
  let m1 := (splitDown sub lvl dva tab m0).filter fun e =>
    !(keySub e.1 == sub && decide (keyLvl e.1 ≤ lvl) && decide (dva ≤ keyDva e.1) && decide (keyDva e.1 < dva + size))
  if !f.valid then m1
  else
    (List.range n).foldl (fun a i =>
      mapSet {} a (leafKey sub lvl (dva + i * leafSize lvl)) { f with addr := f.addr + i * leafSize lvl })
      (addTables sub lvl dva tab m1)

/-- Addresses for n tables, in memory that firmware keeps for them (R195, R198): they are free. DESIGN CHOICE, log 46. -/
def drawTables (s : State) (vf n : Nat) : List Nat × State :=
  match n with
  | 0 => ([], s)
  | m + 1 =>
    let d := draw s vf 0 (2 ^ 36 - 1)
    let r := drawTables d.2 vf m
    (d.1 * 4096 :: r.1, r.2)

/-- A page-table entry is written, with the tables that it needs and the root of its sub-context (R198, R408). -/
def setPage (s : State) (vf sub lvl dva x : Nat) : State :=
  let d := drawTables s vf 5
  let tab (l : Nat) : Nat := d.1.getD l 0
  modVf d.2 vf fun v =>
    { v with
      pages := mapPages v.pages sub lvl dva (leafOf x) tab
      roots := if v.roots.any (fun e => e.1 == sub) then v.roots else mapPut v.roots sub (tab 0) }

/-- INVALIDATION_COMPLETE (R201): a change of a mapping takes effect, and what waited for it goes on: a range entry
replays the pages that it covers (R395). A guest switch ends at its bound whatever is still open (R352). DEDUCED, log
46. -/
def execInvalidationComplete (s : State) : Host.Outcome State Fault Refusal :=
  let k := argN s 0
  match s.invs.find? fun e => e.1 == k with
  | none => .next s
  | some (_, x) =>
    if invPending s x ∧ (x.till = 0 ∨ s.mer < x.till) then .next (sched s (s.mer + 64) .invalidationComplete [k])
    else
      let s1 := { s with invs := mapDel s.invs k }
      match x.what with
      | 0 =>
        let e := entryOf x.entry
        let s2 := setRange s1 x.vf x.sub x.place x.entry
        .next (endCmd (if e.valid then replayPages s2 x.vf x.sub e.base (e.limit - e.base) else s2) x.fn 0)
      | 1 =>
        .next (kickReady (takeAll (endCmd (modVf s1 x.vf fun v => { v with cursub := x.place }) x.fn 0) x.vf) x.vf)
      | 2 => .next (endCmd s1 x.fn 0)
      | 3 => .next (waitCmd s1 x.fn)
      | 5 =>
        .next (endCmd (replayPages (setPage s1 x.vf x.sub x.place x.base x.entry) x.vf x.sub x.base x.len) x.fn 0)
      | _ => .next (ackPriv s1 x.fn)

/-- MAPPAGE (R198, R342, R408): the entry is checked, and takes effect with its invalidation. -/
def execMappage (s : State) : Host.Outcome State Fault Refusal :=
  let f := argN s 0
  let vf := cmdVf s f
  let sub := cmdSub s f
  let dva := cmdArg s f 0
  let x := cmdArg s f 1
  let lvl := cmdArg s f 2
  let st := pageStatus s vf dva x lvl
  let leaf := leafOf x
  runCmd s 0x04 .both true <|
    if (getVf s f).cmdStep ≠ 0 then s
    else if pfLocked s f vf then endCmd s f 5
    else if st ≠ 0 then endCmd s f st
    else
      invalidate (setStep s f 1)
        { vf := vf, sub := sub, base := dva, len := leafSize lvl * spanCount lvl leaf.span, what := 5, fn := f, place := lvl
          entry := x }

/-- A launch of a function runs, unless a pre-emption has stopped it (R352). -/
def runningLaunch (s : State) (vf : Nat) : Bool :=
  (getVf s vf).pre == .none && s.launches.any fun e => e.2.vf == vf && e.2.running && !e.2.done

/-- GSWITCH (R352): no record is taken and no launch starts until the target's translation is in force, within 20 µs of
its doorbell (80,000 cycles, of which at most 4,096 have passed, and 64 are left for the last look). -/
def execGswitch (s : State) : Host.Outcome State Fault Refusal :=
  let f := argN s 0
  let sub := cmdArg s f 0
  runCmd s 0x05 .vf false <|
    if (getVf s f).cmdStep ≠ 0 then s
    else if 16 ≤ sub then endCmd s f 1
    else if runningLaunch s f then endCmd s f 4
    else
      invalidate (setStep s f 1)
        { vf := f, sub := 16, base := 0, len := 2 ^ 57, what := 1, fn := f, place := sub, till := s.mer + 75840 }

/-- SLICE (R342, R347). -/
def execSliceCmd (s : State) : Host.Outcome State Fault Refusal :=
  let f := argN s 0
  let die := cmdArg s f 0
  let us := cmdArg s f 1
  runCmd s 0x06 .pf false <|
    if 4 ≤ die ∨ us < 100 ∨ 100000 < us then endCmd s f 1
    else endCmd { s with pkg := { s.pkg with slice := mapSet 0 s.pkg.slice die us } } f 0

/-- FAULTRING (R396): a ring and its deadline in µs, or no ring. -/
def execFaultring (s : State) : Host.Outcome State Fault Refusal :=
  let f := argN s 0
  let a := cmdArg s f 0
  let us := cmdArg s f 1 % 2 ^ 32
  runCmd s 0x07 .vf false <|
    if a = 0 then endCmd (modVf s f fun v => { v with ring := 0, ringOff := true }) f 0
    else if a % 4096 ≠ 0 ∨ us < 100 ∨ 10000000 < us then endCmd s f 1
    else endCmd (modVf s f fun v => { v with ring := a, ringOff := false, fdead := us }) f 0

end Sys2Proof.Machine
end

