-- ==== Sys2Proof/Machine/Preempt.lean ====
section
/-! DEFINITION. Pre-emption, saved contexts, resume and time slicing (07 R184; 11 R294 to R298; 15 R336, R347). -/

namespace Sys2Proof.Machine

/-- A partition is being stopped. -/
def isStopping (s : State) (vf : Nat) : Bool :=
  match (getVf s vf).pre with
  | .stopping _ => true
  | _ => false

/-- The function whose saved context stands under a SLOTID of the store, and whether it is that of vf (R295). -/
def savedOf (vf t : Nat) : Bool := t / 2 ^ 14 == vf + 1

/-- Contexts of a partition that are not empty, saved ones among them. -/
def partThreads (s : State) (vf : Nat) : List Nat :=
  (s.threads.filter fun e => e.2.vf == vf && e.2.st != .empty && !isFirmware s (dieOf e.1) (coreOf e.1)).map (·.1)

/-- The contexts in the slots of a partition: EMPTY ones hold mailbox registers and an inbox (R234, R184). -/
def partContexts (s : State) (vf : Nat) : List Nat :=
  (s.threads.filter fun e =>
    !isSaved e.1 && maskHas (diesOf s vf) (dieOf e.1) && maskHas (slotsOf s vf) (slotOf e.1)
      && !isFirmware s (dieOf e.1) (coreOf e.1)).map (·.1)

/-- Parks with which a thread stops in place: none for results or for a cost is still running. -/
def stopsInPlace (s : State) (th : Thread) : Bool :=
  th.st == .parked && th.parks.any (fun p => !shortPark p) && th.parks.all fun p => !shortPark p || expired s.mer p

/-- A thread parked for anything but results or a cost stops in place once its results and matrix commands are complete
(R294): what is due has landed. One that waits for its gang's start stops in place at once. -/
def stopParked (s : State) (t : Nat) : State :=
  let th := getTh s t
  if th.st = .populated then modTh s t fun x => { x with st := .stopped, inPlace := true, unborn := true }
  else if stopsInPlace s th && th.pend.all (fun p => decide (p.due ≤ s.mer)) && th.mq.isEmpty && (peerLoads s t).isEmpty then
    modTh s t fun x => { landUpto x s.mer with st := .stopped, inPlace := true }
  else s

/-- A parked thread whose results are in flight is looked at again once they have landed. -/
def lookAgain (vf : Nat) (s : State) (t : Nat) : State :=
  if (getTh s t).st = .parked then sched s (settledAt s t s.mer) .contextSave [vf, 1] else s

/-- A gate wait is given up for a migration: its thread restarts at its safe point, and its context is saved as that of a
thread stopped there (R371). -/
def leaveGate (s : State) (t : Nat) : State :=
  (getTh s t).parks.foldl (fun a p =>
    match p with
    | .gate id =>
      if (getOp a id).granted then a
      else
        let s1 := modGate (delOp { a with gwaiters := a.gwaiters.filter (· != id) } id) (getOp a id).a fun x =>
          { x with fifo := x.fifo.filter (· != id) }
        modTh (dropRegion s1 t) t fun x =>
          { savedSafe (restarted x) with st := if isSaved t then .saved else .stopped, inPlace := false }
    | _ => a) s

/-- What a stop that is under way is for, once a request for another purpose meets it: a hold of the package takes the
place of every other (R35), a migration that of a slice's end and of a commit given up (R371). -/
def stopFor (old why : Nat) : Nat := if why = 3 ∨ (why = 2 ∧ (old = 0 ∨ old = 4)) then why else old

/-- TRIP, TCAUSE and TDIE are set, and vector 2 raised, once every placed partition is frozen (R35, R344).
DEDUCED, log 51. -/
def checkTrip (s : State) : State :=
  let p := s.pkg
  if p.hold = 0 ∨ p.trip ∨ s.vfs.any (fun e => e.2.layout.slots != 0 && !e.2.tstop) then s
  else
    raiseMsix { s with pkg := { p with trip := true, tcause := p.hold, tdie := if p.hold = 1 then p.holdDie else p.tdie } } 0 2

/-- A partition is frozen by the management core: HEALTH.TSTOP and its vector 2 (R344). -/
def stopVf (s : State) (vf : Nat) : State :=
  checkTrip (raiseMsix (modVf s vf fun v => { v with tstop := true }) vf 2)

/-- A partition that does not run is frozen for a hold of the package (R35, R344), once. -/
def freezeStill (s : State) (vf : Nat) : State := if (getVf s vf).tstop then s else stopVf s vf

/-- PREEMPTION_REQUEST (R294): the partition of operand 0 is to be stopped; operand 1 is 0 for slicing, 1 for a layout
commit, 2 for migration, 3 for a hold of the package, and 4 for a commit given up. It waits for a guest switch (R352), a
migration for a commit too. A partition that is saved already is only made ready to migrate (R371), or is frozen as it
is (R35). -/
def execPreemptionRequest (s : State) : Host.Outcome State Fault Refusal :=
  let vf := argN s 0
  let why := argN s 1
  let v := getVf s vf
  let later : State := sched s (s.mer + 8) .preemptionRequest [vf, why]
  if switching s vf then .next (sched s (s.mer + 64) .preemptionRequest [vf, why])
  else if why = 2 ∧ (v.pre = .stopping 1 ∨ v.pre = .saved 1 ∨ v.pre = .cut) then .next later
  else
    match v.pre with
    | .saved _ =>
      if why = 2 then .next (modVf ((partThreads s vf).foldl leaveGate s) vf fun x => { x with pre := .saved 2 })
      else .next (if why = 3 then freezeStill s vf else s)
    | .cut => .next (if why = 3 then freezeStill s vf else s)
    | .stopping w => .next (modVf s vf fun x => { x with pre := .stopping (stopFor w why) })
    | .none =>
      if !v.resident then .next (if why = 3 ∧ v.layout.slots ≠ 0 then freezeStill s vf else s)
      else
        let s1 := { modVf s vf (fun x => { x with pre := .stopping why }) with
          launches := s.launches.map fun e =>
            if e.2.vf = vf ∧ e.2.members.any (fun t => (getTh s t).lid == e.1 && (getTh s t).st == .populated) then
              (e.1, { e.2 with start := 0 }) else e }
        let ts := partThreads s1 vf
        .next (sched (ts.foldl (lookAgain vf) (ts.foldl stopParked s1)) (s.mer + 8) .contextSave [vf])

/-- A context that no longer runs (R294). -/
def isStill (th : Thread) : Bool :=
  match th.st with
  | .empty | .populated | .frozen | .stopped | .saved | .exited => true
  | _ => false

/-- A request that does not delay a save (R294): held as replayable, or one that waits for something else. -/
def settled (o : Op) : Bool :=
  o.held.isSome || o.failed
    || (match o.kind with
        | .sigw | .gsig | .gwait | .nodeWait | .priv | .cpl => true
        | _ => false)

/-- A dated line access of a request of a partition (R294): the page is translated, so it is to be performed. -/
def lineDue (s : State) (vf : Nat) (i : Item) : Bool :=
  let id := i.args.headD 0
  (i.ev == .lineRead || i.ev == .lineWrite) && id != 0 && hasOp s id && (getOp s id).vf == vf && !(getOp s id).failed
    && (getOp s id).held.isNone && !scBlocked s id

/-- The saving conditions of a partition hold (R294): every thread is still with nothing in flight, requests are complete
or held, no access is left in transit, and messages are accepted or held at their sender. -/
def saveReady (s : State) (vf : Nat) : Bool :=
  (partThreads s vf).all (fun t => isStill (getTh s t) && nothingInFlight s t)
    && s.ops.all (fun e => e.2.vf != vf || settled e.2)
    && s.wacts.all (fun w =>
      match w.kind with
      | .opRead o _ | .opWrite o _ => (getOp s o).vf != vf || (getOp s o).held.isSome
      | .store _ _ _ _ | .mread _ _ => (getTh s w.owner).vf != vf)
    && !s.agenda.any (lineDue s vf)
    && s.msgs.all fun e => e.2.vf != vf || e.2.held

/-- A scratchpad byte address of a partition with its local address in place of the bank, and back (R185, R349). -/
def toLocal (s : State) (vf a : Nat) : Nat :=
  let sl := bitsOf (slotsOf s vf) 8
  let b := a % 2 ^ 18 / 4096
  let w := a % 4096 / 8 * (8 * sl.length) + 8 * sl.idxOf (b / 8) + b % 8
  a / 2 ^ 18 * 2 ^ 18 + 8 * w + a % 8
def ofLocal (s : State) (vf a : Nat) : Nat :=
  a / 2 ^ 18 * 2 ^ 18 + localOff s vf (a % 2 ^ 18 / 8) + a % 8

/-- A scratchpad byte of a user core in the banks of a partition. -/
def ownsByte (s : State) (vf a : Nat) : Bool :=
  decide (a < 2 ^ 40) && maskHas (diesOf s vf) (a / 2 ^ 26) && !isFirmware s (a / 2 ^ 26) (a / 2 ^ 18 % 256)
    && maskHas (slotsOf s vf) (a % 2 ^ 18 / 32768)

/-- Entries of a map by byte or by word, moved to other keys. -/
def moveKeys {α : Type} [DecidableEq α] (d : α) (m : Map α) (f : Nat → Nat) : Map α :=
  m.foldl (fun a e => mapStore d a (f e.1) e.2) []
def byWord (f : Nat → Nat) (w : Nat) : Nat := f (8 * w) / 8

/-- A thread with the words of its parks moved. -/
def movePark (f : Nat → Nat) (p : Park) : Park :=
  match p with
  | .take w => .take (byWord f w)
  | .put w => .put (byWord f w)
  | x => x
def moveThread (f : Nat → Nat) (th : Thread) : Thread :=
  { th with parks := th.parks.map (movePark f), wasParked := th.wasParked.map (movePark f) }

/-- A request with its thread and its local words moved. DEDUCED, log 51. -/
def moveOp (f g : Nat → Nat) (o : Op) : Op :=
  { o with
    thread := o.thread.map g
    parts := o.parts.map fun p =>
      { p with
        src := if !p.srcDev && decide (p.src < 2 ^ 40) then f p.src else p.src
        dst := if !p.dstDev && decide (p.dst < 2 ^ 40) then f p.dst else p.dst } }

/-- Requests, launches and held messages of a partition with SLOTIDs and local addresses moved. -/
def moveRest (s : State) (vf : Nat) (f g : Nat → Nat) : State :=
  { s with
    ops := s.ops.map fun e => if e.2.vf = vf then (e.1, moveOp f g e.2) else e
    launches := s.launches.map fun e => if e.2.vf = vf then (e.1, { e.2 with members := e.2.members.map g }) else e
    msgs := s.msgs.map fun e => if e.2.vf = vf then (e.1, { e.2 with src := g e.2.src, dst := g e.2.dst }) else e }

/-- Clear the scratchpad bytes that f picks, with all that a word carries (R189, R378). -/
def clearBytes (s : State) (f : Nat → Bool) : State :=
  { s with
    mem := s.mem.filter fun e => !f e.1
    poison := s.poison.filter fun e => !f (8 * e.1)
    empties := s.empties.filter fun e => !f (8 * e.1)
    shadows := s.shadows.filter fun e => !f (8 * e.1)
    feq := s.feq.filter fun e => !f (8 * e.1)
    flips := s.flips.filter fun e => !f (8 * e.1) }

/-- The words of banks that are read whole are corrected on the way (R204). -/
def correctBytes (s : State) (f : Nat → Bool) : State :=
  s.flips.foldl (fun a e => if f (8 * e.1) then correctWord a (8 * e.1 / 2 ^ 18) e.1 else a) s

/-- The context of a thread as it is saved: stopped at a safe point it holds what lives there, otherwise all (R295). A
stopped thread is SAVED (R270). -/
def contextOf (th : Thread) : Thread :=
  if th.st = .stopped then { (if th.inPlace then th else savedSafe th) with st := .saved } else th

/-- The watches of a partition leave their words, with the translations that they have; each is registered again at the
resume (R271, R297). -/
def dropWatches (s : State) (vf : Nat) : State :=
  { s with ops := s.ops.map fun e =>
      if e.2.vf = vf ∧ e.2.kind = .sigw ∧ !e.2.failed then
        (e.1, { e.2 with watching := false, pages := e.2.pages.map fun g => { g with pa := none } })
      else e }

/-- The watches of a partition that are not held for a page translate their words anew (R297). -/
def watchAgain (s : State) (vf : Nat) : State :=
  s.ops.foldl (fun a e =>
    if e.2.vf = vf ∧ e.2.kind = .sigw ∧ !e.2.failed ∧ e.2.held = none then sched a s.mer .copyTranslate [e.1, 0] else a) s

/-- The contexts, banks and queues of a partition leave the cores (R295, R296). -/
def saveContexts (s : State) (vf why : Nat) : State :=
  let mine (a : Nat) : Bool := ownsByte s vf a
  let s0 := correctBytes (if why = 2 then (partThreads s vf).foldl leaveGate s else s) mine
  let ts := partContexts s0 vf
  let f := toLocal s vf
  let g (t : Nat) : Nat := savedId vf (rankId s vf t)
  let x : Saved :=
    { mem := moveKeys 0 (s0.mem.filter fun e => mine e.1) f
      empties := moveKeys false (s0.empties.filter fun e => mine (8 * e.1)) (byWord f)
      poison := moveKeys false (s0.poison.filter fun e => mine (8 * e.1)) (byWord f)
      shadows := moveKeys 0 (s0.shadows.filter fun e => mine (8 * e.1)) (byWord f)
      feq := moveKeys [] ((s0.feq.filter fun e => mine (8 * e.1)).map fun e =>
        (e.1, e.2.map fun w => { w with t := g w.t })) (byWord f) }
  let s1 := clearBytes (moveRest (dropWatches s0 vf) vf f g) mine
  let s2 := ts.foldl (fun a t =>
    putTh (putTh a (g t) (moveThread f { contextOf (getTh s0 t) with stopAsked := false })) t {}) s1
  modVf { s2 with saved := mapPut s2.saved vf x } vf fun v =>
    { v with pre := .saved why, resident := false, waitFrom := if hasWork s vf then s.mer else 0 }

/-- What is saved of a partition is given up: its banks and its contexts (R323, R348, R350). -/
def dropSaved (s : State) (vf : Nat) : State :=
  { s with saved := mapDel s.saved vf, threads := s.threads.filter fun e => !savedOf vf e.1 }

/-- The unit of the chrysalis store of a die that holds a saved context and the banks of its slot (R296, R378): those of
a partition of more than four slots may stand in device memory instead. DESIGN CHOICE, log 66. -/
def storeUnit (s : State) (t : Nat) : Nat :=
  (Config.storeUnit t).toNat % (if 4 < slotCount s (t / 2 ^ 14 - 1) then 768 else 384)

/-- A saved context that is zeroed in its store: what firmware keeps of it beside the context stands. DESIGN CHOICE,
log 66. -/
def zeroedTh (th : Thread) : Thread :=
  { st := th.st, fault := th.fault, parks := th.parks, vf := th.vf, lid := th.lid, exiting := th.exiting, lidx := th.lidx
    launch := th.launch, frec := th.frec, wasParked := th.wasParked, inPlace := th.inPlace }

/-- The SLOTID of the saved context whose slot holds the bank of a local address that is saved (R185, R349). -/
def bankId (s : State) (vf a : Nat) : Nat :=
  savedId vf (a / 2 ^ 18 * 8 + a % 2 ^ 18 / 8 % (8 * slotCount s vf) / 8)

/-- The saved contexts that p picks, and the saved banks of the slots that it picks, are zeroed in the store (R378): a
slot has banks there whether or not it has a context. -/
def zeroSaved (s : State) (p : Nat → Bool) : State :=
  { s with
    threads := ((s.threads.filter fun e => isSaved e.1 && p e.1).map (·.1)).foldl
      (fun m t => mapSet {} m t (zeroedTh (mapGet {} m t))) s.threads
    saved := s.saved.map fun e =>
      let here (a : Nat) : Bool := p (bankId s e.1 a)
      (e.1,
        { e.2 with
          mem := e.2.mem.filter fun c => !here c.1
          empties := e.2.empties.filter fun c => !here (8 * c.1)
          poison := e.2.poison.filter fun c => !here (8 * c.1)
          shadows := e.2.shadows.filter fun c => !here (8 * c.1)
          feq := e.2.feq.filter fun c => !here (8 * c.1) }) }

/-- Two partitions that want the same slots of a die (R336). -/
def contend (a b : Layout) : Bool := (a.slots &&& b.slots) != 0 && (a.dies &&& b.dies) != 0

/-- Other sliced partitions of a rotation that wait with work (R347). -/
def waitingMembers (s : State) (vf : Nat) : List Nat :=
  let l := (getVf s vf).layout
  (s.vfs.filter fun e =>
    e.1 != vf && e.1 != 0 && e.2.layout.mode == 1 && !e.2.resident && contend l e.2.layout && hasWork s e.1
      && (match e.2.pre with
          | .saved 0 | .none => true
          | _ => false)).map (·.1)

/-- The slice length of a partition in cycles (R347, R404): that of its lowest die. DEDUCED, log 51. -/
def sliceOf (s : State) (vf : Nat) : Nat :=
  let d := (bitsOf (diesOf s vf) 4).headD 0
  let us := mapGet 0 s.pkg.slice d
  (if us = 0 then s.pkg.geuth.dslice else us) * 4000

/-- Sliced partitions of the rotation of w (R347): those that want slots of it on some die, itself among them. -/
def rotationOf (s : State) (w : Nat) : List Nat :=
  (s.vfs.filter fun e => e.1 != 0 && e.2.layout.mode == 1 && contend (getVf s w).layout e.2.layout).map (·.1)

/-- A member has waited longer than the member count of its rotation times the slice length (R347). DEDUCED, log 51. -/
def isLate (s : State) (w : Nat) : Bool :=
  let from_ := (getVf s w).waitFrom
  decide (from_ ≠ 0) && decide (from_ + (rotationOf s w).length * sliceOf s w < s.mer)

/-- The member of a list that has waited longest. -/
def longest (s : State) (ws : List Nat) : Option Nat :=
  ws.foldl (fun (m : Option Nat) w =>
    match m with
    | some x => if (getVf s w).waitFrom < (getVf s x).waitFrom then some w else m
    | none => some w) none

/-- The slots of a partition are free of other sliced partitions that run, or are about to (R336, R347); those of without
count as free. -/
def freeBut (s : State) (without vf : Nat) : Bool :=
  !s.vfs.any fun e => e.1 != vf && e.1 != without && (e.2.resident || e.2.picked) && contend (getVf s vf).layout e.2.layout
def slotsFree (s : State) (vf : Nat) : Bool := freeBut s vf vf

/-- The member that a rotation runs after vf (R347): one that has waited too long, else the next in VF order whose dies no
other rotation holds. -/
def nextMember (s : State) (vf : Nat) : Option Nat :=
  let ws := waitingMembers s vf
  match longest s (ws.filter (isLate s)) with
  | some w => some w
  | none =>
    let rs := ws.filter (freeBut s vf)
    (rs.find? fun w => decide (vf < w)).orElse fun _ => rs.head?

/-- A member whose dies are kept for another that has waited too long and is to be next on every die it needs (R347). -/
def keptOut (s : State) (vf : Nat) : Bool :=
  match longest s ((waitingMembers s vf).filter (isLate s)) with
  | some w => !isLate s vf || decide ((getVf s w).waitFrom < (getVf s vf).waitFrom)
  | none => false

/-- The longest save or restore of a partition, in cycles (R296). -/
def saveBound (s : State) (vf : Nat) : Nat := if 4 < slotCount s vf then 80000 else 64000

/-- Partition vf has left slots of a layout: the other sliced partitions that wait with work for some of them are looked
at, in VF order from the next after it (R347). -/
def wakeRotation (s : State) (vf : Nat) (l : Layout) : State :=
  (s.vfs.filter (fun e => decide (vf < e.1)) ++ s.vfs.filter fun e => decide (e.1 < vf)).foldl (fun a e =>
    if e.1 ≠ 0 ∧ e.2.layout.mode = 1 ∧ !e.2.resident ∧ contend l e.2.layout ∧ hasWork s e.1 then
      sched a s.mer .partitionResume [e.1]
    else a) s

/-- Member x is the next to run where its slots are free, and keeps them until its resume cycle c (R297, R347). -/
def pickMember (c : Nat) (s : State) (x : Nat) : State :=
  sched (if slotsFree s x then modVf s x fun v => { v with picked := true } else s) c .partitionResume [x]

/-- After partition vf has been saved, member w is resumed, and with it those that wait on dies that w does not need
(R347). DEDUCED, log 51. -/
def resumeNext (s : State) (vf w c : Nat) : State :=
  ((waitingMembers s vf).filter fun x => x != w && !contend (getVf s w).layout (getVf s x).layout && slotsFree s x).foldl
    (fun a x => if slotsFree a x then pickMember c a x else a) (pickMember c s w)

/-- The saving conditions hold: the contexts are saved, and the next member of the rotation, or the partition itself after
a commit given up, is resumed within the bounds of R296 and R297. -/
def saveNow (s : State) (vf why : Nat) : State :=
  let s1 := saveContexts s vf (if why = 4 then 0 else why)
  if why = 0 then
    let w := (nextMember s1 vf).getD vf
    let d := draw s1 vf 1 (saveBound s1 vf + saveBound s1 w)
    resumeNext d.2 vf w (s.mer + d.1)
  else if why = 4 then
    let d := draw s1 vf 1 (2 * saveBound s1 vf + 4096)
    pickMember (s.mer + d.1) d.2 vf
  else wakeRotation s1 vf (getVf s vf).layout

/-- CONTEXT_SAVE (R294, R295): once every thread is still and nothing is under way the contexts are saved, or the
partition stands frozen for a hold of the package (R35), after which there is no more to look at. Operand 1 says that the
look is an extra one. A thread that has parked since the request otherwise than for cost or results is stopped where it is:
DEDUCED, log 27. -/
def execContextSave (s : State) : Host.Outcome State Fault Refusal :=
  let vf := argN s 0
  match (getVf s vf).pre with
  | .stopping why =>
    if (getVf s vf).tstop then .next s else
    let s1 := (partThreads s vf).foldl stopParked s
    let again := if argN s 1 = 1 then s1 else sched s1 (s.mer + 64) .contextSave [vf]
    if why = 3 then
      if (partThreads s1 vf).all fun t => isStill (getTh s1 t) then .next (stopVf s1 vf) else .next again
    else if saveReady s1 vf then .next (saveNow s1 vf why)
    else .next again
  | _ => .next s

/-- A thread re-enters its parks, or runs where they have ended meanwhile (R297). -/
def reenter (s : State) (t : Nat) : State :=
  let th := getTh s t
  let s1 := th.parks.foldl (fun a p =>
    match p with
    | .sleep n => if n ≤ s.mer then endPark a t (· == p) s.mer else sched a n .sleepuWake [t]
    | _ => a) s
  if th.exiting then sched s1 s.mer .registerResultLand [t] else s1

/-- A saved context goes back into its slot at resume cycle R (R297). -/
def restoreThread (vf : Nat) (s : State) (e : Nat × Thread) : State :=
  let t := unrank s vf e.1
  let th := moveThread (ofLocal s vf) e.2
  let s1 := putTh s e.1 {}
  if th.st = .saved ∧ th.unborn then putTh s1 t { th with st := .populated, inPlace := false, unborn := false }
  else if th.st = .saved then
    reenter
      (putTh s1 t
        { th with
          st := if th.inPlace ∧ th.parks ≠ [] then .parked else .running
          inPlace := false, nextTurn := slotCycle s.mer (slotOf t), reached := false }) t
  else putTh s1 t th

/-- Everything saved of a partition goes back (R295, R297), into banks that have been zeroed (R378). Watches are registered
again (R297), and a GWAIT that was met meanwhile ends its park now (R368). -/
def restoreContexts (s0 : State) (vf : Nat) : State :=
  let s := if (getVf s0 vf).layout.mode = 1 ∨ s0.saved.any (fun e => e.1 == vf) then clearBytes s0 (ownsByte s0 vf) else s0
  match s.saved.find? fun e => e.1 == vf with
  | none => s
  | some e0 =>
    let x : Saved := e0.2
    let f := ofLocal s vf
    let g := unrank s vf
    let s1 : State := moveRest { s with saved := mapDel s.saved vf } vf f g
    let s2 : State :=
      { s1 with
        mem := x.mem.foldl (fun m e => wrByte m (f e.1) e.2) s1.mem
        empties := x.empties.foldl (fun m e => mapSet false m (byWord f e.1) e.2) s1.empties
        poison := x.poison.foldl (fun m e => mapSet false m (byWord f e.1) e.2) s1.poison
        shadows := x.shadows.foldl (fun m e => mapSet 0 m (byWord f e.1) e.2) s1.shadows
        feq := x.feq.foldl (fun m e => mapSet [] m (byWord f e.1) (e.2.map fun w => { w with t := g w.t })) s1.feq }
    let s3 := (s2.threads.filter fun e => savedOf vf e.1).foldl (restoreThread vf) s2
    let s4 := s3.ops.foldl (fun a e =>
      if e.2.vf = vf ∧ e.2.granted ∧ e.2.kind = .gwait then
        dropOp (endPark a (e.2.thread.getD 0) (· == .gate e.1) a.mer) e.1
      else if e.2.vf = vf ∧ e.2.granted ∧ e.2.kind = .gsig ∧ !e.2.watching then sendGrant a e.1
      else a) (watchAgain s3 vf)
    let ls := (s4.launches.filter fun e => e.2.vf == vf && e.2.running && !e.2.done).map (·.1)
    ls.foldl (fun a l => tryLaunch (syncCheckAll a l) l) s4

/-- Gangs that had not started, with start cycle 0, are announced anew (R294). DEDUCED, log 27. -/
def restartGangs (s : State) (vf : Nat) : State :=
  s.launches.foldl (fun a e =>
    if e.2.vf = vf ∧ e.2.running ∧ e.2.start = 0 then
      let d := draw a vf 0 4096
      sched (modLaunch d.2 e.1 fun y => { y with start := s.mer + d.1 }) (s.mer + d.1) .gangStart [e.1, s.mer + d.1]
    else a) s

/-- Requests and held messages carry the new instar (R298). -/
def renewInstar (s : State) (vf : Nat) : State :=
  { s with
    msgs := s.msgs.map fun e => if e.2.vf = vf then (e.1, { e.2 with instar := instarOf s vf }) else e
    ops := s.ops.map fun e => if e.2.vf = vf then (e.1, { e.2 with instar := instarOf s vf }) else e }

/-- The partition becomes resident at resume cycle R: the instar grows, contexts go on, its slice begins (R297, R298,
R347). -/
def resumePart (s : State) (vf : Nat) : State :=
  let s1 := modVf s vf fun v =>
    { v with
      instar := v.instar + 1, resident := true, pre := .none, waitFrom := 0, picked := false
      sliceTill := if v.layout.mode = 1 then s.mer + sliceOf s vf else 0 }
  let s2 := restartGangs (renewInstar (restoreContexts s1 vf) vf) vf
  let s3 := if (getVf s vf).layout.mode = 1 then sched s2 (s.mer + sliceOf s vf) .sliceEnd [vf] else s2
  kickReady s3 vf

/-- A member that was to run next and no longer may leaves its place to another of its rotation (R347). -/
def passOn (s : State) (vf : Nat) : State :=
  let s1 := modVf s vf fun x => { x with picked := false }
  match (if (getVf s vf).picked then nextMember s1 vf else none) with
  | some w => resumeNext s1 vf w s.mer
  | none => s1

/-- PARTITION_RESUME (R297, R347): a partition that is not resident, is not held and has work, or a saved one that is not
sliced, is resumed when its slots are free and are not kept for another; otherwise it waits. A guest switch ends first
(R352). -/
def execPartitionResume (s : State) : Host.Outcome State Fault Refusal :=
  let vf := argN s 0
  let v := getVf s vf
  let may := match v.pre with
    | .none => v.layout.mode == 1 && hasWork s vf
    | .saved why => why != 1 && why != 2 && (v.layout.mode == 0 || hasWork s vf)
    | .stopping _ | .cut => false
  if v.layout.slots = 0 ∨ v.resident ∨ v.tstop ∨ !may then .next (passOn s vf)
  else if switching s vf then .next (sched s (s.mer + 64) .partitionResume [vf])
  else if slotsFree s vf && (v.picked || !keptOut s vf) then .next (resumePart s vf)
  else
    .next (sched (modVf s vf fun x => { x with waitFrom := if x.waitFrom = 0 then s.mer else x.waitFrom })
      (s.mer + sliceOf s vf) .partitionResume [vf])

/-- SLICE_END (R347): another member is ready, or the slice is renewed. -/
def execSliceEnd (s : State) : Host.Outcome State Fault Refusal :=
  let vf := argN s 0
  let v := getVf s vf
  if !v.resident ∨ v.layout.mode ≠ 1 ∨ v.pre ≠ .none ∨ v.sliceTill ≠ s.mer then .next s
  else
    match nextMember s vf with
    | some _ => .next (sched s s.mer .preemptionRequest [vf, 0])
    | none =>
      .next (sched (modVf s vf fun x => { x with sliceTill := s.mer + sliceOf s vf }) (s.mer + sliceOf s vf) .sliceEnd [vf])

end Sys2Proof.Machine
end

