-- ==== Sys2Proof/Machine/Teardown.lean ====
section
/-! DEFINITION. Granules, binding, key slots' end, zeroing and scrub engines (17 R372 to R384; 16 R353, R354). -/

namespace Sys2Proof.Machine

/-- The fields of a bind or release: a range of whole 2 MiB pages in one compute die of this package (R373). -/
def bindFields (s : State) (base len : Nat) : Bool :=
  base % 2 ^ 21 == 0 && len % 2 ^ 21 == 0 && len != 0 && decide (len ≤ 2 ^ 30) && paOk s 0 base && !isRemote s base
    && paOk s 0 (base + len - 1) && paDie base == paDie (base + len - 1)

/-- Granules of a range bound to a function, and bound to any (R372). -/
def boundIn (s : State) (base len : Nat) (f : GranSt → Bool) : Bool :=
  s.granules.any fun e => decide (base / 4096 ≤ e.1) && decide (e.1 < (base + len) / 4096) && f e.2
def boundOther (vf : Nat) (g : GranSt) : Bool :=
  match g with
  | .bound w => w != vf
  | _ => false
def isBound (g : GranSt) : Bool :=
  match g with
  | .bound _ => true
  | _ => false

/-- Every granule of a range is listed, so none is DIRTY. -/
def noneDirty (s : State) (base len : Nat) : Bool :=
  (s.granules.filter fun e => decide (base / 4096 ≤ e.1) && decide (e.1 < (base + len) / 4096)).length == len / 4096

/-- A scrub engine that is RUNNING or INTERRUPTED holds a granule of a range (R373). -/
def scrubMeets (s : State) (base len : Nat) : Bool :=
  s.scrubs.any fun e => (e.2.st == 1 || e.2.st == 3) && meets e.2.lo (e.2.hi - e.2.lo) base len

/-- The status of a bind (R373), and its effect. -/
def bindStatus (s : State) (vf base len : Nat) : Nat :=
  if !bindFields s base len then 1
  else if boundIn s base len (boundOther vf) then 8
  else if !noneDirty s base len ∨ scrubMeets s base len then 7
  else 0
def bindRange (s : State) (vf base len : Nat) : State :=
  { s with granules := (List.range (len / 4096)).foldl (fun m i => mapSet .dirty m (base / 4096 + i) (.bound vf)) s.granules }

/-- The status of a release (R373). DEDUCED, log 44. -/
def releaseStatus (s : State) (vf base len : Nat) : Nat :=
  if !bindFields s base len then 1
  else if (s.granules.filter fun e =>
      decide (base / 4096 ≤ e.1) && decide (e.1 < (base + len) / 4096) && e.2 == .bound vf).length ≠ len / 4096 then 8
  else 0

/-- Leaves of 1 GiB that a released range cuts are split, with tables at tab, and leaves inside it removed; a span group
that loses a member is no longer one (R198, R373). DESIGN CHOICE, log 46. -/
def leafMeets (base len : Nat) (e : Nat × Leaf) : Bool :=
  e.2.leaf && meets e.2.addr (leafSize (keyLvl e.1)) base len
def leafCut (base len : Nat) (e : Nat × Leaf) : Bool :=
  leafMeets base len e && keyLvl e.1 == 2 && !(decide (base ≤ e.2.addr) && decide (e.2.addr + 2 ^ 30 ≤ base + len))
def dropLeaves (m : Map Leaf) (base len : Nat) (tab : Nat → Nat) : Map Leaf :=
  let broken (e : Nat × Leaf) : Bool := keyLvl e.1 == 2 && m.any fun x =>
    leafMeets base len x && keyLvl x.1 == 2 && keySub x.1 == keySub e.1 && keyDva x.1 / 2 ^ 32 == keyDva e.1 / 2 ^ 32
  let m0 := m.map fun e => if broken e then (e.1, { e.2 with span := false }) else e
  let cut := m0.filter (leafCut base len)
  let m1 := (List.range cut.length).foldl (fun a i =>
    let e := cut.getD i (0, {})
    splitLeaf (keySub e.1) 1 (keyDva e.1) e.2 (mapSet {} a e.1 { valid := true, leaf := false, addr := tab i }) 512) m0
  m1.filter fun e => !leafMeets base len e
def dropRanges (m : Map RangeEntry) (base len : Nat) : Map RangeEntry :=
  m.filter fun e => !(e.2.valid && (entryRanges e.2).any fun r => meets r.1 r.2 base len)

/-- A function's mappings of a released range are removed, and its granules become DIRTY (R373). -/
def releaseRange (s : State) (vf base len : Nat) : State :=
  let d := drawTables s vf ((getVf s vf).pages.filter (leafCut base len)).length
  dirtyRange
    (modVf d.2 vf fun v =>
      { v with
        ranges := dropRanges v.ranges base len, pages := dropLeaves v.pages base len fun i => d.1.getD i 0 }) base len

/-- A function has a mapping of a range (R346). -/
def mapsRange (v : Vf) (base len : Nat) : Bool :=
  v.ranges.any (fun e => e.2.valid && (entryRanges e.2).any fun r => meets r.1 r.2 base len)
    || v.pages.any (leafMeets base len)

/-- A teardown entry that a reset left open has still to run its program again, up to the end of its scrub; firmware
accepts no BIND before that (R401). -/
def rerunDue (s : State) : Bool := s.pkg.teardowns.any fun x => x.again && decide (x.step < 2)

/-- BIND (R373, R374, R401). -/
def execBindCmd (s : State) : Host.Outcome State Fault Refusal :=
  let f := argN s 0
  let vf := cmdVf s f
  let base := cmdArg s f 0
  let len := cmdArg s f 1
  let st := if cmdArg s f 2 ≠ 0 then 1 else bindStatus s vf base len
  let s1 := { s with pkg := { s.pkg with bndstat := st } }
  runCmd s 0x10 .pf true <|
    if rerunDue s then waitCmd s f
    else if st ≠ 0 then endCmd s1 f st else endCmd (bindRange s1 vf base len) f 0

/-- Bring forward the granules of an engine: the first granule at or after a physical address that stack j stores. -/
def firstGranule (j a : Nat) : Nat := a / 8192 * 8192 + j % 2 * 4096

/-- The engines of a die whose range is to be scrubbed start, as the teardown program starts them (R374, R380). -/
def startScrub (s : State) (lo hi : Nat) : State :=
  [0, 1].foldl (fun a k =>
    let j := 2 * paDie lo + k
    let e := mapGet ({} : Scrub) a.scrubs j
    if e.st = 1 ∨ e.st = 3 then a
    else
      sched { a with scrubs := mapSet {} a.scrubs j { lo := lo, hi := hi, next := firstGranule j lo, st := 1 } }
        (s.mer + 128) .scrubGranule [j]) s

/-- A teardown runs from its first step (R374, R383): its key slot is zeroised, by firmware's program after a free time.
The banks are cleared with the commit. DESIGN CHOICE, log 50. -/
def runTeardown (s : State) (x : Teardown) : State :=
  let d := draw s 0 1 100000
  let s1 := { d.2 with
    agenda := d.2.agenda.filter fun i => !(i.ev == .keyzZeroise && i.args == [0, x.key])
    pkg := { d.2.pkg with teardowns := d.2.pkg.teardowns.map fun y => if y.key = x.key then { y with step := 0 } else y } }
  sched s1 (s.mer + d.1) .keyzZeroise [0, x.key]

/-- The engine of stack j has no granule of a teardown's range left (R380). -/
def scrubbed (s : State) (x : Teardown) : Bool := noneDirty s x.base x.len && !scrubMeets s x.base x.len

/-- A teardown entry whose key is zeroised scrubs its range, once the engines are free, and then has its key slot to be
freed (R374, R383). A start on a range with a BOUND granule is refused (R380), and the engines stand as they were. -/
def advanceTeardowns (s : State) : State :=
  s.pkg.teardowns.foldl (fun a x =>
    if x.step ≠ 1 then a
    else if scrubbed a x || (boundIn a x.base x.len isBound && !scrubMeets a x.base x.len) then
      sched { a with pkg := { a.pkg with teardowns := a.pkg.teardowns.map fun y => if y = x then { y with step := 2 } else y } }
        s.mer .keyzFree [0, x.key + 4096]
    else if scrubMeets a x.base x.len then a
    else startScrub a x.base (x.base + x.len)) s

/-- A key slot is zeroised: an ACTIVE slot other than 0 (R376). -/
def zeroKey (s : State) (k : Nat) : State :=
  let x := keySlot s k
  if k ≠ 0 ∧ x.st = 1 then { s with keys := mapSet {} s.keys k { x with st := 2, gen := x.gen + 1 } } else s

/-- A ZEROED key slot becomes FREE (R376): no admission to its window, and no range entry under it, outlives it.
DESIGN CHOICE, log 67. -/
def freeKey (s : State) (k : Nat) : State :=
  let x := keySlot s k
  if k ≠ 0 ∧ x.st = 2 then
    { s with
      keys := mapSet {} s.keys k { gen := x.gen }
      admits := s.admits.filter fun e => e.1 / 65536 != k
      vfs := s.vfs.map fun e => (e.1, { e.2 with ranges := e.2.ranges.filter fun r => !(r.2.valid && r.2.keyid == k) }) }
  else s

/-- KEYZ with FREE = 0 (R376). Request 0 is the step of a teardown, which goes on with its scrub (R374). -/
def execKeyzZeroise (s : State) : Host.Outcome State Fault Refusal :=
  let k := argN s 1 % 4096
  if argN s 0 ≠ 0 then .next (ackPriv (zeroKey s k) (argN s 0))
  else if s.pkg.teardowns.any fun x => x.key == k && x.step == 0 then
    let s1 := zeroKey s k
    .next (advanceTeardowns { s1 with pkg := { s1.pkg with
      teardowns := s1.pkg.teardowns.map fun x => if x.key = k ∧ x.step = 0 then { x with step := 1 } else x } })
  else .next s

/-- An admission to a window key stands (R360). -/
def admitted (s : State) (k : Nat) : Bool := s.admits.any fun e => e.1 / 65536 == k

/-- A granule that was last written under a key slot is DIRTY, so firmware does not free the slot (R376). -/
def dirtyUnder (s : State) (k : Nat) : Bool :=
  s.lines.any fun e => e.2.key == k && !e.2.clean && granuleOf s (64 * e.1) == .dirty

/-- KEYZ with FREE = 1 (R376). Request 0 is the last step of a teardown, which closes its entries: a window key's
admissions are revoked before it (R360), and what was written under it is scrubbed. -/
def execKeyzFree (s : State) : Host.Outcome State Fault Refusal :=
  let k := argN s 1 % 4096
  if argN s 0 ≠ 0 then .next (ackPriv (freeKey s k) (argN s 0))
  else
    let mine := s.pkg.teardowns.filter fun x => x.key == k
    if mine = [] ∨ mine.any (fun x => x.step ≠ 2) then .next s
    else if admitted s k || dirtyUnder s k then .next (sched s (s.mer + 4096) .keyzFree s.args)
    else
      let s1 := freeKey s k
      .next { s1 with pkg := { s1.pkg with teardowns := s1.pkg.teardowns.filter fun x => x.key != k } }

/-- Fields of BNDREQ (R375): VF, base and length; reserved bits are zero. -/
def bndVf (v : Nat) : Nat := v / 2 ^ 52 % 2 ^ 12
def bndBase (v : Nat) : Nat := v / 2 ^ 21 % 2 ^ 27 * 2 ^ 21
def bndLen (v : Nat) : Nat := (v / 2 ^ 12 % 2 ^ 9 + 1) * 2 ^ 21
def bndOk (v : Nat) : Bool := v / 2 ^ 48 % 16 == 0 && v / 2 % 2 ^ 11 == 0

/-- BNDREQ (R373, R375). -/
def execBndreqBind (s : State) : Host.Outcome State Fault Refusal :=
  let v := argN s 1
  let st := if bndOk v then bindStatus s (bndVf v) (bndBase v) (bndLen v) else 1
  let s1 := { s with pkg := { s.pkg with bndstat := st } }
  .next (ackPriv (if st = 0 then bindRange s1 (bndVf v) (bndBase v) (bndLen v) else s1) (argN s 0))
def execBndreqRelease (s : State) : Host.Outcome State Fault Refusal :=
  let v := argN s 1
  let st := if bndOk v then releaseStatus s (bndVf v) (bndBase v) (bndLen v) else 1
  let s1 := { s with pkg := { s.pkg with bndstat := st } }
  if st ≠ 0 then .next (ackPriv s1 (argN s 0))
  else
    .next (invalidate (releaseRange s1 (bndVf v) (bndBase v) (bndLen v))
      { vf := bndVf v, sub := 17, base := bndBase v, len := bndLen v, what := 4, fn := argN s 0 })

/-- Whether a start of the engine of stack j is refused (R380). -/
def scrubRefused (s : State) (j : Nat) (e : Scrub) : Bool :=
  e.lo % 8192 != 0 || e.hi % 8192 != 0 || decide (e.hi ≤ e.lo) || !paOk s 0 e.lo || !paOk s 0 (e.hi - 1)
    || isRemote s e.lo || isRemote s (e.hi - 1) || paDie e.lo != j / 2 || paDie (e.hi - 1) != j / 2
    || boundIn s e.lo (e.hi - e.lo) isBound

/-- SCRUB_START (R380). -/
def execScrubStart (s : State) : Host.Outcome State Fault Refusal :=
  let j := argN s 1
  let e := mapGet ({} : Scrub) s.scrubs j
  let go (x : Scrub) : State :=
    sched { s with scrubs := mapSet {} s.scrubs j { x with st := 1 } } (s.mer + 128) .scrubGranule [j]
  let s1 :=
    if argN s 2 % 2 = 0 ∨ e.st = 1 then s
    else if e.st = 3 then go e
    else if scrubRefused s j e then s
    else go { e with next := firstGranule j e.lo }
  .next (ackPriv s1 (argN s 0))

/-- A granule is scrubbed (R381): every line clean-marked with counter 0, no poison, its nodes of the counter tree
rewritten; a DIRTY granule becomes CLEAN. -/
def scrubOne (s : State) (pa : Nat) : State :=
  let lo := deviceBase + pa
  (List.range 8).foldl (fun a i => writeTree a (pa + 512 * i) true)
    { s with
      mem := s.mem.filter fun e => !(decide (lo ≤ e.1) && decide (e.1 < lo + 4096))
      poison := s.poison.filter fun e => !(decide (lo ≤ 8 * e.1) && decide (8 * e.1 < lo + 4096))
      flips := s.flips.filter fun e => !(decide (lo ≤ 8 * e.1) && decide (8 * e.1 < lo + 4096))
      lines := s.lines.filter fun e => !(decide (pa / 64 ≤ e.1) && decide (e.1 < pa / 64 + 64))
      granules := if granuleOf s pa = .dirty then mapSet .dirty s.granules (pa / 4096) .clean else s.granules }

/-- SCRUB_GRANULE (R380, R381). -/
def execScrubGranule (s : State) : Host.Outcome State Fault Refusal :=
  let j := argN s 0
  let e := mapGet ({} : Scrub) s.scrubs j
  if e.st ≠ 1 then .next s
  else
    let s1 := scrubOne s e.next
    if e.next + 8192 < e.hi then
      .next (sched { s1 with scrubs := mapSet {} s1.scrubs j { e with next := e.next + 8192 } } (s.mer + 128) .scrubGranule [j])
    else
      .next (advanceTeardowns { s1 with scrubs := mapSet {} s1.scrubs j { e with next := e.hi, st := 2 } })

/-- The banks of a slot mask of a core are cleared with all that their words carry (R378). -/
def zeroBanks (s : State) (die core mask : Nat) : State :=
  clearBytes s fun a =>
    decide (scratchBase die core ≤ a) && decide (a < scratchBase die core + 2 ^ 18) && maskHas mask (a % 2 ^ 18 / 32768)

/-- BZERO (R378). -/
def execBzero (s : State) : Host.Outcome State Fault Refusal :=
  .next (ackPriv (zeroBanks s (argN s 1) (argN s 2) (argN s 3 % 256)) (argN s 0))

/-- CHZERO (R378): whole units of 64 KiB of a die's chrysalis store, of which there are 384, with the contexts and banks
that they hold. -/
def execChzero (s : State) : Host.Outcome State Fault Refusal :=
  let die := argN s 1
  let lo := argN s 2 % 2 ^ 16
  let n := argN s 2 / 2 ^ 16 % 2 ^ 16
  .next (ackPriv (zeroSaved s fun t =>
    dieOf t == die && decide (lo ≤ storeUnit s t) && decide (storeUnit s t < min 384 (lo + n))) (argN s 0))

end Sys2Proof.Machine
end

