-- ==== Sys2Proof/Machine/Layouts.lean ====
section
/-! DEFINITION. Layout commits, releases with teardown, function-level reset and TDISP (15 R335 to R350; 17 R374). -/

namespace Sys2Proof.Machine

/-- A layout descriptor (R339), and its reserved bits. -/
def layoutOf (d : Nat) : Layout :=
  { slots := bits d 7 0, dies := bits d 11 8, mode := bits d 12 12, syncd := bits d 31 16, keyid := bits d 43 32
    crate := bits d 51 48, stksh := bits d 63 56, wreg := bits d 74 64, vrate := bits d 87 80, meng := bits d 111 96
    ceng := bits d 127 112, peng := bits d 159 128 }
def layoutReserved (d : Nat) : Bool :=
  bits d 511 160 != 0 || bits d 95 88 != 0 || bits d 79 75 != 0 || bits d 55 52 != 0 || bits d 47 44 != 0
    || bits d 15 13 != 0

/-- Number of slots of a layout, and the effective copy rate and stack share (R337, R340). -/
def slotsIn (l : Layout) : Nat := popc 8 l.slots
def effCrate (l : Layout) : Nat := if l.crate = 0 then slotsIn l else l.crate
def effStack (l : Layout) : Nat := if l.stksh = 0 then 32 * slotsIn l else l.stksh

/-- MALFORMED descriptors (R340). -/
def layoutBad (s : State) (vf : Nat) (l : Layout) : Bool :=
  (l.slots == 0 && l != {})
    || (l.slots != 0
      && (l.dies == 0 || l.keyid == 0 || (keySlot s l.keyid).st != 1 || (keySlot s l.keyid).owner != vf))
    || maskHas l.syncd 0 || decide (8 < l.crate) || decide (1024 < l.wreg)
    || (List.range 16).any fun b => maskHas l.meng b && !maskHas l.dies (b / 4)

/-- The other placed layouts. -/
def placed (s : State) (vf : Nat) : List Layout :=
  (s.vfs.filter fun e => e.1 != vf && e.1 != 0 && e.2.layout.slots != 0).map (·.2.layout)

/-- A sum of shares over the placed layouts of a die. -/
def shareSum (ls : List Layout) (die : Nat) (f : Layout → Nat) : Nat :=
  (ls.filter fun l => maskHas l.dies die).foldl (fun m l => m + f l) 0

/-- The weight regions of the other partitions on a die, in units of 512 KiB (R191). -/
def wregions (s : State) (vf die : Nat) : List (Nat × Nat) :=
  (s.vfs.filter fun e => e.1 != vf && maskHas e.2.layout.dies die && e.2.layout.wreg != 0).map fun e =>
    (mapGet 0 e.2.wbase die / 2 ^ 19, e.2.layout.wreg)

/-- The lowest place for a weight region (R191). -/
def wplace (s : State) (vf die n : Nat) : Option Nat :=
  ((0 :: (wregions s vf die).map fun r => r.1 + r.2).mergeSort (fun a b => decide (a ≤ b))).find? fun b =>
    decide (b + n ≤ 1024) && (wregions s vf die).all fun r => !meets r.1 r.2 b n

/-- NO_RESOURCE descriptors (R336, R340). The stack share is that of all dies, since every die reaches every stack. -/
def layoutFull (s : State) (vf : Nat) (l : Layout) : Bool :=
  let os := placed s vf
  let all := l :: os
  l.slots != 0
    && ((os.any fun o => (o.slots &&& l.slots) != 0 && (o.dies &&& l.dies) != 0 && (o.mode == 0 || l.mode == 0))
      || (os.any fun o => (o.dies &&& l.dies) != 0 && (o.syncd &&& l.syncd) != 0)
      || (os.any fun o => (o.meng &&& l.meng) != 0 || (o.ceng &&& l.ceng) != 0 || (o.peng &&& l.peng) != 0)
      || ((List.range 4).any fun d =>
        decide (1024 < shareSum all d (·.wreg)) || decide (8 < shareSum all d effCrate))
      || (bitsOf l.dies 4).any (fun d => (wplace s vf d l.wreg).isNone)
      || decide (256 < all.foldl (fun m x => m + effStack x) 0)
      || decide (144 < all.foldl (fun m x => m + x.vrate) 0))

/-- Weight regions of a layout: kept where they stand, else placed anew and zeroed (R191, R193).
DESIGN CHOICE, log 46. -/
def placeWeights (s : State) (vf : Nat) (old new : Layout) : State :=
  (bitsOf new.dies 4).foldl (fun a die =>
    if old.wreg = new.wreg ∧ maskHas old.dies die then a
    else
      let b := (wplace a vf die new.wreg).getD 0 * 2 ^ 19
      let lo := weightBase die + b
      clearBytes (modVf a vf fun v => { v with wbase := mapSet 0 v.wbase die b }) fun x =>
        decide (lo ≤ x) && decide (x < lo + new.wreg * 2 ^ 19)) s

/-- Whether the bank of slot k of die d is in a layout, and whether another resident function has it (R336). -/
def hasBank (l : Layout) (d k : Nat) : Bool := maskHas l.dies d && maskHas l.slots k
def othersBank (s : State) (vf d k : Nat) : Bool := s.vfs.any fun e => e.1 != vf && e.2.resident && hasBank e.2.layout d k

/-- Banks that a condition picks are zeroed on every user core, but for those of other resident functions (R348,
R378). -/
def zeroShare (s : State) (vf : Nat) (p : Nat → Nat → Bool) : State :=
  clearBytes s fun a =>
    let d := a / 2 ^ 26
    let k := a % 2 ^ 18 / 32768
    decide (a < 2 ^ 40) && p d k && !isFirmware s d (a / 2 ^ 18 % 256) && !othersBank s vf d k

/-- Mirrors of the dies that a layout adds, for the gates that the function views (R364). -/
def addMirrors (s : State) (vf : Nat) (old new : Layout) : State :=
  (s.gviews.filter fun e => e.1 / 256 == vf && e.2.valid).foldl (fun a e =>
    ((bitsOf new.dies 4).filter fun d => !maskHas old.dies d).foldl (fun b d =>
      raiseMirror b d e.2.index (getGate s e.2.index).counter) a) s

/-- A layout moves a function's banks, and contexts saved for its commit do not follow (R323, R349). -/
def moves (old new : Layout) : Bool := old.slots != new.slots || old.dies != new.dies
def carried (s : State) (vf : Nat) (old new : Layout) : Bool :=
  (getVf s vf).pre == .saved 1 && slotsIn old == slotsIn new && old.dies == new.dies

/-- The entries of a saved bank map that are kept, by their places in the core. -/
def pickKeys {α : Type} (m : Map α) (f : Nat → Nat) (keep : Nat → Bool) : Map α :=
  (m.map fun e => (f e.1, e.2)).filter fun e => keep e.1

/-- The banks of a saved partition that a change of layout leaves with it, by their addresses in the core, with their
full/empty bits and poison marks (R323); what waited on their words is gone with its threads. -/
def imageOf (s : State) (vf : Nat) (keep : Nat → Bool) : Saved :=
  let f := ofLocal s vf
  match s.saved.find? fun e => e.1 == vf with
  | none => {}
  | some e =>
    let x : Saved := e.2
    { mem := pickKeys x.mem f keep
      empties := pickKeys x.empties (byWord f) fun w => keep (8 * w)
      poison := pickKeys x.poison (byWord f) fun w => keep (8 * w)
      shadows := pickKeys x.shadows (byWord f) fun w => keep (8 * w) }

/-- Banks of a function by address in the core go into the cores, or for a sliced function into its store, under the
layout in force (R295, R323). -/
def placeBanks (s : State) (vf : Nat) (x : Saved) : State :=
  if (getVf s vf).layout.mode = 0 then
    { s with
      mem := x.mem.foldl (fun m e => wrByte m e.1 e.2) s.mem
      empties := x.empties.foldl (fun m e => mapSet false m e.1 e.2) s.empties
      poison := x.poison.foldl (fun m e => mapSet false m e.1 e.2) s.poison
      shadows := x.shadows.foldl (fun m e => mapSet 0 m e.1 e.2) s.shadows }
  else
    let f := toLocal s vf
    let y : Saved :=
      { mem := moveKeys 0 x.mem f, empties := moveKeys false x.empties (byWord f)
        poison := moveKeys false x.poison (byWord f), shadows := moveKeys 0 x.shadows (byWord f) }
    { s with saved := mapPut s.saved vf y }

/-- Contexts that do not follow their function into a new layout are given up; the banks that stand in both layouts keep
what they hold, in the cores or in the store (R323, R349). -/
def leaveContexts (s : State) (vf : Nat) (old new : Layout) : State :=
  let keep (a : Nat) : Bool := hasBank old (a / 2 ^ 26) (a % 2 ^ 18 / 32768) && hasBank new (a / 2 ^ 26) (a % 2 ^ 18 / 32768)
  let here := (getVf s vf).resident
  let s1 := if here ∧ new.mode = 1 then saveContexts s vf 0 else s
  let x := imageOf s1 vf keep
  let away := !here || new.mode == 1
  let s2 := modVf (dropSaved { s1 with threads := s1.threads.filter fun e => !(partContexts s vf).contains e.1 } vf) vf fun v =>
    { v with
      layout := new, resident := false, waitFrom := 0
      pre := if v.pre = .saved 2 then .saved 2 else if new.slots ≠ 0 ∧ new.mode = 1 then .saved 0 else .none }
  if new.slots ≠ 0 ∧ away then placeBanks s2 vf x else s2

/-- The programming of APPLY (R348): every share of a layout on every die. Contexts that do not follow are given up, and a
mask engine that changes owner serves its new one from the start (R171). -/
def applyLayout (s : State) (vf : Nat) (new : Layout) : State :=
  let old := (getVf s vf).layout
  let s1 :=
    if moves old new && !carried s vf old new then leaveContexts s vf old new
    else modVf s vf fun v => { v with layout := new, resident := v.resident && !moves old new && new.slots != 0 }
  let s2 := addMirrors (placeWeights s1 vf old new) vf old new
  let s3 := { s2 with maskFree := s2.maskFree.filter fun e => maskHas old.meng e.1 == maskHas new.meng e.1 }
  if old.peng = new.peng ∧ old.ceng = new.ceng then s3 else setRings s3 vf

/-- The end of a commit (R348, R349): what changes owner is zeroed, and the function goes on under its new layout:
resident where the mode says so, its contexts resumed within the bounds of R297, or saved when it becomes sliced. During
a hold of the package it is frozen, and one that leaves may have been the last to freeze (R35). -/
def finishLayout (s : State) (vf : Nat) (old new : Layout) : State :=
  let s1 := if moves old new then zeroShare s vf fun d k => hasBank old d k != hasBank new d k else s
  let v := getVf s1 vf
  let later (x : State) : State :=
    let d := draw x vf 1 (saveBound x vf + 4096)
    sched d.2 (s.mer + d.1) .partitionResume [vf]
  let s2 :=
    match v.pre with
    | .saved 1 => later (modVf s1 vf fun x => { x with pre := .saved 0 })
    | .saved _ => if new.mode = 0 then later s1 else s1
    | _ =>
      if new.slots = 0 then s1
      else if new.mode = 0 then modVf s1 vf fun x => { x with resident := true }
      else if v.resident ∧ old.mode = 0 then saveContexts s1 vf 0
      else s1
  let s3 :=
    if s.pkg.hold = 0 then s2
    else if new.slots = 0 then checkTrip s2
    else if v.tstop then s2
    else sched s2 s.mer .preemptionRequest [vf, 3]
  wakeRotation (takeAll s3 vf) vf old

/-- CRC-32C of a list of bytes (R348). -/
def crcBits (c n : Nat) : Nat :=
  match n with
  | 0 => c
  | k + 1 => crcBits (if c % 2 = 1 then c / 2 ^^^ 0x82F63B78 else c / 2) k
def crc32c (l : List Byte) : Nat := l.foldl (fun c b => crcBits (c ^^^ b.toNat) 8) 0xFFFFFFFF ^^^ 0xFFFFFFFF

/-- A layout as its descriptor has it (R339). -/
def layoutWord (l : Layout) : Nat :=
  l.slots + l.dies * 2 ^ 8 + l.mode * 2 ^ 12 + l.syncd * 2 ^ 16 + l.keyid * 2 ^ 32 + l.crate * 2 ^ 48 + l.stksh * 2 ^ 56
    + l.wreg * 2 ^ 64 + l.vrate * 2 ^ 80 + l.meng * 2 ^ 96 + l.ceng * 2 ^ 112 + l.peng * 2 ^ 128

/-- The CRC of a journal entry: of the function number, the phase and the two descriptors, in that order.
DESIGN CHOICE, log 68. -/
def entryCrc (vf phase : Nat) (old new : Layout) : Nat :=
  crc32c (bytesOfNat 132 (vf + phase * 2 ^ 16 + layoutWord old * 2 ^ 32 + layoutWord new * 2 ^ 544))
def entryOk (j : Journal) : Bool := j.crc == entryCrc j.vf j.phase j.old j.new

/-- The journal holds an entry for a function in a phase (R348). -/
def putJournal (s : State) (vf phase : Nat) (old new : Layout) : State :=
  { s with pkg := { s.pkg with journal := (s.pkg.journal.filter fun j => j.vf != vf)
      ++ [{ vf := vf, old := old, new := new, phase := phase, crc := entryCrc vf phase old new }] } }
def dropJournal (s : State) (vf : Nat) : State :=
  { s with pkg := { s.pkg with journal := s.pkg.journal.filter fun j => j.vf != vf } }

/-- A function has a running launch or a graph in flight (R349). -/
def busyVf (s : State) (vf : Nat) : Bool :=
  s.launches.any (fun e => e.2.vf == vf && e.2.running && !e.2.done) || s.graphs.any fun e => e.2.vf == vf

/-- Launches of a function that are not complete. -/
def launchesLeft (s : State) (vf : Nat) : Bool := s.launches.any fun e => e.2.vf == vf && e.2.running && !e.2.done

/-- Everything a function runs ends with ABORTED (R350, R374): launches are killed, graphs fail. -/
def abortAll (s : State) (vf : Nat) (mute : Bool) : State := endGraphs (killPartition s vf 0 true) vf 10 0 mute

/-- A checked commit starts (R348, R349): it is journalled, and contexts are pre-empted where it moves running work. -/
def prepareLayout (s : State) (f vf : Nat) (old new : Layout) : State :=
  let s1 := putJournal s vf 1 old new
  if (moves old new || old.mode != new.mode) && busyVf s vf then
    waitCmd (sched (setStep s1 f 1) s.mer .preemptionRequest [vf, 1]) f
  else waitCmd (setStep s1 f 3) f

/-- The steps of a journalled commit (R348, R349): 1 waits for the pre-emption, 2 for the ends of killed launches, 3
programs the shares and marks the entry APPLIED, 4 zeroes and completes. A partition that is being migrated is asked to
stop for it again once the commit is done (R371). -/
def commitOn (s : State) (f : Nat) (j : Journal) : State :=
  let vf := j.vf
  let v := getVf s vf
  let apply (x : State) : State := waitCmd (setStep (putJournal (applyLayout x vf j.new) vf 2 j.old j.new) f 4) f
  let keep (p : PreSt) : State :=
    modVf (if v.pre = .saved 2 then sched s s.mer .preemptionRequest [vf, 2] else s) vf fun x => { x with pre := p }
  match (getVf s f).cmdStep, v.pre with
  | 1, .stopping _ => waitCmd s f
  | 1, .none =>
    if v.resident then waitCmd (sched s s.mer .preemptionRequest [vf, 1]) f
    else waitCmd (keep (.saved 1)) f
  | 1, .saved _ =>
    if slotsIn j.old != slotsIn j.new || j.old.dies != j.new.dies then
      waitCmd (setStep (killPartition (keep .cut) vf 0 true) f 2) f
    else waitCmd (setStep (keep (.saved 1)) f 3) f
  | 2, _ => if launchesLeft s vf then waitCmd s f else apply s
  | 3, _ => apply s
  | _, _ => endCmd (dropJournal (finishLayout s vf j.old j.new) vf) f 0

/-- A commit of a new layout (R340, R348, R349): checked at first, for LOCKED, MALFORMED, NO_RESOURCE and RUNNING in this
order (DESIGN CHOICE, log 63), then carried on by its journal entry. -/
def commitStep (s : State) (f vf : Nat) (new : Layout) (malformed : Bool) : State :=
  let old := (getVf s vf).layout
  match s.pkg.journal.find? (fun j => j.vf == vf), (getVf s f).cmdStep with
  | some j, _ + 1 => commitOn s f j
  | _, _ =>
    if pfLocked s f vf then endCmd s f 5
    else if malformed || layoutBad s vf new then endCmd s f 1
    else if layoutFull s vf new then endCmd s f 3
    else if (moves old new || old.mode != new.mode) && busyVf s vf && !cmdEvict s f then endCmd s f 4
    else prepareLayout s f vf old new

/-- LAYOUT (R342, R348) and SETMODE, which changes MODE only. -/
def execLayoutCmd (s : State) : Host.Outcome State Fault Refusal :=
  let f := argN s 0
  let d := hostRead s f (cmdArg s f 0) 64
  runCmd s 0x01 .pf true (commitStep s f (cmdVf s f) (layoutOf d) (layoutReserved d))
def execSetmode (s : State) : Host.Outcome State Fault Refusal :=
  let f := argN s 0
  let vf := cmdVf s f
  runCmd s 0x02 .pf true (commitStep s f vf { (getVf s vf).layout with mode := cmdArg s f 0 % 2 } false)

/-- The key slot that a teardown of a function names (R374): that of its layout, or the private one that it still owns
where it is unplaced already. DEDUCED, log 50. -/
def teardownKey (s : State) (vf : Nat) : Nat :=
  let k := (getVf s vf).layout.keyid
  if k ≠ 0 then k
  else
    match s.keys.find? fun e => e.1 != 0 && e.2.st != 0 && e.2.owner == vf && e.2.kind == 0 with
    | some e => e.1
    | none => 0

/-- RELEASE (R373, R374). Steps: 0 checks, 1 with TEARDOWN the launches end, 2 the mappings' invalidation, 3 done. -/
def execReleaseCmd (s : State) : Host.Outcome State Fault Refusal :=
  let f := argN s 0
  let vf := cmdVf s f
  let base := cmdArg s f 0
  let len := cmdArg s f 1
  let tear := cmdArg s f 2 == 1
  let v := getVf s vf
  let st := if 1 < cmdArg s f 2 then 1 else releaseStatus s vf base len
  let say (x : State) (n : Nat) : State := { x with pkg := { x.pkg with bndstat := n } }
  let drop (x : State) : State :=
    invalidate (setStep (releaseRange x vf base len) f 3)
      { vf := vf, sub := 17, base := base, len := len, what := 3, fn := f }
  runCmd s 0x11 .pf true <|
    match v.cmdStep, (getVf s f).cmdStep with
    | _, 0 =>
      if pfLocked s f vf ∧ (tear ∨ mapsRange v base len) then endCmd s f 5
      else if st ≠ 0 then endCmd (say s st) f st
      else if tear then waitCmd (setStep (abortAll (modVf s vf fun x => { x with pre := .none }) vf false) f 1) f
      else drop (say s 0)
    | _, 1 =>
      if launchesLeft s vf ∨ s.graphs.any (fun e => e.2.vf == vf) then waitCmd s f
      else
        let x : Teardown := { vf := vf, key := teardownKey s vf, base := base, len := len, lay := v.layout, step := 0 }
        let s1 := finishLayout (applyLayout s vf {}) vf v.layout {}
        let s2 := { s1 with pkg := { s1.pkg with teardowns := s1.pkg.teardowns ++ [x] } }
        drop (runTeardown (say s2 0) x)
    | _, _ => endCmd s f 0

/-- What a function-level reset waits for (R350): copies and engine commands that are not held. -/
def resetWaits (s : State) (vf : Nat) : Bool :=
  s.ops.any fun e =>
    e.2.vf == vf && e.2.held.isNone && !e.2.failed && !(diesWithThread e.2) && e.2.kind != .nodeWait && e.2.kind != .cpl

/-- The state of a function after its reset (R350, R345, R346, R396); a record that a queue is fetching is discarded
(R322). -/
def resetVf (v : Vf) : Vf :=
  { v with
    instar := v.instar + 1, cursub := 0, faccept := 0, locked := false, refused := false
    queues := v.queues.map fun e =>
      (e.1, { e.2 with cfg := e.2.cfg % 2 ^ 63, ci := 0, pi := 0, fetching := if e.2.fetching = 1 then 2 else e.2.fetching })
    tdisp := .unlocked, ring := 0, ringOff := false, fdead := 0, barred := false, halted := false
    pre := .none, resident := v.layout.slots != 0 && v.layout.mode == 0, waitFrom := 0 }

/-- A held request is given up by a function-level reset (R350): the node or record that it belongs to ends. -/
def dropHeld (s : State) (id : Nat) : State :=
  match (getOp s id).node with
  | some (g, n) =>
    if s.graphs.any fun e => e.1 == g then
      if n = 0xFFFF then endGraph (modGraph (delOp s id) g fun x => { x with started := true }) g
      else nodeFail (delOp s id) g n 10 0
    else delOp s id
  | none => dropOp s id

/-- The requests of a function that are held, or that have failed and whose records are not acted on, are given up
(R350). -/
def dropAllHeld (s : State) (vf : Nat) : State :=
  ((s.ops.filter fun e => e.2.vf == vf && (e.2.held.isSome || e.2.failed)).map (·.1)).foldl dropHeld s

/-- The end of a function-level reset (R350): its share is zeroed and it starts anew; members of its rotation may run
(R347), and a hold of the package stands (R35). -/
def resetNow (s : State) (vf : Nat) : State :=
  let l := (getVf s vf).layout
  let ts := (partContexts s vf).filter fun t => !othersBank s vf (dieOf t) (slotOf t)
  let s1 := zeroShare { dropSaved s vf with
    ops := s.ops.filter (fun e => e.2.vf != vf)
    threads := (dropSaved s vf).threads.filter (fun e => !ts.contains e.1)
    agenda := s.agenda.filter (fun i =>
      !((i.ev == .sendWindowReturn && i.args.getD 2 0 == vf) || (i.ev == .faultDeadlineExpire && i.args.headD 0 == vf)))
    windows := s.windows.filter (fun e => e.1 / 16 != vf) } vf (hasBank l)
  let s2 := wakeRotation (modVf s1 vf resetVf) vf l
  if s.pkg.hold ≠ 0 ∧ l.slots ≠ 0 ∧ !(getVf s vf).tstop then stopVf s2 vf else s2

/-- FUNCTION_LEVEL_RESET (R350): operand 0 the function, operand 1 nonzero once its launches have been killed. Every look
gives up what is held by then. -/
def execFunctionLevelReset (s : State) : Host.Outcome State Fault Refusal :=
  let vf := argN s 0
  let again (x : State) : State := sched x (s.mer + 64) .functionLevelReset [vf, 1]
  if vf = 0 ∨ 2048 < vf then .next s
  else if switching s vf then .next (sched s (s.mer + 64) .functionLevelReset [vf, argN s 1])
  else if argN s 1 = 0 then
    .next (again
      (dropAllHeld (abortAll (modVf s vf fun v => { v with barred := true, halted := true, pre := .none }) vf true) vf))
  else
    let s1 := dropAllHeld s vf
    if resetWaits s1 vf ∨ launchesLeft s1 vf then .next (again s1) else .next (resetNow s1 vf)

/-- LOCK_INTERFACE (R346): succeeds only with the feature word locked. -/
def execLockInterface (s : State) : Host.Outcome State Fault Refusal :=
  let v := getVf s (argN s 0)
  if v.tdisp = .unlocked ∧ featOk s (argN s 0) 11 ∧ argN s 0 ≠ 0 then
    .next (modVf s (argN s 0) fun x => { x with tdisp := .locked })
  else .next s

/-- START_INTERFACE (R346). -/
def execStartInterface (s : State) : Host.Outcome State Fault Refusal :=
  if (getVf s (argN s 0)).tdisp = .locked then .next (modVf s (argN s 0) fun x => { x with tdisp := .run }) else .next s

/-- STOP_INTERFACE (R346, R3): back to CONFIG_UNLOCKED through a function-level reset. -/
def execStopInterface (s : State) : Host.Outcome State Fault Refusal :=
  if argN s 0 = 0 ∨ 2048 < argN s 0 ∨ !featOk s (argN s 0) 11 then .next s
  else .next (sched s s.mer .functionLevelReset [argN s 0, 0])

end Sys2Proof.Machine
end

