-- ==== Sys2Proof/Machine/Keys.lean ====
section
/-! DEFINITION. Key, window and gate commands (16 R353, R359 to R371). -/

namespace Sys2Proof.Machine

/-- Fill a key slot (R353): the count of its fillings stands for its key material. -/
def fillKey (s : State) (slot vf kind : Nat) : State :=
  { s with keys := mapSet {} s.keys slot { st := 1, owner := vf, kind := kind, gen := (keySlot s slot).gen + 1 } }

/-- KEYNEW (R370); bits of an operand beyond its fields are ignored here and below (R12). DEDUCED, log 45. -/
def execKeynew (s : State) : Host.Outcome State Fault Refusal :=
  let f := argN s 0
  let slot := cmdArg s f 0 % 2 ^ 12
  let kind := cmdArg s f 1 % 4
  runCmd s 0x20 .pf true <|
    if kind = 1 ∧ !maskHas (foffer s) 6 then endCmd s f 2
    else if slot = 0 ∨ 2 ≤ kind then endCmd s f 1
    else if (keySlot s slot).st ≠ 0 then endCmd s f 7
    else endCmd (fillKey s slot (cmdVf s f) kind) f 0

/-- A window key (R359), and one that may have been zeroised since, from which admissions are still revoked (R360). -/
def isWindow (s : State) (k : Nat) : Bool := (keySlot s k).st == 1 && (keySlot s k).kind == 1
def wasWindow (s : State) (k : Nat) : Bool := (keySlot s k).st != 0 && (keySlot s k).kind == 1

/-- WADMIT (R359, R370). -/
def execWadmit (s : State) : Host.Outcome State Fault Refusal :=
  let f := argN s 0
  let k := cmdArg s f 0 % 2 ^ 12
  let r := cmdArg s f 1 % 8
  let vf := cmdVf s f
  runCmd s 0x21 .pf true <|
    if !maskHas (foffer s) 6 then endCmd s f 2
    else if !isWindow s k then endCmd s f 1
    else if (keySlot s k).owner = vf then endCmd s f 0
    else endCmd { s with admits := mapSet 0 s.admits (admitKey k vf) r } f 0

/-- Range entries of a function under a window key (R360). -/
def windowEntry (k : Nat) (e : Nat × RangeEntry) : Bool := e.2.valid && e.2.keyid == k

/-- WREVOKE (R360): the admission is withdrawn and the function's entries under the key become invalid. -/
def execWrevoke (s : State) : Host.Outcome State Fault Refusal :=
  let f := argN s 0
  let k := cmdArg s f 0 % 2 ^ 12
  let vf := cmdVf s f
  runCmd s 0x22 .pf true <|
    if (getVf s f).cmdStep ≠ 0 then s
    else if !maskHas (foffer s) 6 then endCmd s f 2
    else if !wasWindow s k ∨ (keySlot s k).owner = vf then endCmd s f 1
    else if pfLocked s f vf ∧ (getVf s vf).ranges.any (windowEntry k) then endCmd s f 5
    else
      let s1 := { s with admits := mapSet 0 s.admits (admitKey k vf) 0 }
      invalidate (setStep (modVf s1 vf fun v => { v with ranges := v.ranges.filter fun e => !windowEntry k e }) f 1)
        { vf := vf, sub := 18, base := k, len := 0, what := 2, fn := f }

/-- Entry i of an access list: its function and rights (R362). -/
def aclAt (acl : BitVec 256) (i : Nat) : Nat := acl.toNat / 2 ^ (16 * i) % 2 ^ 16
def aclVf (e : Nat) : Nat := e % 4096
def aclRights (acl : BitVec 256) (vf : Nat) : Option Nat :=
  ((List.range 16).find? fun i => aclVf (aclAt acl i) == vf).map fun i => aclAt acl i / 4096 % 8

/-- A malformed access list, or one that repeats a function (R362, R370). -/
def aclBad (acl : BitVec 256) : Bool :=
  (List.range 16).any fun i =>
    maskHas (aclAt acl i) 15 || (aclVf (aclAt acl i) == 0 && aclAt acl i != 0)
      || (aclVf (aclAt acl i) != 0 && (List.range i).any fun j => aclVf (aclAt acl j) == aclVf (aclAt acl i))

/-- The access list that a command of function f names. -/
def readAcl (s : State) (f : Nat) : BitVec 256 := BitVec.ofNat 256 (hostRead s f (cmdArg s f 2) 32)

/-- A window key has a gate (R361). -/
def keyHasGate (s : State) (k : Nat) : Bool := k != 0 && s.gates.any fun e => e.2.active && e.2.wkey == k

/-- A gate starts its token intervals at this cycle (R365). -/
def startTokens (s : State) (g : Nat) : State :=
  let x := getGate s g
  if x.rate = 0 then s else sched s (s.mer + tokenEvery x.rate) .gateTokenAdd [g, x.gen, x.epoch]

/-- GCREATE (R365, R370). -/
def execGcreate (s : State) : Host.Outcome State Fault Refusal :=
  let f := argN s 0
  let g := cmdArg s f 0 % 2 ^ 12
  let a1 := cmdArg s f 1
  let rate := a1 % 2 ^ 16
  let burst := a1 / 2 ^ 16 % 2 ^ 16
  let wkey := a1 / 2 ^ 32 % 2 ^ 12
  let vf := cmdVf s f
  let acl := readAcl s f
  runCmd s 0x28 .pf true <|
    if !maskHas (foffer s) 5 then endCmd s f 2
    else if burst = 0 ∨ (wkey ≠ 0 ∧ !(isWindow s wkey && (keySlot s wkey).owner == vf)) ∨ aclBad acl
    then endCmd s f 1
    else if (getGate s g).active ∨ keyHasGate s wkey then endCmd s f 7
    else
      endCmd (startTokens (setGate s g fun x =>
        { active := true, acl := acl, wkey := wkey, level := burst, burst := burst, rate := rate, owner := vf
          gen := (x.gen + 1) % 2 ^ 32, epoch := s.mer }) g) f 0

/-- View entries of a gate (R363). -/
def viewsOf (s : State) (g : Nat) : List (Nat × GView) := s.gviews.filter fun e => e.2.valid && e.2.index == g

/-- The views of a gate follow its access list, and threads parked on a right that is gone freeze (R369). -/
def applyAcl (s : State) (g : Nat) (acl : BitVec 256) : State :=
  let r (vf : Nat) : Nat := (aclRights acl vf).getD 0
  let s1 := { modGate s g (fun x => { x with acl := acl }) with
    gviews := s.gviews.filterMap fun e =>
      if e.2.valid ∧ e.2.index = g then
        (if r (e.1 / 256) = 0 then none else some (e.1, { e.2 with rights := r (e.1 / 256) }))
      else some e }
  breakGate s1 g 0x0B fun o => !maskHas (r o.vf) (if o.kind = .gsig then 0 else 1)

/-- GACL (R369, R370). -/
def execGacl (s : State) : Host.Outcome State Fault Refusal :=
  let f := argN s 0
  let g := cmdArg s f 0
  let acl := readAcl s f
  runCmd s 0x29 .pf false <|
    if !maskHas (foffer s) 5 then endCmd s f 2
    else if 4096 ≤ g ∨ !(getGate s g).active ∨ aclBad acl then endCmd s f 1
    else endCmd (applyAcl s g acl) f 0

/-- GFREE (R369, R370): the generation is kept for the next creation. -/
def execGfree (s : State) : Host.Outcome State Fault Refusal :=
  let f := argN s 0
  let g := cmdArg s f 0
  runCmd s 0x2A .pf false <|
    if !maskHas (foffer s) 5 then endCmd s f 2
    else if 4096 ≤ g ∨ !(getGate s g).active then endCmd s f 1
    else
      let s1 := breakGate s g 0x0C fun _ => true
      let s2 := { s1 with
        gviews := s1.gviews.filter fun e => !(e.2.valid && e.2.index == g)
        mirrors := s1.mirrors.filter fun e => e.1 % 4096 != g }
      endCmd (setGate s2 g fun x => { gen := x.gen }) f 0

/-- GVIEW (R363, R370): the entry stands on every die of the function, and its handle is written to the host.
DESIGN CHOICE, log 46. -/
def execGview (s : State) : Host.Outcome State Fault Refusal :=
  let f := argN s 0
  let g := cmdArg s f 0 % 4096
  let e := cmdArg s f 0 / 2 ^ 16 % 256
  let x := getGate s g
  runCmd s 0x2B .vf false <|
    if !featOk s f 5 then endCmd s f 2
    else
      match (if x.active then aclRights x.acl f else none) with
      | none => endCmd s f 8
      | some r =>
        let s1 := { s with
          gviews := mapSet {} s.gviews (f * 256 + e) { valid := true, index := g, rights := r, gen := x.gen }
          mem := hostWrite s f (cmdArg s f 2) 8 (x.gen * 2 ^ 8 + e) }
        endCmd ((bitsOf (diesOf s f) 4).foldl (fun a d => raiseMirror a d g x.counter) s1) f 0

/-- The 64-byte state of a gate (R362). DESIGN CHOICE, log 10. -/
def gateImage (g : Nat) (x : Gate) : Nat :=
  x.counter + x.gen * 2 ^ 64 + x.owner * 2 ^ 128 + x.rate * 2 ^ 144 + x.burst * 2 ^ 160 + x.level * 2 ^ 176
    + g * 2 ^ 192 + x.wkey * 2 ^ 204 + x.acl.toNat * 2 ^ 256

/-- The sealing of R371: the keystream and the tag that the two management cores' session key gives for a nonce are open,
so they are free functions of it. DESIGN CHOICE, log 10. -/
def sealed (nonce v : Nat) : Nat := v ^^^ (Config.sealStream nonce).toNat
def sealTag (nonce c : Nat) : Nat := (Config.sealTag nonce (BitVec.ofNat 512 c)).toNat

/-- A granted request of a gate that has not been counted (R365, R371). -/
def uncounted (s : State) (g : Nat) : Bool :=
  s.ops.any fun e => e.2.kind == .gsig && e.2.a == g && e.2.granted && !e.2.complete

/-- GEXPORT (R371): quiesced, then counted, then sealed. -/
def execGexport (s : State) : Host.Outcome State Fault Refusal :=
  let f := argN s 0
  let g := cmdArg s f 0
  runCmd s 0x2C .pf false <|
    if !maskHas (foffer s) 5 then endCmd s f 2
    else if 4096 ≤ g ∨ !(getGate s g).active then endCmd s f 1
    else
      let s1 := modGate s g fun x => { x with quiesced := true }
      if uncounted s1 g then waitCmd s1 f
      else
        let d := draw s1 0 0 (2 ^ 64 - 1)
        let e := draw d.2 0 0 (2 ^ 32 - 1)
        let nonce := d.1 + e.1 * 2 ^ 64
        let c := sealed nonce (gateImage g (getGate s g))
        let image := nonce + c * 2 ^ 96 + sealTag nonce c * 2 ^ 608
        endCmd { e.2 with mem := hostWrite e.2 f (cmdArg s f 2) 96 image } f 0

/-- GIMPORT (R371): after its tag the image's reserved bits and its access list are checked (R12, R362). DESIGN CHOICE,
log 10. -/
def execGimport (s : State) : Host.Outcome State Fault Refusal :=
  let f := argN s 0
  let m := hostRead s f (cmdArg s f 2) 96
  let nonce := m % 2 ^ 96
  let c := m / 2 ^ 96 % 2 ^ 512
  let v := sealed nonce c
  let g := bits v 203 192
  let acl := BitVec.ofNat 256 (v / 2 ^ 256)
  runCmd s 0x2D .pf false <|
    if !maskHas (foffer s) 5 then endCmd s f 2
    else if m / 2 ^ 608 % 2 ^ 128 ≠ sealTag nonce c then endCmd s f 8
    else if m / 2 ^ 736 ≠ 0 ∨ bits v 255 216 ≠ 0 ∨ bits v 127 96 ≠ 0 ∨ aclBad acl then endCmd s f 1
    else if (getGate s g).active then endCmd s f 7
    else
      endCmd (startTokens (setGate s g fun _ =>
        { active := true, acl := acl, wkey := bits v 215 204, level := bits v 175 160
          burst := bits v 175 160, rate := bits v 159 144, owner := bits v 143 128, gen := bits v 95 64
          counter := bits v 63 0, epoch := s.mer }) g) f 0

end Sys2Proof.Machine
end

