-- ==== Sys2Proof/Machine/Domain.lean ====
section
/-! DEFINITION. Load-store domains, collective groups, queue pairs, and attestation (10 R256, R257, R262, R266, R267; 19
R405). -/

namespace Sys2Proof.Machine

/-- A physical address with two package numbers exchanged: memory of this package answers to its own number (R194). -/
def swapPkg (a b pa : Nat) : Nat :=
  if pa / 2 ^ 42 = a then b * 2 ^ 42 + pa % 2 ^ 42 else if pa / 2 ^ 42 = b then a * 2 ^ 42 + pa % 2 ^ 42 else pa
def swapDevice (a b x : Nat) : Nat :=
  if deviceBase ≤ x ∧ x < deviceBase + 2 ^ 48 then deviceBase + swapPkg a b (x - deviceBase) else x

/-- The package takes a number (R256): what is kept by physical address is found under it, and requests that are
translated already go on to the memory that they were translated to. DEDUCED, log 51. -/
def renumber (s : State) (n : Nat) : State :=
  let o := s.pkg.pkg
  if n = o then s
  else
    let f := swapDevice o n
    let p := swapPkg o n
    let g (k u : Nat) : Nat := p (k * u) / u
    { s with
      mem := moveKeys 0 s.mem f
      poison := moveKeys false s.poison (byWord f)
      flips := moveKeys false s.flips (byWord f)
      lines := moveKeys {} s.lines fun k => g k 64
      granules := moveKeys .dirty s.granules fun k => g k 4096
      scrubs := s.scrubs.map fun e => (e.1, { e.2 with lo := p e.2.lo, hi := p e.2.hi, next := p e.2.next })
      ops := s.ops.map fun e => (e.1, { e.2 with pages := e.2.pages.map fun q => { q with pa := q.pa.map p } })
      invs := s.invs.map fun e => (e.1, if e.2.sub = 17 then { e.2 with base := p e.2.base } else e.2)
      pkg := { s.pkg with
        pkg := n, teardowns := s.pkg.teardowns.map fun x => { x with base := p x.base } } }

/-- The agreement of other packages is awaited for 1 s (R267); agreed lists what has come from each. -/
def awaitMembers (s : State) (f : Nat) : State :=
  sched (setStep { s with pkg := { s.pkg with agreed := [] } } f 1) (s.mer + 4000000000) .agreementTimeout [f]

/-- An agreement ends. -/
def endAgree (s : State) (f status : Nat) : State :=
  endCmd { s with
    agenda := s.agenda.filter fun i => !(i.ev == .agreementTimeout && i.args == [f])
    pkg := { s.pkg with agreed := [] } } f status

/-- Packages of a bitmap other than this one. -/
def others (m me : Nat) : List Nat := (bitsOf m 64).filter (· != me)

/-- Range entries, domain keys and groups that keep a package in its domain (R267). -/
def domainBusy (s : State) : Bool :=
  s.vfs.any (fun e => e.2.ranges.any fun r => r.2.valid && entryRemote s r.2)
    || s.keys.any (fun e => e.2.st == 1 && e.2.kind == 2)
    || s.pkg.groups.any fun e => e.2.valid && e.2.ranks.any fun r => r.1 != s.pkg.pkg

/-- The package joins (R256, R267). -/
def joinDomain (s : State) (f : Nat) : State :=
  let s1 := renumber s (cmdArg s f 2 % 64)
  endAgree { s1 with pkg := { s1.pkg with inDom := true, domId := cmdArg s f 0, members := cmdArg s f 1 } } f 0

/-- DOMJOIN (R267); a member bitmap without this package ends MALFORMED. DESIGN CHOICE, log 45. -/
def execDomjoin (s : State) : Host.Outcome State Fault Refusal :=
  let f := argN s 0
  let me := cmdArg s f 2 % 64
  runCmd s 0x30 .pf false <|
    if (getVf s f).cmdStep ≠ 0 then s
    else if !maskHas (foffer s) 9 then endCmd s f 2
    else if cmdArg s f 0 = 0 then
      if domainBusy s then endCmd s f 4
      else
        let s1 := renumber s 0
        endCmd { s1 with pkg := { s1.pkg with inDom := false, domId := 0, members := 0 } } f 0
    else if !maskHas (cmdArg s f 1) me then endCmd s f 1
    else if s.pkg.inDom then endCmd s f 7
    else if others (cmdArg s f 1) me = [] then joinDomain s f
    else awaitMembers s f

/-- The domain key of every listed package is set (R267). -/
def installDomKey (s : State) (f : Nat) : State :=
  if (keySlot s (cmdArg s f 0 % 2 ^ 12)).st ≠ 0 then endAgree s f 7
  else endAgree (fillKey s (cmdArg s f 0 % 2 ^ 12) (cmdVf s f) 2) f 0

/-- DOMKEY (R267). -/
def execDomkey (s : State) : Host.Outcome State Fault Refusal :=
  let f := argN s 0
  let slot := cmdArg s f 0 % 2 ^ 12
  let m := cmdArg s f 1
  runCmd s 0x31 .pf true <|
    if (getVf s f).cmdStep ≠ 0 then s
    else if !maskHas (foffer s) 9 ∨ !s.pkg.geuth.kdom ∨ !featOk s (cmdVf s f) 9 then endCmd s f 2
    else if slot = 0 ∨ cmdArg s f 2 = 0 ∨ !s.pkg.inDom ∨ !maskHas m s.pkg.pkg ∨ m &&& s.pkg.members ≠ m
    then endCmd s f 1
    else if others m s.pkg.pkg = [] then installDomKey s f
    else awaitMembers s f

/-- The rank table that a GROUPSET of function f names (R267), and an entry of one. -/
def readTable (s : State) (f : Nat) : List Nat :=
  (List.range (bits (cmdArg s f 0) 41 32 + 1)).map fun i => hostRead s f (cmdArg s f 1 + 8 * i) 8
def rankPair (e : Nat) : Nat × Nat := (e % 64, bits e 27 16)

/-- A rank table that fails its checks (R267), as one does that names no rank of this package. DESIGN CHOICE, log 45. -/
def tableBad (s : State) (t : List Nat) (dkey : Nat) : Bool :=
  let ps := t.map rankPair
  let mine := ps.filter fun p => p.1 == s.pkg.pkg
  t.any (fun e => e / 2 ^ 28 != 0 || bits e 15 6 != 0) || decide (ps.eraseDups.length ≠ ps.length) || mine.isEmpty
    || (if mine.length = ps.length then dkey != 0
        else (keySlot s dkey).st != 1 || (keySlot s dkey).kind != 2
          || mine.any (fun p => (keySlot s dkey).owner != p.2)
          || ps.any fun p => !maskHas s.pkg.members p.1 || !s.pkg.inDom)

/-- The group is installed (R262, R267), with the table that the packages agreed on. -/
def installGroup (s : State) (f : Nat) : State :=
  let a := cmdArg s f 0
  let x : Group := { valid := true, ranks := s.pkg.table.map rankPair, dkey := bits a 27 16 }
  endAgree { s with pkg := { s.pkg with groups := mapSet {} s.pkg.groups (a % 2 ^ 16) x, table := [] } } f 0

/-- The other packages of the rank table. -/
def tablePackages (s : State) : List Nat := ((s.pkg.table.map fun e => (rankPair e).1).eraseDups).filter (· != s.pkg.pkg)

/-- A collective record that names a group is outstanding (R267). -/
def groupBusy (s : State) (g : Nat) : Bool := s.ops.any fun e => e.2.kind == .engine && e.2.a == 1 && cGroup e.2.n == g

/-- GROUPSET (R267); the removal of a group that is not installed ends MALFORMED. DESIGN CHOICE, log 45. -/
def execGroupset (s : State) : Host.Outcome State Fault Refusal :=
  let f := argN s 0
  let a := cmdArg s f 0
  let g := a % 2 ^ 16
  runCmd s 0x32 .pf false <|
    if (getVf s f).cmdStep ≠ 0 then s
    else if !maskHas (foffer s) 7 then endCmd s f 2
    else if maskHas a 48 then
      if !(getGroup s g).valid then endCmd s f 1
      else if groupBusy s g then endCmd s f 4
      else endCmd { s with pkg := { s.pkg with groups := mapDel s.pkg.groups g } } f 0
    else if tableBad s (readTable s f) (bits a 27 16) then endCmd s f 1
    else if (getGroup s g).valid then endCmd s f 7
    else
      let s1 := { s with pkg := { s.pkg with table := readTable s f } }
      if tablePackages s1 = [] then installGroup s1 f else awaitMembers s1 f

/-- The command that waits for agreement goes on (R267): every member has answered, or one has failed: 0 attestation,
2 a key slot that is not FREE. -/
def agreeStep (s : State) (f : Nat) : State :=
  let opc := bits (getVf s f).cmdRec 7 0
  let need := if opc = 0x30 then others (cmdArg s f 1) (cmdArg s f 2 % 64)
    else if opc = 0x31 then others (cmdArg s f 1) s.pkg.pkg else tablePackages s
  if s.pkg.agreed.any fun p => p.2 == 0 then endAgree s f 8
  else if s.pkg.agreed.any fun p => p.2 == 2 then endAgree s f 7
  else if need.all fun p => s.pkg.agreed.contains (p, 1) then
    (if opc = 0x30 then joinDomain s f else if opc = 0x31 then installDomKey s f else installGroup s f)
  else s

/-- A command that waits for other packages. -/
def awaits (s : State) (f : Nat) : Bool :=
  let opc := bits (getVf s f).cmdRec 7 0
  (getVf s f).cmdRun && (getVf s f).cmdStep == 1 && (opc == 0x30 || opc == 0x31 || opc == 0x32)

/-- MEMBER_AGREEMENT (R267): package operand 1 answers operand 2 for the command of mailbox operand 0. -/
def execMemberAgreement (s : State) : Host.Outcome State Fault Refusal :=
  let f := argN s 0
  if !awaits s f then .next s
  else .next (agreeStep { s with pkg := { s.pkg with agreed := s.pkg.agreed ++ [(argN s 1, argN s 2)] } } f)

/-- AGREEMENT_TIMEOUT (R267): the agreement was not reached within 1 s. -/
def execAgreementTimeout (s : State) : Host.Outcome State Fault Refusal :=
  if awaits s (argN s 0) then .next (endAgree s (argN s 0) 9) else .next s

/-- A queue-pair descriptor that fails its checks (R267). -/
def qpBad (d : Nat) : Bool :=
  bits d 511 432 != 0 || maskHas d 195 || bits d 191 152 != 0 || bits d 199 196 == 0 || decide (5 < bits d 199 196)

/-- A queue-pair number that is not in use: the next one in turn. DESIGN CHOICE, log 46. -/
def freeQpn (s : State) : Nat :=
  let used := s.pkg.qps.map (·.1)
  let n := s.pkg.nextQpn
  ((List.range (used.length + 1)).map fun i => (n + i) % 2 ^ 24).find? (fun q => !used.contains q) |>.getD n

/-- QPCREATE (R266, R267). -/
def execQpcreate (s : State) : Host.Outcome State Fault Refusal :=
  let f := argN s 0
  let vf := cmdVf s f
  let d := hostRead s f (cmdArg s f 1) 64
  let n := freeQpn s
  runCmd s 0x33 .pf true <|
    if !maskHas (foffer s) 8 then endCmd s f 2
    else if qpBad d then endCmd s f 1
    else if 1024 ≤ (s.pkg.qps.filter fun e => e.2.vf == vf).length then endCmd s f 3
    else
      endCmd { s with
        mem := hostWrite s f (cmdArg s f 2) 8 n
        pkg := { s.pkg with qps := mapPut s.pkg.qps n { vf := vf, desc := d }, nextQpn := (n + 1) % 2 ^ 24 } } f 0

/-- A port record of a queue pair has not written its status yet (R267); its signal may still be to come. -/
def qpBusy (s : State) (q : Nat) : Bool :=
  s.ops.any fun e => e.2.kind == .engine && (e.2.opc == 3 || e.2.opc == 4) && bits e.2.n 279 256 == q
    && !(e.2.complete && (e.2.result == 2 || allPerformed e.2))

/-- QPDESTROY (R267); a QPN that does not exist or is another function's ends MALFORMED. DESIGN CHOICE, log 45. -/
def execQpdestroy (s : State) : Host.Outcome State Fault Refusal :=
  let f := argN s 0
  let q := cmdArg s f 0 % 2 ^ 24
  let x := mapGet ({} : QPair) s.pkg.qps q
  runCmd s 0x34 .pf true <|
    if !maskHas (foffer s) 8 then endCmd s f 2
    else if !s.pkg.qps.any (fun e => e.1 == q) ∨ x.vf ≠ cmdVf s f then endCmd s f 1
    else if qpBusy s q then waitCmd s f
    else endCmd { s with pkg := { s.pkg with qps := mapDel s.pkg.qps q } } f 0

/-- A measurement block (R405): those of the four images are open, the fifth identifies the package by its number,
stepping and fused security version. DESIGN CHOICE, log 10. -/
def measured (s : State) (i : Nat) : Nat :=
  if i < 5 then (Config.freeWord 0 (s.pkg.measure + i - 1)).toNat
  else s.pkg.bootPkg + s.pkg.stepping * 2 ^ 8 + s.pkg.fuses.svn * 2 ^ 16

/-- The hash of the transcript of an answer (R405): the two nonces and the five blocks. -/
def transcriptHash (s : State) (nonce own : Nat) : Nat :=
  (Config.spdmHash (([1, 2, 3, 4, 5].map (measured s)).foldl (fun a v => a * 2 ^ 128 + v) (nonce * 2 ^ 256 + own))).toNat

/-- MEASUREMENTS (R405): the blocks for the nonce of operand 0, signed with the identity key of certificate slot operand
1, of which there is slot 0; the responder adds a nonce of its own. DESIGN CHOICE, log 10. -/
def execMeasurements (s : State) : Host.Outcome State Fault Refusal :=
  let n := argN s 0
  let k := argN s 1
  if !s.pkg.certs.contains k then .next s
  else
    let d := draw s 0 0 (2 ^ 64 - 1)
    let h := transcriptHash s n d.1
    .next { d.2 with
      pkg := { d.2.pkg with spdm := mapPut d.2.pkg.spdm n h }
      out := d.2.out ++ [1, 2, 3, 4, 5].map (fun i => .spdm n i (measured s i))
        ++ [.spdmSigned n d.1 k (Config.rsaSign h).toNat] }

/-- VENDOR_DEFINED_REQUEST (R405): the second signature, of the transcript hash of the answer to the nonce of operand 0.
-/
def execVendorDefinedRequest (s : State) : Host.Outcome State Fault Refusal :=
  match s.pkg.spdm.find? fun e => e.1 == argN s 0 with
  | some e => .next { s with out := s.out ++ [.spdmSig (argN s 0) (Config.slhSign e.2).toNat] }
  | none => .next s

end Sys2Proof.Machine
end

