-- ==== Sys2Proof/Machine/Supervisor.lean ====
section
/-! DEFINITION. Collectors and trap queues, the supervisor's actions, replay and fault deadlines (18 R389 to R396). -/

namespace Sys2Proof.Machine

/-- The supervisor core of a collector (R19, R389): the second firmware column, in the collector's row. -/
def supervisorOf (s : State) (col : Nat) : Nat := (s.pkg.geuth.fcol.getD (col / 8) (0, 0)).2 * 8 + col % 8

/-- An admitted entry sets presence bit 0 of slot 0 of the supervisor core, with the value TQCNT (R392). -/
def ringSupervisor (s : State) (col : Nat) : State :=
  modTh s (slotid (col / 8) (supervisorOf s col) 0) fun th =>
    goodParity { th with xreg := mapSet 0 th.xreg 0 (BitVec.ofNat 64 (tqcnt (getCol s col))), pres := th.pres ||| 1 } 224

/-- Requests of a function held at a page. -/
def heldAt (s : State) (vf sub page : Nat) : List Nat :=
  (s.ops.filter fun e => e.2.vf == vf && e.2.sub == sub && e.2.held == some page).map (·.1)

/-- Some of the requests held at a page become unfixable (R395). -/
def failThese (s : State) (vf sub page : Nat) (ids : List Nat) : State :=
  ((heldAt s vf sub page).filter ids.contains).foldl unfixable s

/-- Requests held at a page become unfixable (R395); their deadlines are gone. -/
def failPage (s : State) (vf sub page : Nat) : State :=
  (heldAt s vf sub page).foldl unfixable { s with agenda := s.agenda.filter fun (i : Item) =>
    !(i.ev == .faultDeadlineExpire && i.args.take 3 == [vf, sub, page]) }

/-- The deadline of an XLATE entry counts from its first packet and stands for the requests of its packets (R396, R404).
-/
def armDeadline (s : State) (r : FaultRec) : State :=
  let us := if (getVf s r.vf).fdead = 0 then s.pkg.geuth.fdead else (getVf s r.vf).fdead
  sched s (max s.mer (r.mer + us * 4000)) .faultDeadlineExpire ([r.vf, r.cause / 16, r.addr] ++ r.ops)

/-- A packet that has merged with an entry shares the deadline of its requests (R390, R396), which counts from the entry's
first packet, whether those have been replayed meanwhile or not. -/
def joinDeadline (s : State) (e r : FaultRec) : State :=
  let key := [e.vf, e.cause / 16, e.addr] ++ e.ops
  let due (i : Item) : Bool := i.ev == .faultDeadlineExpire && i.args == key
  if s.agenda.any due then
    { s with agenda := s.agenda.map fun i => if due i then { i with args := key ++ r.ops } else i }
  else armDeadline s { e with ops := r.ops }

/-- A new XLATE entry (R396): an entry in the function's fault ring and its vector 1, and its deadline; with the ring
removed its requests are unfixable at once. -/
def newXlate (s : State) (r : FaultRec) : State :=
  let v := getVf s r.vf
  if r.vf = 0 then s
  else if v.ringOff then failThese s r.vf (r.cause / 16) r.addr r.ops
  else
    let n := v.ringSeq
    let e := r.addr % 2 ^ 57 + r.cause % 4 * 2 ^ 58 + r.cause / 16 % 16 * 2 ^ 60 + (n + 1) % 2 ^ 32 * 2 ^ 64
    let s1 := if v.ring = 0 then s
      else
        raiseMsix (modVf { s with mem := hostWrite s r.vf (v.ring + 16 * (n % 256)) 16 e } r.vf fun x =>
          { x with ringSeq := n + 1 }) r.vf 1
    armDeadline s1 r

/-- A packet r that merges with entry e (R390, R396): with the ring removed its request is unfixable at once too. -/
def moreXlate (s : State) (e r : FaultRec) : State :=
  if r.vf ≠ 0 ∧ (getVf s r.vf).ringOff then failThese s r.vf (r.cause / 16) r.addr r.ops else joinDeadline s e r

/-- A record enters the queue, in a reserved place or not (R391). -/
def enterQueue (s : State) (col : Nat) (r : FaultRec) (res : Bool) : State :=
  let s1 := ringSupervisor (modCol s col fun c => { c with queue := c.queue ++ [(r, res)] }) col
  if r.code = 0x20 then newXlate s1 r else s1

/-- An overflowed fatal record (R391): its partition freezes and starts nothing more; word 0 of the first is kept, and
every later one is counted. DEDUCED, log 23. -/
def overflow (s : State) (col : Nat) (r : FaultRec) : State :=
  let ts := (partThreads s r.vf).filter fun t =>
    (getTh s t).st == .running || (getTh s t).st == .parked || (getTh s t).st == .stopped || (getTh s t).st == .saved
      || (getTh s t).st == .populated
  let s1 := ts.foldl (fun a t =>
    let th := getTh a t
    freezeTh a t (recBranch th { r with pc := th.pc, nextpc := th.pc })) s
  modVf (modCol s1 col fun c =>
    { c with
      ovf := if c.ovf = 0 then recWord r false 0 else c.ovf
      ovfn := if c.ovf = 0 then c.ovfn else min (c.ovfn + 1) (2 ^ 32 - 1)
      ovq := c.ovq ++ [r] }) r.vf fun v =>
      { v with barred := true }

/-- A record that is not queued but counted (R391, R392). -/
def countInfo (c : Collector) (r : FaultRec) : Collector :=
  if r.code = 0x22 then { c with sumMissed := min (c.sumMissed + 1) (2 ^ 32 - 1) }
  else { c with sumLatent := min (c.sumLatent + 1) (2 ^ 32 - 1) }

/-- Replace the first entry that a packet merges with (R390). -/
def mergeInto (l : List (FaultRec × Bool)) (r : FaultRec) : List (FaultRec × Bool) :=
  match l with
  | [] => []
  | e :: t => if sameXlate e.1 r then (mergeRec e.1 r, e.2) :: t else e :: mergeInto t r

/-- Admission (R390, R391). DEDUCED, log 22. -/
def admitRec (s : State) (col : Nat) (r : FaultRec) : State :=
  let c := getCol s col
  match c.queue.find? fun e => sameXlate e.1 r with
  | some e => moreXlate (modCol s col fun x => { x with queue := mergeInto x.queue r }) e.1 r
  | none =>
  if c.input.any fun e => sameXlate e r then modCol s col fun x => { x with input := mergeIn x.input r }
  else if isFatal r.code then
    if ordinary c < 60 then recover (enterQueue s col r false) r.heal
    else if reserved c < 4 then recover (enterQueue s col r true) r.heal
    else overflow s col r
  else if isInfo r.code then
    if ordinary c < 60 then enterQueue s col r false else modCol s col fun x => countInfo x r
  else if ordinary c < 60 ∧ c.input = [] then enterQueue s col r false
  else modCol s col fun x => { x with input := x.input ++ [r] }

/-- FAULT_RECORD_ARRIVE (R391): the oldest packet on its way to the collector. -/
def execFaultRecordArrive (s : State) : Host.Outcome State Fault Refusal :=
  let col := argN s 0
  match (getCol s col).svc with
  | [] => .next s
  | r :: t => .next (admitRec (modCol s col fun c => { c with svc := t }) col r)

/-- Records that wait at the input enter while a place is free (R391). -/
def drainInput (s : State) (col n : Nat) : State :=
  match n with
  | 0 => s
  | k + 1 =>
    let c := getCol s col
    match c.input with
    | [] => s
    | r :: t =>
      if ordinary c < 60 then
        let s1 := modCol s col fun x => { x with input := t }
        drainInput
          (match c.queue.find? fun e => sameXlate e.1 r with
           | some e => moreXlate (modCol s1 col fun x => { x with queue := mergeInto x.queue r }) e.1 r
           | none => enterQueue s1 col r false) col k
      else s

/-- TQPOP (R392). -/
def execTqpop (s : State) : Host.Outcome State Fault Refusal :=
  let col := argN s 1
  let s1 := modCol s col fun c => { c with queue := c.queue.tail }
  .next (ackPriv (drainInput s1 col ((getCol s1 col).input.length)) (argN s 0))

/-- A write of 0 to TQOVFN (R392). -/
def execTqovfnClear (s : State) : Host.Outcome State Fault Refusal :=
  .next (ackPriv (modCol s (argN s 1) fun c => { c with ovf := 0, ovfn := 0, ovq := [] }) (argN s 0))

/-- A SUPCMD has its result (R393). -/
def supResult (s : State) (n : Nat) : Host.Outcome State Fault Refusal :=
  .next (ackPriv (modCol s (argN s 1) fun c => { c with supstat := n }) (argN s 0))

/-- The thread that a SUPCMD names (R393), or the result that refuses it. -/
def supTarget (s : State) : Nat × Nat :=
  let t := argN s 2 % 2 ^ 14
  let st := (getTh s t).st
  (t, if 144 ≤ coreOf t ∨ threadCol t ≠ argN s 1 ∨ st = .empty then 3 else if st = .stopped ∨ st = .saved then 5 else 0)

/-- CONTINUE (R393): the thread issues NEXTPC, and after DSL bundles TGT, from its next turn; a held park goes on, and one
for results or a cost keeps it from issuing until its end. A thread whose gate has gone freezes in place of its park
(R369). One that was to exit does so unless its NEXTPC has been edited. DEDUCED, log 16. -/
def continueTh (s : State) (t : Nat) : State :=
  let s1 := modTh s t fun th =>
    let r := th.frec
    let rot := match th.br with
      | some b => b.rot
      | none => none
    { th with
      st := if th.wasParked = [] then .running else .parked, parks := th.wasParked, wasParked := [], fault := 0
      exiting := th.exiting && r.nextpc == th.pc, pc := r.nextpc
      br := if r.dsl = 0 then none else some { tgt := r.tgt, left := r.dsl, rot := rot }
      nextTurn := slotCycle (max (s.mer + 1) (parkEnd { th with parks := th.wasParked })) (slotOf t), reached := false }
  let s2 := (getTh s1 t).parks.foldl (fun a p =>
    match p with
    | .sync d => syncCheck a (getTh a t).lid d
    | .sleep n => if n ≤ s.mer then endPark a t (· == p) s.mer else sched a n .sleepuWake [t]
    | .results _ => sched a s.mer .registerResultLand [t]
    | _ => a) s1
  match (getTh s t).broken with
  | some r0 =>
    let r := { r0 with mer := s.mer, nextpc := (getTh s2 t).pc }
    sendRec (freezeTh (modTh s2 t fun th => { th with broken := none }) t r) (threadCol t) r
  | none => s2

/-- A thread of a partition that is held frozen, whose state is not altered (R35): an action that would alter it waits.
DEDUCED, log 51. -/
def heldFrozen (s : State) (t : Nat) : Bool := (getVf s (getTh s t).vf).tstop

/-- CONTINUE (R393) waits until every result has landed. -/
def execSupContinue (s : State) : Host.Outcome State Fault Refusal :=
  let x := supTarget s
  let th := getTh s x.1
  if x.2 ≠ 0 then supResult s x.2
  else if th.st ≠ .frozen then supResult s 1
  else if th.frec.fatal then supResult s 2
  else if !isClean s x.1 ∨ heldFrozen s x.1 then .next (sched s (s.mer + 8) .supContinue s.args)
  else supResult (continueTh s x.1) 0

/-- A restart at the last safe point (R291): queues, watches and matrix commands of the region are given up. -/
def restartTh (s : State) (t : Nat) : State :=
  modTh (dropMatrix (dropRegion s t) t) t fun th =>
    { restarted th with st := .running, fault := 0, nextTurn := slotCycle (s.mer + 1) (slotOf t) }

/-- RESTART (R291, R393): the tiles of its safe point are complete first (R152). -/
def execSupRestart (s : State) : Host.Outcome State Fault Refusal :=
  let x := supTarget s
  let th := getTh s x.1
  if x.2 ≠ 0 then supResult s x.2
  else if th.st ≠ .frozen then supResult s 1
  else if th.frec.fatal then supResult s 2
  else if th.ckpt.mUpto ≠ none ∨ heldFrozen s x.1 then .next (sched s (s.mer + 8) .supRestart s.args)
  else supResult (restartTh s x.1) 0

/-- KILL (R386, R393). -/
def execSupKill (s : State) : Host.Outcome State Fault Refusal :=
  let x := supTarget s
  let th := getTh s x.1
  if x.2 ≠ 0 then supResult s x.2
  else if heldFrozen s x.1 then .next (sched s (s.mer + 8) .supKill s.args)
  else supResult (killLaunch s th.lid (if th.st = .frozen then th.fault else 0) false) 0

/-- Parks taken before a bundle (R271). -/
def beforePark (p : Park) : Bool :=
  match p with
  | .xreg | .replyEmpty | .replyFull | .copyLimit | .missed | .mqFull | .send => true
  | _ => false

/-- A thread freezes with FAULT = 0 and its next bundle in its record (R385, R393). DEDUCED, log 47. -/
def stopTh (s : State) (t : Nat) : State :=
  let th := getTh s t
  freezeTh (modTh s t fun x => { x with stopAsked := false }) t
    (recBranch th { threadRec s t 0 with pc := th.pc, nextpc := th.pc })

/-- STOP (R393): a thread parked after a bundle freezes when that park ends, and until then the write is looked at again,
with operand 3 set. DEDUCED, log 47. -/
def execSupStop (s : State) : Host.Outcome State Fault Refusal :=
  let x := supTarget s
  let th := getTh s x.1
  if x.2 ≠ 0 then supResult (modTh s x.1 fun y => { y with stopAsked := false }) x.2
  else if th.st = .frozen then supResult s (if argN s 3 = 1 ∧ th.fault = 0 then 0 else 1)
  else if th.st = .exited then supResult s 5
  else if th.st = .running ∨ (th.st = .parked ∧ th.parks.all beforePark) then supResult (stopTh s x.1) 0
  else
    .next (sched (modTh s x.1 fun y => { y with stopAsked := true }) (s.mer + 8) .supStop
      [argN s 0, argN s 1, argN s 2, 1])

/-- A SUPCMD with an undefined action (R393). -/
def execBadAction (s : State) : Host.Outcome State Fault Refusal := supResult s 4

/-- The page that REPLAYPG names under REPLAYVF (R392). -/
def replayTarget (s : State) : Nat × Nat × Nat :=
  let r := (getCol s (argN s 1)).replayvf
  (r % 2 ^ 12, r / 2 ^ 12 % 16, argN s 2 / 4096 % 2 ^ 45 * 4096)

/-- REPLAYPG (R392, R395). -/
def execReplaypgReplay (s : State) : Host.Outcome State Fault Refusal :=
  let x := replayTarget s
  .next (ackPriv (replayPages s x.1 x.2.1 x.2.2 4096) (argN s 0))
def execReplaypgUnfixable (s : State) : Host.Outcome State Fault Refusal :=
  let x := replayTarget s
  .next (ackPriv (failPage s x.1 x.2.1 x.2.2) (argN s 0))

/-- FAULT_DEADLINE_EXPIRE (R396): the requests of one entry, from operand 3 on, become unfixable. -/
def execFaultDeadlineExpire (s : State) : Host.Outcome State Fault Refusal :=
  .next (failThese s (argN s 0) (argN s 1) (argN s 2) (s.args.drop 3))

end Sys2Proof.Machine
end

