-- ==== Sys2Proof/Machine/Resets.lean ====
section
/-! DEFINITION. Temperatures, sensors and holds, resets and boot (01 R35; 15 R344, R348; 17 R383; 19 R399 to R404). -/

namespace Sys2Proof.Machine

/-- THERMAL_WARN (R35): WARN and TDIE, and vector 2 of the physical function when WARN is new. -/
def execThermalWarn (s : State) : Host.Outcome State Fault Refusal :=
  let s1 := { s with pkg := { s.pkg with warn := true, tdie := argN s 0 } }
  .next (if s.pkg.warn then s1 else raiseMsix s1 0 2)

/-- A hold of the package (R35, R399): every partition is frozen at its next safe point. -/
def holdPackage (s : State) (cause die : Nat) : State :=
  if s.pkg.hold ≠ 0 then s
  else
    let s0 := { s with pkg := { s.pkg with hold := cause, holdDie := die } }
    checkTrip (s0.vfs.foldl (fun a e =>
      if e.2.layout.slots = 0 then a
      else
        match e.2.pre with
        | .stopping _ => modVf a e.1 fun v => { v with pre := .stopping 3 }
        | _ => if e.2.resident then sched a s.mer .preemptionRequest [e.1, 3] else stopVf a e.1) s0)

/-- THERMAL_TRIP, COOLANT_FLOW_LOSS and LINK_DELIVERY_FAILURE (R35, R399). -/
def execThermalTrip (s : State) : Host.Outcome State Fault Refusal := .next (holdPackage s 1 (argN s 0))
def execCoolantFlowLoss (s : State) : Host.Outcome State Fault Refusal := .next (holdPackage s 2 0)
def execLinkDeliveryFailure (s : State) : Host.Outcome State Fault Refusal := .next (holdPackage s 3 0)

/-- SENSOR_REFRESH (R344): power and temperatures are what they are; with an inlet of at most 40 °C, and coolant
flowing, the module draws at most 1,500 W (R34). -/
def execSensorRefresh (s : State) : Host.Outcome State Fault Refusal :=
  let i := draw s 0 0 (2 ^ 16 - 1)
  let o := draw i.2 0 0 (2 ^ 16 - 1)
  let a := draw o.2 0 0 (if i.1 ≤ 640 ∧ s.pkg.hold ≠ 2 then 6000 else 2 ^ 16 - 1)
  let b := draw a.2 0 0 (2 ^ 64 - 1)
  let c := draw b.2 0 0 (2 ^ 32 - 1)
  .next (sched { c.2 with pkg := { c.2.pkg with
    pwr := BitVec.ofNat 64 (a.1 + i.1 * 2 ^ 16 + o.1 * 2 ^ 32), temp := BitVec.ofNat 64 b.1
    temp1 := BitVec.ofNat 64 c.1 } } (s.mer + 4000000) .sensorRefresh [])

/-- A Geuth table from its 512 bits (R404). -/
def geuthOf (x : Nat) : Geuth :=
  { magic := bits x 31 0, version := bits x 47 32, svn := bits x 127 64
    fcol := (List.range 4).map fun d => (bits x (132 + 10 * d) (128 + 10 * d), bits x (137 + 10 * d) (133 + 10 * d))
    foffer := bits x 383 256, kdom := bits x 384 384 == 1, kwin := bits x 385 385 == 1, dslice := bits x 447 416
    fdead := bits x 479 448
    reserved := bits x 63 48 ||| bits x 255 168 ||| bits x 415 386 ||| bits x 511 480 }

/-- A Geuth table that keeps the rules of its map (R404), and offers none of the reserved feature bits (R2). -/
def geuthOk (g : Geuth) : Bool :=
  g.magic == 0x48544547 && g.version == 2 && g.reserved == 0 && maskHas g.foffer 0 && decide (g.foffer < 2 ^ 12)
    && decide (100 ≤ g.dslice)
    && decide (g.dslice ≤ 100000) && g.fcol.all fun c => decide (c.1 < c.2) && decide (c.2 ≤ 17)

/-- The root admits a flash copy (R403): both signatures verify, against the public keys whose hashes are fused, and its
security version is at least the fused one; a table that breaks its map fails like a bad signature (R404). -/
def copyOk (f : Fuses) (x : FlashCopy) : Bool :=
  x.rsa && x.slh && x.rsaKey == f.rsaKey && x.slhKey == f.slhKey
    && match x.table with
      | some g => geuthOk g && decide (f.svn ≤ g.svn)
      | none => decide (f.svn ≤ x.svn)

/-- The copy of an item that is admitted: the first, else the second (R403). -/
def admitCopy (f : Fuses) (c : FlashCopy × FlashCopy) : Option FlashCopy :=
  if copyOk f c.1 then some c.1 else if copyOk f c.2 then some c.2 else none

/-- Boot admits every item from one of its two copies, or the root enters recovery (R403). -/
def bootOk (s : State) : Bool := s.pkg.copies.all fun c => (admitCopy s.pkg.fuses c).isSome

/-- The Geuth table that boot loads, from the admitted copy of the second item (R403, R404). -/
def bootTable (s : State) : Geuth :=
  match (s.pkg.copies[1]?).bind (admitCopy s.pkg.fuses) with
  | some { table := some g, .. } => g
  | _ => s.pkg.geuth

/-- Bytes of a memory region of the map. -/
def region (s : State) (lo hi : Nat) : Memory := s.mem.filter fun e => decide (lo ≤ e.1) && decide (e.1 < hi)

/-- Host memory and what the outside has received or will do are not the package's. -/
def outside (s t : State) : State :=
  { t with
    mem := region s hostBase (2 ^ 100), poison := s.poison.filter fun e => hostBase ≤ 8 * e.1
    inputs := s.inputs, out := s.out, free := mapSet 0 s.free 0 (mapGet 0 s.free 0 + 4), seq := max s.seq t.seq
    args := s.args, cur := s.cur }

/-- The state after a cold reset and boot (R356, R383, R401, R403): flash and fuses stay, the Geuth table is loaded, and
new tree keys are generated and the boot scrub starts, unless the root is in recovery. DEDUCED, log 48. -/
def coldReset (s : State) : State :=
  let t := outside s State.reset
  let ok := bootOk s
  { t with
    scrubs := if ok then t.scrubs else []
    agenda := if ok then t.agenda else t.agenda.filter fun (i : Item) => i.ev != .scrubGranule
    pkg := { t.pkg with
      geuth := bootTable s, copies := s.pkg.copies, fuses := s.pkg.fuses, recovery := !ok, measure := mapGet 0 s.free 0
      treeKey := if ok then s.pkg.treeKey + 1 else s.pkg.treeKey, stepping := s.pkg.stepping } }

/-- COLD_RESET (R401). -/
def execColdReset (s : State) : Host.Outcome State Fault Refusal := .next (coldReset s)

/-- A function after a warm reset (R344, R401): its layout and its range and page tables are kept, and a hold.
DEDUCED, log 48. -/
def warmVf (v : Vf) : Vf :=
  { layout := v.layout, ranges := v.ranges, pages := v.pages, roots := v.roots, wbase := v.wbase, instar := v.instar
    pasid := v.pasid, tstop := v.tstop, resident := v.layout.slots != 0 && v.layout.mode == 0 }

/-- A journal entry whose commit is to be completed (R348): one that fails its CRC counts as PREPARED. -/
def applied (j : Journal) : Bool := j.phase == 2 && entryOk j

/-- The old descriptor's programming, where an entry's commit has not been applied (R348). -/
def unapply (s : State) (j : Journal) : State :=
  if applied j ∨ (getVf s j.vf).layout = j.old then s else applyLayout s j.vf j.old

/-- The scrub engine of a stack after a reset that reaches its logic die (R383). -/
def warmScrub (e : Scrub) : Scrub := if e.st = 1 then { e with st := 3 } else e

/-- An open teardown that a reset has found (R401). -/
def rerunOf (x : Teardown) : Teardown := { x with again := true }

/-- What a warm reset keeps (R401): logic dies, journals, granules and layouts, and with them what the kept range entries
rest on: admissions, and the domain and its package number. A gate keeps its generation, and a hold of the package stands
(R344). No function exists in recovery (R403); what is kept of them waits in the always-on domain. DEDUCED, log 48. -/
def warmKept (s : State) : State :=
  let p := s.pkg
  let t := outside s State.reset
  let ok := bootOk s
  let fs : Map Vf := if p.recovery then p.kept else (s.vfs.filter fun e => e.1 != 0).map fun e => (e.1, warmVf e.2)
  { t with
    mer := s.mer
    agenda := [{ cycle := s.mer + 4000000, seq := s.seq, ev := .sensorRefresh }]
    seq := s.seq + 1
    mem := region s deviceBase (2 ^ 100)
    poison := s.poison.filter fun e => deviceBase ≤ 8 * e.1
    flips := s.flips.filter fun e => deviceBase ≤ 8 * e.1
    lines := s.lines, tree := s.tree, cached := s.cached, granules := s.granules, keys := s.keys, admits := s.admits
    gates := s.gates.map fun e => (e.1, { gen := e.2.gen })
    scrubs := s.scrubs.map fun e => (e.1, warmScrub e.2)
    vfs := if ok then fs else []
    pkg := { t.pkg with
      geuth := bootTable s, copies := p.copies, fuses := p.fuses, recovery := !ok, kept := if ok then [] else fs
      measure := mapGet 0 s.free 0, pkg := p.pkg, inDom := p.inDom, domId := p.domId, members := p.members
      bootPkg := p.pkg, teardowns := p.teardowns.map rerunOf
      hold := p.hold, holdDie := p.holdDie, tcause := p.tcause, tdie := p.tdie, trip := p.trip
      numVfs := p.numVfs, treeKey := p.treeKey, stepping := p.stepping } }

/-- The state after a warm reset and boot (R383, R401): firmware starts the interrupted scrubs again and runs the open
teardowns from their first step, unless the root is in recovery. DEDUCED, log 48. -/
def warmReset (s0 : State) : State :=
  let s := s0.pkg.journal.foldl unapply s0
  let t1 := warmKept s
  if t1.pkg.recovery then t1
  else
    let t2 := t1.vfs.foldl (fun a e =>
      let b := setRings a e.1
      if s.pkg.hold ≠ 0 ∧ e.2.layout.slots ≠ 0 ∧ !e.2.tstop then stopVf b e.1 else b) t1
    let t3 := t2.scrubs.foldl (fun a e => if e.2.st = 3 then
      let d := draw a 0 1 100000
      sched d.2 (s.mer + d.1) .scrubStart [0, e.1, 1] else a) t2
    t3.pkg.teardowns.foldl runTeardown t3

/-- WARM_RESET (R401). -/
def execWarmReset (s : State) : Host.Outcome State Fault Refusal := .next (warmReset s)

/-- A commit after a management restart (R348): one that was applied is completed; another is rolled back, and contexts
stopped for it go on under the old layout. -/
def settleCommit (s : State) (j : Journal) : State :=
  if applied j then finishLayout s j.vf j.old j.new
  else
    let s1 := unapply s j
    match (getVf s1 j.vf).pre with
    | .stopping 1 => modVf s1 j.vf fun v => { v with pre := .stopping 4 }
    | .saved 1 | .cut => sched (modVf s1 j.vf fun v => { v with pre := .saved 0 }) s.mer .partitionResume [j.vf]
    | .none =>
      if j.old.mode = 0 ∧ j.old.slots ≠ 0 ∧ !(getVf s1 j.vf).resident then resumePart s1 j.vf else s1
    | _ => s1

/-- The watchdog of a core that is not serviced any more expires after a time (R402), counted from its last service; one
that is serviced again starts anew. what is 0 for the expiry, 1 for the last service and 2 for the next one. -/
def watchdog (s : State) (what time : Nat) (ev : Instr) (args : List Nat) (expired : State → State) : State :=
  let s1 := { s with agenda := s.agenda.filter fun (i : Item) => !(i.ev == ev && i.args == args) }
  match what with
  | 0 => expired s1
  | 1 => sched s1 (s.mer + time) ev args
  | _ => s1

/-- The management core restarts (R348, R383, R401): commands in progress end with ABORTED, but an applied commit
completes with OK; open commits are settled, and open teardowns run again from their first step. -/
def restartManagement (s : State) : State :=
  let done := s.pkg.journal.any applied
  let s1 := s.pkg.journal.foldl settleCommit s
  let s2 := { s1 with
    invs := s1.invs.filter fun e => e.2.what == 4
    agenda := s1.agenda.filter fun (i : Item) => i.ev != Instr.agreementTimeout
    pkg := { s1.pkg with
      journal := [], agreed := [], table := [], cmdq := [], teardowns := s1.pkg.teardowns.map rerunOf } }
  s.pkg.cmdq.foldl (fun a f => endCmd a f (if f = 0 ∧ done then 0 else 6)) (s2.pkg.teardowns.foldl runTeardown s2)

/-- MANAGEMENT_RESTART (R402): the management core's watchdog, of 100 ms; operand 1 says what happens to it. -/
def execManagementRestart (s : State) : Host.Outcome State Fault Refusal :=
  .next (watchdog s (argN s 1) 400000000 .managementRestart [] restartManagement)

/-- Running nodes other than launches hold a graph that ends with ABORTED no longer (R402); what they have asked for
goes on by itself. -/
def cutNodes (s : State) (g : Nat) : State :=
  modGraph (endWaits s g) g fun x =>
    { x with nodes := x.nodes.map fun nd => if nd.st = .running ∧ nd.ty ≠ 1 then { nd with st := .done } else nd }

/-- The firmware columns of a die are reloaded (R402): their threads are gone, and graphs with a node on the die end with
ABORTED once their running launches are complete. A teardown whose program ran there runs again (R383). -/
def reloadDie (s : State) (die : Nat) : State :=
  let s1 := { s with
    threads := s.threads.filter fun e => !(dieOf e.1 == die && isFirmware s die (coreOf e.1))
    agenda := s.agenda.filter fun (i : Item) => !(i.ev == Instr.dieFirmwareRestart && i.args.headD 0 == die)
    pkg := { s.pkg with wdog := mapSet 0 s.pkg.wdog die (s.mer + 1) } }
  let s2 := s1.graphs.foldl (fun a e =>
    if e.2.nodes.any fun n => n.die == die then endGraph (failGraph (cutNodes a e.1) e.1 10 0xFFFF 0) e.1 else a) s1
  (s2.pkg.teardowns.filter fun x => paDie x.base == die).foldl runTeardown s2

/-- DIE_FIRMWARE_RESTART (R402): the watchdog, of 10 ms, of core operand 2 of die operand 0; operand 1 says what happens
to it. A second expiry on a die within 1 s is a warm reset. -/
def execDieFirmwareRestart (s : State) : Host.Outcome State Fault Refusal :=
  let die := argN s 0
  let w := mapGet 0 s.pkg.wdog die
  .next (watchdog s (argN s 1) 40000000 .dieFirmwareRestart [die, 0, argN s 2] fun x =>
    if w ≠ 0 ∧ s.mer < w + 4000000000 then warmReset x else reloadDie x die)

/-- FLASH_UPDATE (R403): in recovery the first flash copy of item operand 0 is rewritten: operand 1 is 1 when its
signatures verify against the fused keys, operand 2 its security version, and operand 3 the bits of a Geuth table, 0 for
the one that the copy holds. -/
def execFlashUpdate (s : State) : Host.Outcome State Fault Refusal :=
  let good := argN s 1 == 1
  let f := s.pkg.fuses
  let image (x : FlashCopy) : FlashCopy :=
    { rsa := good, slh := good, rsaKey := f.rsaKey, slhKey := f.slhKey, svn := argN s 2
      table := x.table.map fun g => if argN s 3 = 0 then g else geuthOf (argN s 3) }
  if s.pkg.recovery then
    .next { s with pkg := { s.pkg with copies := s.pkg.copies.modify (argN s 0) fun c => (image c.1, c.2) } }
  else .next s

end Sys2Proof.Machine
end

