-- ==== Sys2Proof/Machine/Scalar.lean ====
section
/-! DEFINITION. The S-slot integer instructions, constants, bit fields, RHASH and control-register moves (04 R98 to
R108). -/

namespace Sys2Proof.Machine

/-- A comparison's result (R100). -/
def ofBool (b : Bool) : Word := if b then 1 else 0

/-- The shift amount n(b) mod 64 (R100). -/
def shamt (b : Word) : Nat := b.toNat % 64

/-- Division and remainder (R101): signed when sg. -/
def divQ (sg : Bool) (a b : Word) : Word :=
  if b = 0 then BitVec.ofNat 64 (2 ^ 64 - 1)
  else if sg && a.toInt == -2 ^ 63 && b.toInt == -1 then a
  else if sg then BitVec.ofInt 64 (a.toInt.tdiv b.toInt)
  else BitVec.ofNat 64 (a.toNat / b.toNat)
def divR (sg : Bool) (a b : Word) : Word :=
  if b = 0 then a
  else if sg && a.toInt == -2 ^ 63 && b.toInt == -1 then 0
  else if sg then BitVec.ofInt 64 (a.toInt.tmod b.toInt)
  else BitVec.ofNat 64 (a.toNat % b.toNat)

/-- Saturating sum of R102: the low bit of funct selects .n64. -/
def satSum (fn : Nat) (sub : Bool) (a b : Word) : Word :=
  let sg := fn % 2 == 0
  let x := intVal sg 64 a.toNat
  let y := intVal sg 64 b.toNat
  BitVec.ofNat 64 (satN sg 64 (if sub then x - y else x + y))

/-- Leading and trailing zeros (R100). -/
def clz (a : Word) : Nat := if a = 0 then 64 else 63 - Nat.log2 a.toNat
def ctz (a : Word) : Nat := Nat.log2 (Nat.gcd a.toNat (2 ^ 64))

/-- EXTR (R105). -/
def extr (fn : Nat) (a : Word) : Word :=
  let pos := fn % 64
  let len := fn / 64 % 64 + 1
  let f := a.toNat / 2 ^ pos % 2 ^ len
  if fn / 4096 % 2 = 1 ∧ 2 ^ (len - 1) ≤ f then BitVec.ofInt 64 ((f : Int) - 2 ^ len) else BitVec.ofNat 64 f

/-- INSR on the old value d (R105). -/
def insr (fn : Nat) (d a : Word) : Word :=
  let pos := fn % 64
  let len := fn / 64 % 64 + 1
  let m := BitVec.ofNat 64 ((2 ^ len - 1) * 2 ^ pos)
  (d &&& ~~~m) ||| (BitVec.ofNat 64 (a.toNat * 2 ^ pos) &&& m)

/-- A control register as it stands at issue (R49, R107). -/
def ctlRead (s : State) (t id : Nat) : Word :=
  let th := getTh s t
  match id with
  | 0 => BitVec.ofNat 64 s.mer
  | 1 => BitVec.ofNat 64 t
  | 2 => th.lc
  | 3 => BitVec.ofNat 64 th.rrb
  | 4 => th.seed.setWidth 64
  | 5 => th.fst.setWidth 64
  | 6 => th.tst.setWidth 64
  | 7 => th.phase.setWidth 64
  | 8 => th.spcnt.setWidth 64
  | 9 => BitVec.ofNat 64 (instarOf s th.vf % 2 ^ 32)
  | 10 => th.lidx.setWidth 64
  | 11 => th.pres.setWidth 64
  | 12 => th.launch.setWidth 64
  | _ => 0

/-- The control register that MOVTC id writes, with the value it stores (R49, R107). -/
def ctlDest (id : Nat) (v : Word) : Option (Dest × Nat) :=
  match id with
  | 2 => some (.lc, v.toNat)
  | 3 => some (.rrb, v.toNat % 24)
  | 4 => some (.seed, v.toNat % 2 ^ 32)
  | 5 => some (.fst, v.toNat % 32)
  | 6 => some (.tst, v.toNat % 2 ^ 33)
  | _ => none

/-- Register-register operations (R100 to R102, R105, R106). -/
def effAdd (o : AOp) : Eff := scalarA o 1 fun a b _ => a + b
def effSub (o : AOp) : Eff := scalarA o 1 fun a b _ => a - b
def effAndS (o : AOp) : Eff := scalarA o 1 fun a b _ => a &&& b
def effOrS (o : AOp) : Eff := scalarA o 1 fun a b _ => a ||| b
def effXorS (o : AOp) : Eff := scalarA o 1 fun a b _ => a ^^^ b
def effAndn (o : AOp) : Eff := scalarA o 1 fun a b _ => a &&& ~~~b
def effShl (o : AOp) : Eff := scalarA o 1 fun a b _ => a <<< shamt b
def effShr (o : AOp) : Eff := scalarA o 1 fun a b _ => a >>> shamt b
def effSra (o : AOp) : Eff := scalarA o 1 fun a b _ => a.sshiftRight (shamt b)
def effRol (o : AOp) : Eff := scalarA o 1 fun a b _ => a.rotateLeft (shamt b)
def effMul (o : AOp) : Eff := scalarA o 1 fun a b _ => a * b
def effMulh (o : AOp) : Eff := scalarA o 1 fun a b _ => BitVec.ofInt 64 (a.toInt * b.toInt / 2 ^ 64)
def effMulhn (o : AOp) : Eff := scalarA o 1 fun a b _ => BitVec.ofNat 64 (a.toNat * b.toNat / 2 ^ 64)
def effDiv (o : AOp) : Eff := scalarA o 4 fun a b _ => divQ true a b
def effDivn (o : AOp) : Eff := scalarA o 4 fun a b _ => divQ false a b
def effRem (o : AOp) : Eff := scalarA o 4 fun a b _ => divR true a b
def effRemn (o : AOp) : Eff := scalarA o 4 fun a b _ => divR false a b
def effMinS (o : AOp) : Eff := scalarA o 1 fun a b _ => if b.toInt < a.toInt then b else a
def effMaxS (o : AOp) : Eff := scalarA o 1 fun a b _ => if a.toInt < b.toInt then b else a
def effMinn (o : AOp) : Eff := scalarA o 1 fun a b _ => if b.toNat < a.toNat then b else a
def effMaxn (o : AOp) : Eff := scalarA o 1 fun a b _ => if a.toNat < b.toNat then b else a
def effCmpeq (o : AOp) : Eff := scalarA o 1 fun a b _ => ofBool (a == b)
def effCmpne (o : AOp) : Eff := scalarA o 1 fun a b _ => ofBool (a != b)
def effCmplt (o : AOp) : Eff := scalarA o 1 fun a b _ => ofBool (decide (a.toInt < b.toInt))
def effCmpltn (o : AOp) : Eff := scalarA o 1 fun a b _ => ofBool (decide (a.toNat < b.toNat))
def effSel (o : AOp) : Eff := scalarA o 1 fun a b c => if c = 0 then b else a
def effClz (o : AOp) : Eff := scalarA o 1 fun a _ _ => BitVec.ofNat 64 (clz a)
def effCtz (o : AOp) : Eff := scalarA o 1 fun a _ _ => BitVec.ofNat 64 (ctz a)
def effPopc (o : AOp) : Eff := scalarA o 1 fun a _ _ => BitVec.ofNat 64 (popc 64 a.toNat)
def effAddsat (o : AOp) : Eff := scalarA o 1 fun a b _ => satSum o.fn false a b
def effSubsat (o : AOp) : Eff := scalarA o 1 fun a b _ => satSum o.fn true a b
def effAddx (o : AOp) : Eff := scalarA o 1 fun a b _ => a + (b <<< (o.fn % 8))
def effExtr (o : AOp) : Eff := scalarA o 1 fun a _ _ => extr o.fn a
def effInsr (o : AOp) : Eff := predEff o.p fun s =>
  let th := curTh s
  .ok (pushS s o.d (insr o.fn (rdS th o.d) (rdS th o.a)) 1)
def effRhash (o : AOp) : Eff := scalarA o 1 fun a b _ => rhash a b

/-- Immediate operations (R103). -/
def effAddi (o : IOp) : Eff := scalarI o fun a i => a + BitVec.ofInt 64 i
def effAndi (o : IOp) : Eff := scalarI o fun a i => a &&& BitVec.ofInt 64 i
def effOri (o : IOp) : Eff := scalarI o fun a i => a ||| BitVec.ofInt 64 i
def effXori (o : IOp) : Eff := scalarI o fun a i => a ^^^ BitVec.ofInt 64 i
def effShli (o : IOp) : Eff := scalarI o fun a _ => a <<< (o.imm % 64)
def effShri (o : IOp) : Eff := scalarI o fun a _ => a >>> (o.imm % 64)
def effSrai (o : IOp) : Eff := scalarI o fun a _ => a.sshiftRight (o.imm % 64)
def effCmpeqi (o : IOp) : Eff := scalarI o fun a i => ofBool (decide (a.toInt = i))
def effCmplti (o : IOp) : Eff := scalarI o fun a i => ofBool (decide (a.toInt < i))
def effMuli (o : IOp) : Eff := scalarI o fun a i => BitVec.ofInt 64 (a.toInt * i)

/-- Constants (R104). -/
def effLiK (o : KOp) : Eff := fun s => .ok (pushS s o.d (sextW 34 o.imm) 1)
def effLih (o : KOp) : Eff := fun s =>
  .ok (pushS s o.d (BitVec.ofNat 64 (o.imm % 2 ^ 30 * 2 ^ 34 + (rdS (curTh s) o.d).toNat % 2 ^ 34)) 1)

/-- MOVC and MOVTC (R107); what MOVTC writes applies to the bundle issued one turn later (R49). -/
def effMovc (o : IOp) : Eff := fun s => .ok (pushS s o.d (ctlRead s s.cur o.imm) 1)
def effMovtc (o : IOp) : Eff := fun s =>
  match ctlDest o.imm (rdS (curTh s) o.a) with
  | some (d, v) => .ok (pushPend s d v 0 1)
  | none => .ok s

/-- ADD issued alone (R100). -/
def execAdd (o : AOp) (s : State) : Host.Outcome State Fault Refusal := runSlot (effAdd o) s

/-- SUB issued alone (R100). -/
def execSub (o : AOp) (s : State) : Host.Outcome State Fault Refusal := runSlot (effSub o) s

/-- AND issued alone (R100). -/
def execAndS (o : AOp) (s : State) : Host.Outcome State Fault Refusal := runSlot (effAndS o) s

/-- OR issued alone (R100). -/
def execOrS (o : AOp) (s : State) : Host.Outcome State Fault Refusal := runSlot (effOrS o) s

/-- XOR issued alone (R100). -/
def execXorS (o : AOp) (s : State) : Host.Outcome State Fault Refusal := runSlot (effXorS o) s

/-- ANDN issued alone (R100). -/
def execAndn (o : AOp) (s : State) : Host.Outcome State Fault Refusal := runSlot (effAndn o) s

/-- SHL issued alone (R100). -/
def execShl (o : AOp) (s : State) : Host.Outcome State Fault Refusal := runSlot (effShl o) s

/-- SHR issued alone (R100). -/
def execShr (o : AOp) (s : State) : Host.Outcome State Fault Refusal := runSlot (effShr o) s

/-- SRA issued alone (R100). -/
def execSra (o : AOp) (s : State) : Host.Outcome State Fault Refusal := runSlot (effSra o) s

/-- ROL issued alone (R100). -/
def execRol (o : AOp) (s : State) : Host.Outcome State Fault Refusal := runSlot (effRol o) s

/-- MUL issued alone (R100). -/
def execMul (o : AOp) (s : State) : Host.Outcome State Fault Refusal := runSlot (effMul o) s

/-- MULH issued alone (R100). -/
def execMulh (o : AOp) (s : State) : Host.Outcome State Fault Refusal := runSlot (effMulh o) s

/-- MULHN issued alone (R100). -/
def execMulhn (o : AOp) (s : State) : Host.Outcome State Fault Refusal := runSlot (effMulhn o) s

/-- DIV issued alone (R101). -/
def execDiv (o : AOp) (s : State) : Host.Outcome State Fault Refusal := runSlot (effDiv o) s

/-- DIVN issued alone (R101). -/
def execDivn (o : AOp) (s : State) : Host.Outcome State Fault Refusal := runSlot (effDivn o) s

/-- REM issued alone (R101). -/
def execRem (o : AOp) (s : State) : Host.Outcome State Fault Refusal := runSlot (effRem o) s

/-- REMN issued alone (R101). -/
def execRemn (o : AOp) (s : State) : Host.Outcome State Fault Refusal := runSlot (effRemn o) s

/-- MIN issued alone (R100). -/
def execMinS (o : AOp) (s : State) : Host.Outcome State Fault Refusal := runSlot (effMinS o) s

/-- MAX issued alone (R100). -/
def execMaxS (o : AOp) (s : State) : Host.Outcome State Fault Refusal := runSlot (effMaxS o) s

/-- MINN issued alone (R100). -/
def execMinn (o : AOp) (s : State) : Host.Outcome State Fault Refusal := runSlot (effMinn o) s

/-- MAXN issued alone (R100). -/
def execMaxn (o : AOp) (s : State) : Host.Outcome State Fault Refusal := runSlot (effMaxn o) s

/-- CMPEQ issued alone (R100). -/
def execCmpeq (o : AOp) (s : State) : Host.Outcome State Fault Refusal := runSlot (effCmpeq o) s

/-- CMPNE issued alone (R100). -/
def execCmpne (o : AOp) (s : State) : Host.Outcome State Fault Refusal := runSlot (effCmpne o) s

/-- CMPLT issued alone (R100). -/
def execCmplt (o : AOp) (s : State) : Host.Outcome State Fault Refusal := runSlot (effCmplt o) s

/-- CMPLTN issued alone (R100). -/
def execCmpltn (o : AOp) (s : State) : Host.Outcome State Fault Refusal := runSlot (effCmpltn o) s

/-- SEL issued alone (R100). -/
def execSel (o : AOp) (s : State) : Host.Outcome State Fault Refusal := runSlot (effSel o) s

/-- CLZ issued alone (R100). -/
def execClz (o : AOp) (s : State) : Host.Outcome State Fault Refusal := runSlot (effClz o) s

/-- CTZ issued alone (R100). -/
def execCtz (o : AOp) (s : State) : Host.Outcome State Fault Refusal := runSlot (effCtz o) s

/-- POPC issued alone (R100). -/
def execPopc (o : AOp) (s : State) : Host.Outcome State Fault Refusal := runSlot (effPopc o) s

/-- ADDSAT issued alone (R102). -/
def execAddsat (o : AOp) (s : State) : Host.Outcome State Fault Refusal := runSlot (effAddsat o) s

/-- SUBSAT issued alone (R102). -/
def execSubsat (o : AOp) (s : State) : Host.Outcome State Fault Refusal := runSlot (effSubsat o) s

/-- ADDX issued alone (R100). -/
def execAddx (o : AOp) (s : State) : Host.Outcome State Fault Refusal := runSlot (effAddx o) s

/-- EXTR issued alone (R105). -/
def execExtr (o : AOp) (s : State) : Host.Outcome State Fault Refusal := runSlot (effExtr o) s

/-- INSR issued alone (R105). -/
def execInsr (o : AOp) (s : State) : Host.Outcome State Fault Refusal := runSlot (effInsr o) s

/-- RHASH issued alone (R106). -/
def execRhash (o : AOp) (s : State) : Host.Outcome State Fault Refusal := runSlot (effRhash o) s

/-- ADDI issued alone (R103). -/
def execAddi (o : IOp) (s : State) : Host.Outcome State Fault Refusal := runSlot (effAddi o) s

/-- ANDI issued alone (R103). -/
def execAndi (o : IOp) (s : State) : Host.Outcome State Fault Refusal := runSlot (effAndi o) s

/-- ORI issued alone (R103). -/
def execOri (o : IOp) (s : State) : Host.Outcome State Fault Refusal := runSlot (effOri o) s

/-- XORI issued alone (R103). -/
def execXori (o : IOp) (s : State) : Host.Outcome State Fault Refusal := runSlot (effXori o) s

/-- SHLI issued alone (R103). -/
def execShli (o : IOp) (s : State) : Host.Outcome State Fault Refusal := runSlot (effShli o) s

/-- SHRI issued alone (R103). -/
def execShri (o : IOp) (s : State) : Host.Outcome State Fault Refusal := runSlot (effShri o) s

/-- SRAI issued alone (R103). -/
def execSrai (o : IOp) (s : State) : Host.Outcome State Fault Refusal := runSlot (effSrai o) s

/-- CMPEQI issued alone (R103). -/
def execCmpeqi (o : IOp) (s : State) : Host.Outcome State Fault Refusal := runSlot (effCmpeqi o) s

/-- CMPLTI issued alone (R103). -/
def execCmplti (o : IOp) (s : State) : Host.Outcome State Fault Refusal := runSlot (effCmplti o) s

/-- MULI issued alone (R103). -/
def execMuli (o : IOp) (s : State) : Host.Outcome State Fault Refusal := runSlot (effMuli o) s

/-- LI issued alone (R104). -/
def execLiK (o : KOp) (s : State) : Host.Outcome State Fault Refusal := runSlot (effLiK o) s

/-- LIH issued alone (R104). -/
def execLih (o : KOp) (s : State) : Host.Outcome State Fault Refusal := runSlot (effLih o) s

/-- MOVC issued alone (R107). -/
def execMovc (o : IOp) (s : State) : Host.Outcome State Fault Refusal := runSlot (effMovc o) s

/-- MOVTC issued alone (R107). -/
def execMovtc (o : IOp) (s : State) : Host.Outcome State Fault Refusal := runSlot (effMovtc o) s

end Sys2Proof.Machine
end

