-- ==== Sys2Proof/Machine/Uses.lean ====
section
/-! DEFINITION. Which registers each slot instruction reads and writes, by its encoding alone (02 R42 to R45, R59, R60,
R63; 04 R98 to R107, R113; 05 R154; 08 R207, R208). -/

namespace Sys2Proof.Machine

/-- What an instruction reads, as codes of its fields: scalars (R42), vectors from the file (R44), predicates (R45)
and latches (0 A, 1 B, 2 C); and what it writes: 0 a scalar, 1 a vector, 2 a predicate, with its code. -/
structure Uses where
  ss : List Nat := []
  vs : List Nat := []
  ps : List Nat := []
  ls : List Nat := []
  dst : Option (Nat × Nat) := none
deriving DecidableEq, Repr

/-- A field that is used, or nothing. -/
def useIf (b : Bool) (x : Nat) : List Nat := if b then [x] else []

/-- Form A: which of a, b, c are read and whether d is written. -/
def usesA (o : AOp) (uD uA uB uC : Bool) : Uses :=
  { ss := useIf uA o.a ++ useIf uB o.b ++ useIf uC o.c, ps := [o.p], dst := if uD then some (0, o.d) else none }
def usesI (o : IOp) (uD uA : Bool) : Uses := { ss := useIf uA o.a, dst := if uD then some (0, o.d) else none }
def usesJ (o : JOp) (uA : Bool) : Uses := { ss := useIf uA o.a }

/-- The fields of form V whose role is r, with their latches left out. -/
def vFields (o : VOp) (ra rb rc r : Role) : List Nat :=
  useIf (ra == r && !holdA o) o.a ++ useIf (rb == r && !holdB o) o.b ++ useIf (rc == r && !holdC o) o.c

/-- Form V by the roles of its fields (R113). -/
def usesV (o : VOp) (rd ra rb rc : Role) : Uses :=
  { ss := vFields o ra rb rc .s, vs := vFields o ra rb rc .v, ps := o.p :: vFields o ra rb rc .p
    ls := useIf (ra == .v && holdA o) 0 ++ useIf (rb == .v && holdB o) 1 ++ useIf (rc == .v && holdC o) 2
    dst := match rd with
      | .v => some (1, o.d)
      | .s => some (0, o.d)
      | .p => some (2, o.d)
      | .none => none }

/-- Form M reads scalars. -/
def usesM (o : MOp) (uA uB uN : Bool) : Uses := { ss := useIf uA o.a ++ useIf uB o.b ++ useIf uN o.n }

/-- Form L-A whose d is a scalar written (uD). -/
def usesLA (o : LAOp) (uD uA uB uC : Bool) : Uses :=
  { ss := useIf uA o.a ++ useIf uB o.b ++ useIf uC o.c, ps := [o.p], dst := if uD then some (0, o.d) else none }
def usesX (o : XOp) (uD uA uB : Bool) : Uses :=
  { ss := useIf uA o.a ++ useIf uB o.b, ps := [o.p], dst := if uD then some (0, o.d) else none }

/-- What a slot instruction reads and writes. -/
def usesOf (i : Instr) : Uses :=
  match i with
  | .add o => usesA o true true true false
  | .sub o => usesA o true true true false
  | .andS o => usesA o true true true false
  | .orS o => usesA o true true true false
  | .xorS o => usesA o true true true false
  | .andn o => usesA o true true true false
  | .shl o => usesA o true true true false
  | .shr o => usesA o true true true false
  | .sra o => usesA o true true true false
  | .rol o => usesA o true true true false
  | .mul o => usesA o true true true false
  | .mulh o => usesA o true true true false
  | .mulhn o => usesA o true true true false
  | .div o => usesA o true true true false
  | .divn o => usesA o true true true false
  | .rem o => usesA o true true true false
  | .remn o => usesA o true true true false
  | .minS o => usesA o true true true false
  | .maxS o => usesA o true true true false
  | .minn o => usesA o true true true false
  | .maxn o => usesA o true true true false
  | .cmpeq o => usesA o true true true false
  | .cmpne o => usesA o true true true false
  | .cmplt o => usesA o true true true false
  | .cmpltn o => usesA o true true true false
  | .rhash o => usesA o true true true false
  | .addsat o => usesA o true true true false
  | .subsat o => usesA o true true true false
  | .addx o => usesA o true true true false
  | .sel o => usesA o true true true true
  | .clz o => usesA o true true false false
  | .ctz o => usesA o true true false false
  | .popc o => usesA o true true false false
  | .extr o => usesA o true true false false
  | .insr o => { usesA o true true false false with ss := [o.a, o.d] }
  | .jr o => usesA o false true false false
  | .sleepu o => usesA o false true false false
  | .ret o => { usesA o false false false false with ss := [31] }
  | .exitT o => usesA o false false false false
  | .resumeStub o => usesA o false false false false
  | .gnext o => usesA o true false false false
  | .addi o => usesI o true true
  | .andi o => usesI o true true
  | .ori o => usesI o true true
  | .xori o => usesI o true true
  | .cmpeqi o => usesI o true true
  | .cmplti o => usesI o true true
  | .muli o => usesI o true true
  | .shli o => usesI o true true
  | .shri o => usesI o true true
  | .srai o => usesI o true true
  | .movc o => usesI o true false
  | .movtc o => usesI o false true
  | .syncD _ => {}
  | .trap o => usesI o false true
  | .brkpt _ => {}
  | .liK o => { dst := some (0, o.d) }
  | .lih o => { ss := [o.d], dst := some (0, o.d) }
  | .br o => usesJ o false
  | .loop o => usesJ o false
  | .loopn o => usesJ o false
  | .call _ => { dst := some (0, 31) }
  | .bz o => usesJ o true
  | .bnz o => usesJ o true
  | .bltz o => usesJ o true
  | .bgez o => usesJ o true
  | .vadd o => usesV o .v .v .v .none
  | .vsub o => usesV o .v .v .v .none
  | .vmul o => usesV o .v .v .v .none
  | .vfma o => usesV o .v .v .v .v
  | .vfnma o => usesV o .v .v .v .v
  | .vmin o => usesV o .v .v .v .none
  | .vmax o => usesV o .v .v .v .none
  | .vand o => usesV o .v .v .v .none
  | .vor o => usesV o .v .v .v .none
  | .vxor o => usesV o .v .v .v .none
  | .vshl o => usesV o .v .v .v .none
  | .vshr o => usesV o .v .v .v .none
  | .vsra o => usesV o .v .v .v .none
  | .vadds o => usesV o .v .v .v .none
  | .vsubs o => usesV o .v .v .v .none
  | .vmulh o => usesV o .v .v .v .none
  | .vmulq o => usesV o .v .v .v .none
  | .vdiv o => usesV o .v .v .v .none
  | .vpack o => usesV o .v .v .v .none
  | .vsel o => usesV o .v .v .v .none
  | .vabs o => usesV o .v .v .none .none
  | .vneg o => usesV o .v .v .none .none
  | .vsqrt o => usesV o .v .v .none .none
  | .vrcp o => usesV o .v .v .none .none
  | .vrsq o => usesV o .v .v .none .none
  | .vexp2q o => usesV o .v .v .none .none
  | .vcvt o => usesV o .v .v .none .none
  | .vunpk o => usesV o .v .v .none .none
  | .vclass o => usesV o .v .v .none .none
  | .vpsum o => usesV o .v .v .none .none
  | .vmacw o => usesV o .v .v .v .v
  | .vdot4 o => usesV o .v .v .v .v
  | .vperm o => usesV o .v .v .v .v
  | .vcmpeq o => usesV o .p .v .v .none
  | .vcmpne o => usesV o .p .v .v .none
  | .vcmplt o => usesV o .p .v .v .none
  | .vcmple o => usesV o .p .v .v .none
  | .pand o => usesV o .p .p .p .none
  | .por o => usesV o .p .p .p .none
  | .pxor o => usesV o .p .p .p .none
  | .pnot o => usesV o .p .p .none .none
  | .pcnt o => usesV o .s .p .none .none
  | .vradd o => usesV o .s .v .none .none
  | .vrmax o => usesV o .s .v .none .none
  | .vrmin o => usesV o .s .v .none .none
  | .vfind o => usesV o .s .v .s .none
  | .vsplat o => usesV o .v .s .none .none
  | .vins o => usesV o .v .s .s .none
  | .vext o => usesV o .s .v .s .none
  | .vslide o => usesV o .v .v .v .s
  | .mfmt o => usesM o true true true
  | .mma o => usesM o true true true
  | .mmaz o => usesM o true true true
  | .mmas o => usesM o true true true
  | .mmasz o => usesM o true true true
  | .mhad _ => {}
  | .mzero _ => {}
  | .mdrain o => usesM o true false false
  | .mldacc o => usesM o true false false
  | .mstacc o => usesM o true false false
  | .mseed o => usesM o true false false
  | .mdrainv o => { ss := [o.b], dst := some (1, o.a) }
  | .ldL o => { ss := [o.a], dst := some (0, o.d) }
  | .pld o => { ss := [o.a], dst := some (0, o.d) }
  | .ldp o => { ss := [o.a], dst := some (0, o.d) }
  | .stL o => { ss := [o.a, o.d] }
  | .vld o => { ss := [o.a], dst := some (1, o.d) }
  | .vldp o => { ss := [o.a], dst := some (1, o.d) }
  | .vldw o => { ss := [o.a], dst := some (1, o.d) }
  | .vst o => { ss := [o.a], vs := [o.d] }
  | .pst o => if o.sz = 4 then { ss := [o.a], vs := [o.d] } else { ss := [o.a, o.d] }
  | .vlds o => { ss := [o.a, o.b], ps := [o.p], dst := some (1, o.d) }
  | .vsts o => { ss := [o.a, o.b], vs := [o.d], ps := [o.p] }
  | .vgath o => { ss := [o.a], vs := [o.b], ps := [o.p], dst := some (1, o.d) }
  | .vscat o => { ss := [o.a], vs := [o.b, o.d], ps := [o.p] }
  | .atadd o => usesLA o true true true false
  | .atand o => usesLA o true true true false
  | .ator o => usesLA o true true true false
  | .atxor o => usesLA o true true true false
  | .atswp o => usesLA o true true true false
  | .atmin o => usesLA o true true true false
  | .atmax o => usesLA o true true true false
  | .atcas o => usesLA o true true true true
  | .takeW o => usesLA o true true false false
  | .fullq o => usesLA o true true false false
  | .putW o => usesLA o false true true false
  | .emptyw o => usesLA o false true false false
  | .cpin o => usesLA o false true true true
  | .cpout o => usesLA o false true true true
  | .cpin2 o => usesLA o false true true true
  | .cpout2 o => usesLA o false true true true
  | .cpw o => usesLA o false true true true
  | .cpred o => usesLA o false true true true
  | .cpfill o => usesLA o false true true true
  | .maskq o => usesLA o false true true true
  | .prst o => usesLA o false true true true
  | .winwr o => usesLA o false true true true
  | .fence o => usesLA o false false false false
  | .flushsig o => usesLA o false (o.fn % 2 == 1) (o.fn % 2 == 1) false
  | .sigset o => usesLA o false true true false
  | .sigw o => usesLA o true true true false
  | .prld o => usesLA o true true true false
  | .winrd o => usesLA o true true true false
  | .epop o => usesLA o true false false false
  | .send o => usesX o false true true
  | .mbclr o => usesX o false false false
  | .gsig o => usesX o false true false
  | .gwait o => usesX o false true true
  | .gpoll o => usesX o true true true
  | .gread o => usesX o false true false
  | _ => {}

end Sys2Proof.Machine
end

