-- ==== Sys2Proof/Machine/Vector.lean ====
section
/-! DEFINITION. The V-slot instructions (04 R109 to R137). -/

namespace Sys2Proof.Machine

/-- SEED as it stands at issue (R89). -/
def seedOf (th : Thread) : Nat := th.seed.toNat

/-- The value of a lane of the instruction's integer type (R78). -/
def laneInt (o : VOp) (x : Nat) : Int := intVal (tySigned o.ty) (tyWidth o.ty) x

/-- Sums, products and fused sums (R116, R117). -/
def effVadd (o : VOp) : Eff := elementwise o true true false 1 fun th a b _ =>
  if tyFloat o.ty then addF (fmtOf o.ty) false a b o.rm (seedOf th)
  else (wrapN (tyWidth o.ty) (laneInt o a + laneInt o b), 0)
def effVsub (o : VOp) : Eff := elementwise o true true false 1 fun th a b _ =>
  if tyFloat o.ty then addF (fmtOf o.ty) true a b o.rm (seedOf th)
  else (wrapN (tyWidth o.ty) (laneInt o a - laneInt o b), 0)
def effVmul (o : VOp) : Eff := elementwise o true true false 1 fun th a b _ =>
  if tyFloat o.ty then mulF (fmtOf o.ty) a b o.rm (seedOf th)
  else (wrapN (tyWidth o.ty) (laneInt o a * laneInt o b), 0)
def effVfma (o : VOp) : Eff := elementwise o true true true 1 fun th a b c =>
  if tyFloat o.ty then fmaF (fmtOf o.ty) false a b c o.rm (seedOf th)
  else (wrapN (tyWidth o.ty) (laneInt o a * laneInt o b + laneInt o c), 0)
def effVfnma (o : VOp) : Eff := elementwise o true true true 1 fun th a b c =>
  if tyFloat o.ty then fmaF (fmtOf o.ty) true a b c o.rm (seedOf th)
  else (wrapN (tyWidth o.ty) (laneInt o c - laneInt o a * laneInt o b), 0)

/-- Minimum, maximum, absolute value and negation (R118, R119). -/
def effVmin (o : VOp) : Eff := elementwise o true true false 1 fun _ a b _ =>
  if tyFloat o.ty then minmaxF (fmtOf o.ty) false a b else (pickInt (tySigned o.ty) (tyWidth o.ty) false a b, 0)
def effVmax (o : VOp) : Eff := elementwise o true true false 1 fun _ a b _ =>
  if tyFloat o.ty then minmaxF (fmtOf o.ty) true a b else (pickInt (tySigned o.ty) (tyWidth o.ty) true a b, 0)
def effVabs (o : VOp) : Eff := elementwise o true false false 1 fun _ a _ _ =>
  if tyFloat o.ty then signF (fmtOf o.ty) false a
  else if tySigned o.ty then (wrapN (tyWidth o.ty) (laneInt o a).natAbs, 0)
  else (a, 0)
def effVneg (o : VOp) : Eff := elementwise o true false false 1 fun _ a _ _ =>
  if tyFloat o.ty then signF (fmtOf o.ty) true a else (wrapN (tyWidth o.ty) (-laneInt o a), 0)

/-- Bitwise operations and shifts (R120). -/
def effVand (o : VOp) : Eff := elementwise o true true false 1 fun _ a b _ => (a &&& b, 0)
def effVor (o : VOp) : Eff := elementwise o true true false 1 fun _ a b _ => (a ||| b, 0)
def effVxor (o : VOp) : Eff := elementwise o true true false 1 fun _ a b _ => (a ^^^ b, 0)
def effVshl (o : VOp) : Eff := elementwise o true true false 1 fun _ a b _ =>
  (a * 2 ^ (b % tyWidth o.ty) % 2 ^ tyWidth o.ty, 0)
def effVshr (o : VOp) : Eff := elementwise o true true false 1 fun _ a b _ => (a / 2 ^ (b % tyWidth o.ty), 0)
def effVsra (o : VOp) : Eff := elementwise o true true false 1 fun _ a b _ =>
  (wrapN (tyWidth o.ty) (signedOf (tyWidth o.ty) a / 2 ^ (b % tyWidth o.ty)), 0)

/-- Saturating and high products (R121). -/
def effVadds (o : VOp) : Eff := elementwise o true true false 1 fun _ a b _ =>
  (satN (tySigned o.ty) (tyWidth o.ty) (laneInt o a + laneInt o b), 0)
def effVsubs (o : VOp) : Eff := elementwise o true true false 1 fun _ a b _ =>
  (satN (tySigned o.ty) (tyWidth o.ty) (laneInt o a - laneInt o b), 0)
def effVmulh (o : VOp) : Eff := elementwise o true true false 1 fun _ a b _ =>
  (wrapN (tyWidth o.ty) (laneInt o a * laneInt o b / 2 ^ tyWidth o.ty), 0)
def effVmulq (o : VOp) : Eff := elementwise o true true false 1 fun _ a b _ =>
  let w := tyWidth o.ty
  (satN (tySigned o.ty) w ((laneInt o a * laneInt o b + 2 ^ (w - 2)) / 2 ^ (w - 1)), 0)

/-- VMACW (R122): the lanes of c and d have twice the width of those of a and b. -/
def effVmacw (o : VOp) : Eff := vecEff o true true true 1 fun th =>
  let w := tyWidth o.ty
  let a := (vopA th o).toNat
  let b := (vopB th o).toNat
  let c := (vopC th o).toNat
  vmapLanes (2 * w) (laneCount (2 * w)) (govern th o) fun k =>
    let z := laneAt (2 * w) c k
    let x0 := laneAt w a (2 * k)
    let x1 := laneAt w a (2 * k + 1)
    let y0 := laneAt w b (2 * k)
    let y1 := laneAt w b (2 * k + 1)
    if tyFloat o.ty then macF (fmtOf o.ty) f32 x0 y0 x1 y1 z o.rm (seedOf th)
    else (wrapN (2 * w) (intVal (tySigned o.ty) (2 * w) z + laneInt o x0 * laneInt o y0 + laneInt o x1 * laneInt o y1), 0)

/-- VDOT4 (R123). -/
def effVdot4 (o : VOp) : Eff := vecEff o true true true 1 fun th =>
  let a := (vopA th o).toNat
  let b := (vopB th o).toNat
  let c := (vopC th o).toNat
  vmapLanes 32 16 (govern th o) fun k =>
    let p (j : Nat) : Int := laneInt o (laneAt 8 a (4 * k + j)) * laneInt o (laneAt 8 b (4 * k + j))
    (wrapN 32 (intVal (tySigned o.ty) 32 (laneAt 32 c k) + p 0 + p 1 + p 2 + p 3), 0)

/-- Quotients, roots and reciprocals (R124, R125). -/
def effVdiv (o : VOp) : Eff := elementwise o true true false 3 fun _ a b _ => divF (fmtOf o.ty) a b o.rm
def effVsqrt (o : VOp) : Eff := elementwise o true false false 3 fun _ a _ _ => sqrtF (fmtOf o.ty) a o.rm
def effVrcp (o : VOp) : Eff := elementwise o true false false 1 fun _ a _ _ => rcpF (fmtOf o.ty) a
def effVrsq (o : VOp) : Eff := elementwise o true false false 1 fun _ a _ _ => rsqF (fmtOf o.ty) a

/-- VEXP2Q writes its disabled lanes with 0 (R137). -/
def effVexp2q (o : VOp) : Eff := vecEff o true false false 2 fun th =>
  let a := (vopA th o).toNat
  vresOf 32 ((List.range 16).map fun k => some (if laneOn 32 (govern th o) k then exp2q (laneAt 32 a k) else (0, 0)))

/-- VCVT (R127): lanes 0 to N - 1 of the wider type; destination lanes govern. -/
def effVcvt (o : VOp) : Eff := vecEff o true false false 1 fun th =>
  let a := (vopA th o).toNat
  let ws := tyWidth o.fn
  let wt := tyWidth o.ty
  vmapLanes wt (laneCount (max ws wt)) (govern th o) fun k => convert o.fn o.ty (laneAt ws a k) o.rm (seedOf th)

/-- VPACK (R128). -/
def effVpack (o : VOp) : Eff := vecEff o true true false 1 fun th =>
  let a := (vopA th o).toNat
  let b := (vopB th o).toNat
  let ws := tyWidth o.fn
  let wt := tyWidth o.ty
  let m := laneCount ws
  vmapLanes wt (2 * m) (govern th o) fun k =>
    convert o.fn o.ty (if k < m then laneAt ws a k else laneAt ws b (k - m)) o.rm (seedOf th)

/-- VUNPK (R129): the round field selects the half. -/
def effVunpk (o : VOp) : Eff := vecEff o true false false 1 fun th =>
  let a := (vopA th o).toNat
  let ws := tyWidth o.fn
  let wt := tyWidth o.ty
  let m := laneCount wt
  vmapLanes wt m (govern th o) fun k => convert o.fn o.ty (laneAt ws a (k + o.rm * m)) 0 0

/-- The relation of lane k of two registers, with its flags (R130). -/
def laneRel (o : VOp) (cc a b k : Nat) : Bool × Nat :=
  let w := tyWidth o.ty
  let x := laneAt w a k
  let y := laneAt w b k
  if tyFloat o.ty then relF (fmtOf o.ty) cc x y else (relI cc (laneInt o x) (laneInt o y), 0)

/-- The lanes that bit j of a predicate covers: those of granule j, or the 64-bit lane it belongs to (R110, R130). -/
def granuleLanes (w j : Nat) : List Nat :=
  if w = 64 then [j / 2] else (List.range (32 / w)).map fun i => j * (32 / w) + i

/-- A compare into a predicate (R130): bits of ungoverned granules keep their value. -/
def compareEff (cc : Nat) (o : VOp) : Eff := vecToP o true true fun th =>
  let a := (vopA th o).toNat
  let b := (vopB th o).toNat
  let w := tyWidth o.ty
  vresOf 1 ((List.range 16).map fun j =>
    if maskHas (govern th o) (if w = 64 then j / 2 * 2 else j) then
      let rs := (granuleLanes w j).map (laneRel o cc a b)
      let r := if o.fn % 2 = 1 then rs.any (·.1) else rs.all (·.1)
      some (if r then 1 else 0, rs.foldl (fun f x => f ||| x.2) 0)
    else none)
def effVcmpeq (o : VOp) : Eff := compareEff 0 o
def effVcmpne (o : VOp) : Eff := compareEff 1 o
def effVcmplt (o : VOp) : Eff := compareEff 2 o
def effVcmple (o : VOp) : Eff := compareEff 3 o

/-- VCLASS (R131). -/
def effVclass (o : VOp) : Eff := elementwise o true false false 1 fun _ a _ _ => (classF (fmtOf o.ty) a, 0)

/-- Predicate logic under the governing predicate (R132). -/
def predLogic (o : VOp) (f : Nat → Nat → Nat) : Eff := vecToP o false false fun th =>
  { val := f (rdP th o.a).toNat (rdP th o.b).toNat % 2 ^ 16, mask := govern th o, flags := 0 }
def effPand (o : VOp) : Eff := predLogic o fun a b => a &&& b
def effPor (o : VOp) : Eff := predLogic o fun a b => a ||| b
def effPxor (o : VOp) : Eff := predLogic o fun a b => a ^^^ b
def effPnot (o : VOp) : Eff := predLogic o fun a _ => a ^^^ 0xFFFF
def effPcnt (o : VOp) : Eff := vecToS o false false 2 fun th =>
  (BitVec.ofNat 64 (popc 16 (govern th o &&& (rdP th o.a).toNat)), 0)

/-- A lane value extended to 64 bits (R133, R136). -/
def extendLane (ty x : Nat) : Word :=
  if tySigned ty then BitVec.ofInt 64 (signedOf (tyWidth ty) x) else BitVec.ofNat 64 x

/-- The identities of the reductions: 0 sum, 1 maximum, 2 minimum (R133). -/
def redIdentity (kind ty : Nat) : Nat :=
  let w := tyWidth ty
  let f := fmtOf ty
  if kind = 0 then (if tyFloat ty then signW f else 0)
  else if kind = 1 then (if tyFloat ty then withSign f true (infPat f) else wrapN w (intMin (tySigned ty) w))
  else (if tyFloat ty then infPat f else wrapN w (intMax (tySigned ty) w))

/-- The nodes of the reductions, with flags gathered (R92, R118). -/
def redNode (kind ty : Nat) (x y : Nat × Nat) : Nat × Nat :=
  let w := tyWidth ty
  if kind = 0 then
    (if tyFloat ty then nodeAddF (fmtOf ty) x y else ((x.1 + y.1) % 2 ^ w, 0))
  else if tyFloat ty then nodeMaxF (fmtOf ty) (kind == 1) x y
  else (pickInt (tySigned ty) w (kind == 1) x.1 y.1, 0)

/-- The lanes of a with the identity in place of disabled lanes (R133, R134). -/
def redLanes (kind : Nat) (o : VOp) (th : Thread) : List (Nat × Nat) :=
  let w := tyWidth o.ty
  let a := (vopA th o).toNat
  (List.range (laneCount w)).map fun k =>
    (if laneOn w (govern th o) k then laneAt w a k else redIdentity kind o.ty, 0)

/-- VRADD, VRMAX and VRMIN (R133). -/
def reduceEff (kind : Nat) (o : VOp) : Eff := vecToS o true false 2 fun th =>
  let y := canonSum (redNode kind o.ty) (0, 0) 7 (redLanes kind o th)
  (extendLane o.ty y.1, y.2)
def effVradd (o : VOp) : Eff := reduceEff 0 o
def effVrmax (o : VOp) : Eff := reduceEff 1 o
def effVrmin (o : VOp) : Eff := reduceEff 2 o

/-- VPSUM (R134). -/
def effVpsum (o : VOp) : Eff := vecEff o true false false 2 fun th =>
  let w := tyWidth o.ty
  let ys := prefixSum (redNode 0 o.ty) (redLanes 0 o th)
  let r := vmapLanes w (laneCount w) (govern th o) fun k => (canonLane o.ty (ys.getD k (0, 0)).1, 0)
  { r with flags := ys.foldl (fun f y => f ||| y.2) 0 }

/-- VFIND (R135): the least enabled lane whose value exceeds sb read as the type. -/
def effVfind (o : VOp) : Eff := vecToS o true false 2 fun th =>
  let w := tyWidth o.ty
  let f := fmtOf o.ty
  let a := (vopA th o).toNat
  let v := (rdS th o.b).toNat % 2 ^ w
  let gt (x : Nat) : Bool :=
    if tyFloat o.ty then !isNaN f x && !isNaN f v && decide (valueKey f v < valueKey f x)
    else decide (laneInt o v < laneInt o x)
  let n := laneCount w
  (BitVec.ofNat 64 (((List.range n).find? fun k => laneOn w (govern th o) k && gt (laneAt w a k)).getD n), 0)

/-- Moves and permutes (R136). -/
def effVperm (o : VOp) : Eff := vecEff o true true true 1 fun th =>
  let w := tyWidth o.ty
  let n := laneCount w
  let a := (vopA th o).toNat
  let b := (vopB th o).toNat
  let c := (vopC th o).toNat
  vmapLanes w n (govern th o) fun k =>
    let i := laneAt w b k % (2 * n)
    (if i < n then laneAt w a i else laneAt w c (i - n), 0)
def effVsplat (o : VOp) : Eff := vecEff o false false false 1 fun th =>
  let w := tyWidth o.ty
  let x := (rdS th o.a).toNat % 2 ^ w
  vmapLanes w (laneCount w) (govern th o) fun _ => (x, 0)
def effVins (o : VOp) : Eff := vecEff o false false false 1 fun th =>
  let w := tyWidth o.ty
  let n := laneCount w
  let q := (rdS th o.b).toNat % n
  let x := (rdS th o.a).toNat % 2 ^ w
  vresOf w ((List.range n).map fun k => if k == q && laneOn w (govern th o) k then some (x, 0) else none)
def effVext (o : VOp) : Eff := vecToS o true false 1 fun th =>
  let w := tyWidth o.ty
  let q := (rdS th o.b).toNat % laneCount w
  (if laneOn w (govern th o) q then extendLane o.ty (laneAt w (vopA th o).toNat q) else 0, 0)
def effVsel (o : VOp) : Eff := vecEff o true true false 1 fun th =>
  let w := tyWidth o.ty
  let a := (vopA th o).toNat
  let b := (vopB th o).toNat
  vresOf w ((List.range (laneCount w)).map fun k =>
    some (if laneOn w (govern th o) k then laneAt w a k else laneAt w b k, 0))
def effVslide (o : VOp) : Eff := vecEff o true true false 1 fun th =>
  let w := tyWidth o.ty
  let n := laneCount w
  let a := (vopA th o).toNat
  let b := (vopB th o).toNat
  let sh := (rdS th o.c).toNat % (2 * n)
  vmapLanes w n (govern th o) fun k =>
    let i := (k + sh) % (2 * n)
    (if i < n then laneAt w a i else laneAt w b (i - n), 0)

/-- VADD issued alone (R116). -/
def execVadd (o : VOp) (s : State) : Host.Outcome State Fault Refusal := runSlot (effVadd o) s

/-- VSUB issued alone (R116). -/
def execVsub (o : VOp) (s : State) : Host.Outcome State Fault Refusal := runSlot (effVsub o) s

/-- VMUL issued alone (R116). -/
def execVmul (o : VOp) (s : State) : Host.Outcome State Fault Refusal := runSlot (effVmul o) s

/-- VFMA issued alone (R116). -/
def execVfma (o : VOp) (s : State) : Host.Outcome State Fault Refusal := runSlot (effVfma o) s

/-- VFNMA issued alone (R116). -/
def execVfnma (o : VOp) (s : State) : Host.Outcome State Fault Refusal := runSlot (effVfnma o) s

/-- VMIN issued alone (R118). -/
def execVmin (o : VOp) (s : State) : Host.Outcome State Fault Refusal := runSlot (effVmin o) s

/-- VMAX issued alone (R118). -/
def execVmax (o : VOp) (s : State) : Host.Outcome State Fault Refusal := runSlot (effVmax o) s

/-- VABS issued alone (R119). -/
def execVabs (o : VOp) (s : State) : Host.Outcome State Fault Refusal := runSlot (effVabs o) s

/-- VNEG issued alone (R119). -/
def execVneg (o : VOp) (s : State) : Host.Outcome State Fault Refusal := runSlot (effVneg o) s

/-- VAND issued alone (R120). -/
def execVand (o : VOp) (s : State) : Host.Outcome State Fault Refusal := runSlot (effVand o) s

/-- VOR issued alone (R120). -/
def execVor (o : VOp) (s : State) : Host.Outcome State Fault Refusal := runSlot (effVor o) s

/-- VXOR issued alone (R120). -/
def execVxor (o : VOp) (s : State) : Host.Outcome State Fault Refusal := runSlot (effVxor o) s

/-- VSHL issued alone (R120). -/
def execVshl (o : VOp) (s : State) : Host.Outcome State Fault Refusal := runSlot (effVshl o) s

/-- VSHR issued alone (R120). -/
def execVshr (o : VOp) (s : State) : Host.Outcome State Fault Refusal := runSlot (effVshr o) s

/-- VSRA issued alone (R120). -/
def execVsra (o : VOp) (s : State) : Host.Outcome State Fault Refusal := runSlot (effVsra o) s

/-- VADDS issued alone (R121). -/
def execVadds (o : VOp) (s : State) : Host.Outcome State Fault Refusal := runSlot (effVadds o) s

/-- VSUBS issued alone (R121). -/
def execVsubs (o : VOp) (s : State) : Host.Outcome State Fault Refusal := runSlot (effVsubs o) s

/-- VMULH issued alone (R121). -/
def execVmulh (o : VOp) (s : State) : Host.Outcome State Fault Refusal := runSlot (effVmulh o) s

/-- VMULQ issued alone (R121). -/
def execVmulq (o : VOp) (s : State) : Host.Outcome State Fault Refusal := runSlot (effVmulq o) s

/-- VMACW issued alone (R122). -/
def execVmacw (o : VOp) (s : State) : Host.Outcome State Fault Refusal := runSlot (effVmacw o) s

/-- VDOT4 issued alone (R123). -/
def execVdot4 (o : VOp) (s : State) : Host.Outcome State Fault Refusal := runSlot (effVdot4 o) s

/-- VDIV issued alone (R124). -/
def execVdiv (o : VOp) (s : State) : Host.Outcome State Fault Refusal := runSlot (effVdiv o) s

/-- VSQRT issued alone (R124). -/
def execVsqrt (o : VOp) (s : State) : Host.Outcome State Fault Refusal := runSlot (effVsqrt o) s

/-- VRCP issued alone (R125). -/
def execVrcp (o : VOp) (s : State) : Host.Outcome State Fault Refusal := runSlot (effVrcp o) s

/-- VRSQ issued alone (R125). -/
def execVrsq (o : VOp) (s : State) : Host.Outcome State Fault Refusal := runSlot (effVrsq o) s

/-- VEXP2Q issued alone (R137). -/
def execVexp2q (o : VOp) (s : State) : Host.Outcome State Fault Refusal := runSlot (effVexp2q o) s

/-- VCVT issued alone (R127). -/
def execVcvt (o : VOp) (s : State) : Host.Outcome State Fault Refusal := runSlot (effVcvt o) s

/-- VPACK issued alone (R128). -/
def execVpack (o : VOp) (s : State) : Host.Outcome State Fault Refusal := runSlot (effVpack o) s

/-- VUNPK issued alone (R129). -/
def execVunpk (o : VOp) (s : State) : Host.Outcome State Fault Refusal := runSlot (effVunpk o) s

/-- VCMPEQ issued alone (R130). -/
def execVcmpeq (o : VOp) (s : State) : Host.Outcome State Fault Refusal := runSlot (effVcmpeq o) s

/-- VCMPNE issued alone (R130). -/
def execVcmpne (o : VOp) (s : State) : Host.Outcome State Fault Refusal := runSlot (effVcmpne o) s

/-- VCMPLT issued alone (R130). -/
def execVcmplt (o : VOp) (s : State) : Host.Outcome State Fault Refusal := runSlot (effVcmplt o) s

/-- VCMPLE issued alone (R130). -/
def execVcmple (o : VOp) (s : State) : Host.Outcome State Fault Refusal := runSlot (effVcmple o) s

/-- VCLASS issued alone (R131). -/
def execVclass (o : VOp) (s : State) : Host.Outcome State Fault Refusal := runSlot (effVclass o) s

/-- PAND issued alone (R132). -/
def execPand (o : VOp) (s : State) : Host.Outcome State Fault Refusal := runSlot (effPand o) s

/-- POR issued alone (R132). -/
def execPor (o : VOp) (s : State) : Host.Outcome State Fault Refusal := runSlot (effPor o) s

/-- PXOR issued alone (R132). -/
def execPxor (o : VOp) (s : State) : Host.Outcome State Fault Refusal := runSlot (effPxor o) s

/-- PNOT issued alone (R132). -/
def execPnot (o : VOp) (s : State) : Host.Outcome State Fault Refusal := runSlot (effPnot o) s

/-- PCNT issued alone (R132). -/
def execPcnt (o : VOp) (s : State) : Host.Outcome State Fault Refusal := runSlot (effPcnt o) s

/-- VRADD issued alone (R133). -/
def execVradd (o : VOp) (s : State) : Host.Outcome State Fault Refusal := runSlot (effVradd o) s

/-- VRMAX issued alone (R133). -/
def execVrmax (o : VOp) (s : State) : Host.Outcome State Fault Refusal := runSlot (effVrmax o) s

/-- VRMIN issued alone (R133). -/
def execVrmin (o : VOp) (s : State) : Host.Outcome State Fault Refusal := runSlot (effVrmin o) s

/-- VPSUM issued alone (R134). -/
def execVpsum (o : VOp) (s : State) : Host.Outcome State Fault Refusal := runSlot (effVpsum o) s

/-- VFIND issued alone (R135). -/
def execVfind (o : VOp) (s : State) : Host.Outcome State Fault Refusal := runSlot (effVfind o) s

/-- VPERM issued alone (R136). -/
def execVperm (o : VOp) (s : State) : Host.Outcome State Fault Refusal := runSlot (effVperm o) s

/-- VSPLAT issued alone (R136). -/
def execVsplat (o : VOp) (s : State) : Host.Outcome State Fault Refusal := runSlot (effVsplat o) s

/-- VINS issued alone (R136). -/
def execVins (o : VOp) (s : State) : Host.Outcome State Fault Refusal := runSlot (effVins o) s

/-- VEXT issued alone (R136). -/
def execVext (o : VOp) (s : State) : Host.Outcome State Fault Refusal := runSlot (effVext o) s

/-- VSEL issued alone (R136). -/
def execVsel (o : VOp) (s : State) : Host.Outcome State Fault Refusal := runSlot (effVsel o) s

/-- VSLIDE issued alone (R136). -/
def execVslide (o : VOp) (s : State) : Host.Outcome State Fault Refusal := runSlot (effVslide o) s

end Sys2Proof.Machine
end

