-- ==== Sys2Proof/Machine/Bundle.lean ====
section
/-! DEFINITION. The issue of a bundle (02 R36, R37, R43, R53 to R66; 11 R271, R282, R286 to R294): decode, the parks before
it, safe points, the effects of its slots in their order, and the end of its turn. -/

namespace Sys2Proof.Machine

/-- The effect of a slot instruction; an event has none in a slot. -/
def slotEff (i : Instr) : Eff :=
  match i with
  | .add o => effAdd o
  | .sub o => effSub o
  | .andS o => effAndS o
  | .orS o => effOrS o
  | .xorS o => effXorS o
  | .andn o => effAndn o
  | .shl o => effShl o
  | .shr o => effShr o
  | .sra o => effSra o
  | .rol o => effRol o
  | .mul o => effMul o
  | .mulh o => effMulh o
  | .mulhn o => effMulhn o
  | .div o => effDiv o
  | .divn o => effDivn o
  | .rem o => effRem o
  | .remn o => effRemn o
  | .minS o => effMinS o
  | .maxS o => effMaxS o
  | .minn o => effMinn o
  | .maxn o => effMaxn o
  | .cmpeq o => effCmpeq o
  | .cmpne o => effCmpne o
  | .cmplt o => effCmplt o
  | .cmpltn o => effCmpltn o
  | .sel o => effSel o
  | .clz o => effClz o
  | .ctz o => effCtz o
  | .popc o => effPopc o
  | .addsat o => effAddsat o
  | .subsat o => effSubsat o
  | .addx o => effAddx o
  | .addi o => effAddi o
  | .andi o => effAndi o
  | .ori o => effOri o
  | .xori o => effXori o
  | .shli o => effShli o
  | .shri o => effShri o
  | .srai o => effSrai o
  | .cmpeqi o => effCmpeqi o
  | .cmplti o => effCmplti o
  | .muli o => effMuli o
  | .liK o => effLiK o
  | .lih o => effLih o
  | .extr o => effExtr o
  | .insr o => effInsr o
  | .rhash o => effRhash o
  | .movc o => effMovc o
  | .movtc o => effMovtc o
  | .br o => effBr o
  | .bz o => effBz o
  | .bnz o => effBnz o
  | .bltz o => effBltz o
  | .bgez o => effBgez o
  | .jr o => effJr o
  | .call o => effCall o
  | .ret o => effRet o
  | .loop o => effLoop o
  | .loopn o => effLoopn o
  | .syncD o => effSyncD o
  | .sleepu o => effSleepu o
  | .exitT o => effExitT o
  | .gnext o => effGnext o
  | .trap o => effTrap o
  | .brkpt o => effBrkpt o
  | .resumeStub o => effResumeStub o
  | .vadd o => effVadd o
  | .vsub o => effVsub o
  | .vmul o => effVmul o
  | .vfma o => effVfma o
  | .vfnma o => effVfnma o
  | .vmin o => effVmin o
  | .vmax o => effVmax o
  | .vabs o => effVabs o
  | .vneg o => effVneg o
  | .vand o => effVand o
  | .vor o => effVor o
  | .vxor o => effVxor o
  | .vshl o => effVshl o
  | .vshr o => effVshr o
  | .vsra o => effVsra o
  | .vadds o => effVadds o
  | .vsubs o => effVsubs o
  | .vmulh o => effVmulh o
  | .vmulq o => effVmulq o
  | .vmacw o => effVmacw o
  | .vdot4 o => effVdot4 o
  | .vdiv o => effVdiv o
  | .vsqrt o => effVsqrt o
  | .vrcp o => effVrcp o
  | .vrsq o => effVrsq o
  | .vexp2q o => effVexp2q o
  | .vcvt o => effVcvt o
  | .vpack o => effVpack o
  | .vunpk o => effVunpk o
  | .vcmpeq o => effVcmpeq o
  | .vcmpne o => effVcmpne o
  | .vcmplt o => effVcmplt o
  | .vcmple o => effVcmple o
  | .vclass o => effVclass o
  | .pand o => effPand o
  | .por o => effPor o
  | .pxor o => effPxor o
  | .pnot o => effPnot o
  | .pcnt o => effPcnt o
  | .vradd o => effVradd o
  | .vrmax o => effVrmax o
  | .vrmin o => effVrmin o
  | .vpsum o => effVpsum o
  | .vfind o => effVfind o
  | .vperm o => effVperm o
  | .vsplat o => effVsplat o
  | .vins o => effVins o
  | .vext o => effVext o
  | .vsel o => effVsel o
  | .vslide o => effVslide o
  | .mfmt o => effMfmt o
  | .mma o => effMma o
  | .mmaz o => effMmaz o
  | .mmas o => effMmas o
  | .mmasz o => effMmasz o
  | .mhad o => effMhad o
  | .mdrain o => effMdrain o
  | .mdrainv o => effMdrainv o
  | .mzero o => effMzero o
  | .mldacc o => effMldacc o
  | .mstacc o => effMstacc o
  | .mseed o => effMseed o
  | .ldL o => effLdL o
  | .stL o => effStL o
  | .vld o => effVld o
  | .vst o => effVst o
  | .vlds o => effVlds o
  | .vsts o => effVsts o
  | .vgath o => effVgath o
  | .vscat o => effVscat o
  | .pld o => effPld o
  | .pst o => effPst o
  | .vldp o => effVldp o
  | .ldp o => effLdp o
  | .vldw o => effVldw o
  | .atadd o => effAtadd o
  | .atmin o => effAtmin o
  | .atmax o => effAtmax o
  | .atand o => effAtand o
  | .ator o => effAtor o
  | .atxor o => effAtxor o
  | .atswp o => effAtswp o
  | .atcas o => effAtcas o
  | .takeW o => effTakeW o
  | .putW o => effPutW o
  | .fullq o => effFullq o
  | .emptyw o => effEmptyw o
  | .cpin o => effCpin o
  | .cpout o => effCpout o
  | .cpin2 o => effCpin2 o
  | .cpout2 o => effCpout2 o
  | .cpw o => effCpw o
  | .cpred o => effCpred o
  | .cpfill o => effCpfill o
  | .maskq o => effMaskq o
  | .fence o => effFence o
  | .flushsig o => effFlushsig o
  | .sigset o => effSigset o
  | .sigw o => effSigw o
  | .epop o => effEpop o
  | .prld o => effPrld o
  | .prst o => effPrst o
  | .winrd o => effWinrd o
  | .winwr o => effWinwr o
  | .send o => effSend o
  | .mbclr o => effMbclr o
  | .gsig o => effGsig o
  | .gwait o => effGwait o
  | .gpoll o => effGpoll o
  | .gread o => effGread o
  | _ => fun s => .ok s

/-- The branch instructions, S-slot opcodes 0x40 to 0x49 (R64). -/
def isBranch (i : Instr) : Bool :=
  match opcodeOf i with
  | some (.S, op) => decide (0x40 ≤ op) && decide (op ≤ 0x49)
  | _ => false
def isResume (i : Instr) : Bool :=
  match i with
  | .resumeStub _ => true
  | _ => false

/-- The feature bit that an instruction depends on (R2). -/
def featureOf (i : Instr) : Option Nat :=
  match i with
  | .mmas _ | .mmasz _ => some 1
  | .maskq _ => some 4
  | .gsig _ | .gwait _ | .gpoll _ | .gread _ => some 5
  | _ => none
/-- The bundle depends on a feature bit that its partition has declined (R3, R62 cause 9). A firmware core has no function
that accepts a word, and declines nothing. DESIGN CHOICE, log 26. -/
def declined (s : State) (t : Nat) (i : Instr) : Bool :=
  match featureOf i with
  | some b => !(isFirmware s (dieOf t) (coreOf t) || featOk s (getTh s t).vf b)
  | none => false

/-- The privileged L-slot instructions (R20, R62 cause 11). -/
def isPrivileged (i : Instr) : Bool :=
  match i with
  | .prld _ | .prst _ | .winrd _ | .winwr _ => true
  | _ => false

/-- Two slots write the same register (R63). -/
def clash (i j : Instr) : Bool :=
  match (usesOf i).dst, (usesOf j).dst with
  | some x, some y => x == y && x != (0, 0)
  | _, _ => false

/-- A bundle of thread t would stand in a delay slot (R64). -/
def inDelay (th : Thread) : Bool := th.hist1 || th.hist2

/-- The safe-point table of a thread's launch (R74). -/
def sptabOf (s : State) (t : Nat) : List SafeRec := (getLaunch s (getTh s t).lid).sptab

/-- A hold bit in the V slot of bundle w (R61). DEDUCED, log 19. -/
def anyHold (w : Nat) : Bool := bitsAt (slotBits .V w) 40 8 != 0 && bitsAt (slotBits .V w) 10 3 != 0

/-- The lowest cause of the header (R62, R65, R292): 2, and with SP = 1 the causes 7 and 8. -/
def headerCause (s : State) (t w : Nat) : Option Nat :=
  let th := getTh s t
  if Sys2Proof.headerBad w then some 2
  else if bitsAt w 254 1 = 0 then none
  else if inDelay th then some 7
  else if th.stub || anyHold w || decide ((sptabOf s t).length ≤ bitsAt w 244 10) then some 8
  else none

/-- Causes 6 to 11 of a slot that decodes, prev being the slots before it (R62). -/
def slotCause2 (s : State) (t : Nat) (sl : Slot) (prev : List Instr) (i : Instr) : Option Nat :=
  let user := !isFirmware s (dieOf t) (coreOf t)
  if prev.any (clash i) then some 6
  else if (isBranch i || isResume i) && inDelay (getTh s t) then some 7
  else if declined s t i then some 9
  else if sl == .M && i != .nop && !user then some 10
  else if isPrivileged i && user then some 11
  else none

/-- Decode one slot and check it against the slots before it. -/
def checkSlot (s : State) (t w : Nat) (sl : Slot) (prev : List Instr) : Except Reject Instr :=
  match decodeAt sl w with
  | .error e => .error e
  | .ok i =>
    match slotCause2 s t sl prev i with
    | some k => .error { place := slotUnit sl, cause := k }
    | none => .ok i

/-- The decode checks of R62 in the order of R65 (cause 6 is reported against the later slot). -/
def decodeFor (s : State) (t w : Nat) : Except Reject Bundle :=
  match headerCause s t w with
  | some k => .error { place := 0, cause := k }
  | none => do
    let a ← checkSlot s t w .S []
    let b ← checkSlot s t w .V [a]
    let c ← checkSlot s t w .M [a, b]
    let d ← checkSlot s t w .L [a, b, c]
    let e ← checkSlot s t w .X [a, b, c, d]
    .ok { sw := bitsAt w 255 1 == 1, sp := bitsAt w 254 1 == 1, spx := bitsAt w 244 10
          sS := a, sV := b, sM := c, sL := d, sX := e }

/-- The exception of a decode fault (R62, R65, R388): DETAIL holds the slot, or the header. -/
def rejectTrap (w : Nat) (r : Reject) : Trap :=
  let slot := match r.place with
    | 0 => w / 2 ^ 240
    | 1 => slotBits .S w
    | 2 => slotBits .V w
    | 3 => slotBits .M w
    | 4 => slotBits .L w
    | _ => slotBits .X w
  { code := if r.cause = 11 then 0x02 else 0x01, cause := r.cause, unit := r.place, d5 := slot }

/-- The bits of the bundle at a thread's pc in the instruction store of its core (R36, R316). -/
def fetchBundle (s : State) (t : Nat) : Nat :=
  let th := getTh s t
  rdMem s.mem (istoreBase th.lid (dieOf t) (coreOf t) + 32 * th.pc) 32

/-- The slots of a bundle in their order (R57). -/
def bundleSlots (b : Bundle) : List Instr := [b.sS, b.sV, b.sM, b.sL, b.sX]

/-- The mailbox registers that a bundle reads, each once, as a mask (R43). -/
def xMask (b : Bundle) : Nat :=
  ((bundleSlots b).flatMap fun i => (usesOf i).ss).foldl (fun m c => if 32 ≤ c then m ||| 2 ^ (c - 32) else m) 0

/-- Commands that hold an entry of the matrix queue (R145). -/
def queued (i : Instr) : Bool :=
  match i with
  | .mma _ | .mmaz _ | .mmas _ | .mmasz _ | .mhad _ | .mdrain _ | .mdrainv _ | .mzero _ | .mldacc _ | .mstacc _ => true
  | _ => false

/-- The parks that one slot asks for before its bundle (R271): reply queues and copies (R53, R225), the matrix queue
(R145) and SEND (R235). A queue counts as it stood before the bundle. DEDUCED, log 18. -/
def slotParks (s : State) (t : Nat) (i : Instr) : List Park :=
  let th := getTh s t
  let on (p : Nat) (l : List Park) : List Park := if predOn th p then l else []
  let full (q : Nat) : List Park := if replyDepth q ≤ (replyQ th q).length then [.replyFull] else []
  match i with
  | .epop o => on o.p (if (replyQ th o.sz).any (available s.mer) then [] else [.replyEmpty])
  | .cpin o | .cpout o | .cpin2 o | .cpout2 o | .cpw o | .cpred o | .cpfill o => on o.p (copyParks s t)
  | .maskq o => on o.p (full 1)
  | .flushsig o => on o.p (full 2)
  | .gread o => on o.p (full 3)
  | .send o => on o.p (if sendParks s t (rdS th o.a).toNat then [.send] else [])
  | _ => if queued i ∧ 4 ≤ (th.mq.filter fun q => decide (s.mer < q.f)).length then [.mqFull] else []

/-- The parks before a bundle in cycle mer (R43, R228, R271). DEDUCED, log 18. -/
def beforeParks (s : State) (t : Nat) (b : Bundle) : List Park :=
  let m := xMask b
  if (getTh s t).pres.toNat &&& m ≠ m then [.xreg]
  else slotParks s t b.sL ++ (if overdue s t s.mer then [.missed] else []) ++ slotParks s t b.sM ++ slotParks s t b.sX

/-- Thread t parks before its bundle; a missed promise shows in TST (R228). DEDUCED, log 18. -/
def parkBefore (s : State) (t : Nat) (l : List Park) : State :=
  modTh s t fun th =>
    { th with
      st := .parked, parks := l, nextTurn := s.mer + 8
      tst := if l.contains .missed then th.tst ||| BitVec.ofNat 33 (2 ^ 32) else th.tst }

/-- Thread t reaches its bundle (R287): parks before it are over, and a safe point takes its checkpoint (R290). -/
def reachBundle (s : State) (t : Nat) (b : Bundle) : State :=
  modTh s t fun th =>
    let x := { th with st := .running, parks := [], reached := true }
    if b.sp && !th.reached then reachSafe x b.spx s.seq ((sptabOf s t).getD b.spx {}) else x

/-- A POISON that an earlier request left for the first bundle of a cycle at or after its own (R151, R205, R237).
DEDUCED, log 15. -/
def dueDeferred (s : State) (t : Nat) : Option Deferred := (getTh s t).deferred.find? fun d => decide (d.at_ ≤ s.mer)

/-- Parity of the operands of a slot (R400): the first bad one, as the POISON it raises at issue. DEDUCED, log 13. -/
def parityBad (th : Thread) (u : Uses) (on : Bool) : Option Nat :=
  let bad (k : Nat) : Bool := th.parity.contains k
  match u.ps.find? fun c => c != 0 && bad (128 + c) with
  | some c => some (128 + c)
  | none =>
    if !on then none
    else
      match u.ss.find? fun c => c != 0 && bad (if c < 32 then c else 192 + c) with
      | some c => some (if c < 32 then c else 192 + c)
      | none =>
        match u.vs.find? fun c => (vparities (physV th.rrb c)).any bad with
        | some c => some (64 + c)
        | none => (u.ls.find? fun k => bad (256 + k)).map fun k => 64 * k

/-- A slot governed as a whole by bit 0 of its predicate (R45); the lanes of a V slot and of the strided and gathered
accesses are governed one by one (R110, R209). -/
def slotOn (th : Thread) (i : Instr) : Bool :=
  match i with
  | .vlds _ | .vsts _ | .vgath _ | .vscat _ => true
  | _ =>
    match opcodeOf i with
    | some (.V, _) => true
    | _ => (usesOf i).ps.all (predOn th)

/-- One slot of the issuing bundle: parity of its operands, then its effect. SYNC k arrives at the end of the slots (R54:
the other slots see PHASE as it stood). -/
def runOne (unit : Nat) (i : Instr) : Eff := fun s =>
  match parityBad (curTh s) (usesOf i) (slotOn (curTh s) i) with
  | some k => .error { code := 0x09, unit := unit, addr := 2 ^ 63 + k }
  | none =>
    match i with
    | .syncD o =>
      match effSyncD o s with
      | .error e => .error e
      | .ok s' => .ok (if o.imm % 16 = 0 then s' else s)
    | _ => slotEff i s

/-- The arrival of a SYNC k (R280). DEDUCED, log 52. -/
def arriveSync (i : Instr) : Eff := fun s =>
  match i with
  | .syncD o => if o.imm % 16 = 0 then .ok s else effSyncD o s
  | _ => .ok s

/-- The slots of a bundle in the order S, V, M, L, X (R57); the first fault in that order suppresses them all (R66). -/
def runSlots (b : Bundle) : Eff := fun s => do
  let s1 ← runOne 1 b.sS s
  let s2 ← runOne 2 b.sV s1
  let s3 ← runOne 3 b.sM s2
  let s4 ← runOne 4 b.sL s3
  let s5 ← runOne 5 b.sX s4
  arriveSync b.sS s5

/-- The vector bank cost of a bundle (R59): the largest number of distinct counted registers in one bank, less one. -/
def bankCost (th : Thread) (b : Bundle) : Nat :=
  let l := ((bundleSlots b).flatMap fun i => (usesOf i).vs.map (physV th.rrb)).eraseDups
  l.foldl (fun m r => max m (l.filter fun q => q % 6 == r % 6).length) 0 - 1

/-- The cost of a strided or gathered access (R213). -/
def strideCost (s : State) (t : Nat) (i : Instr) : Nat :=
  let th := getTh s t
  let f (l : List (Nat × Int)) : Nat := laneCost s th.vf l - 1
  match i with
  | .vlds o | .vsts o => f (laneAddrs th o (strideAddr th o))
  | .vgath o | .vscat o => f (laneAddrs th o (gatherAddr th o))
  | _ => 0

/-- The end of the turn in which bundle b issued with before pending and extra turns of cost: mailbox registers are
consumed (R43, R183), the pc and the pending branch move (R282), SPCNT counts the turn (R289), and the thread parks for
cost, for its results, which it waits for at once (R37, R59, R271), or to exit (R286); TRAP and BRKPT freeze it (R397).
DEDUCED, log 21. The cost is added to what a MOVTC of the bundle writes to TST, and the RRB of a taken LOOP stands over that
of a MOVTC in its first delay slot: DESIGN CHOICE, log 21. The park codes stand in the order 1, 2, the others: DESIGN CHOICE,
log 18. -/
def endTurn (b : Bundle) (before : Option Branch) (extra : Nat) (s0 : State) : State :=
  let t := s0.cur
  let s := if extra = 0 then s0 else pushPend s0 .bccAdd extra 0 1
  let th := getTh s t
  let m := xMask b
  let n := nextPc th before
  let exits := th.exiting || (match n.2.2 with
    | some x => x.tgt == (getLaunch s th.lid).klen
    | none => false)
  let c1 := s.mer + 8 * (1 + extra)
  let till := if b.sw || b.sp || exits then settledAt s t s.mer else s.mer
  let next := slotCycle (max c1 till) (slotOf t)
  let short := (if s.mer < till ∨ exits then [Park.results till] else []) ++ (if extra = 0 then [] else [Park.cost c1])
  let s1 := modTh s t fun x0 =>
    let x := if m = 0 then x0 else askDrain { x0 with pres := x0.pres &&& ~~~(BitVec.ofNat 32 m) } (s.mer + 8)
    { moveOn x n with
      exiting := exits, reached := false
      hist1 := isBranch b.sS, hist2 := x.hist1
      spcnt := if b.sp then 0 else addSpcnt x.spcnt 1
      nextTurn := max x.nextTurn next
      parks := short ++ x.parks
      st := if x.st = .running ∧ short ≠ [] then .parked else x.st }
  let s2 := endTrap s1 th.pc n.1
  if exits then tryExit (schedLandings s2 t) t else s2

/-- A safe-point bundle zeroes the latches, whose parity is good from then on (R290, R400). -/
def clearLatches (th : Thread) : Thread :=
  { th with latA := 0, latB := 0, latC := 0, parity := th.parity.filter fun p => p < 256 || 258 < p }

/-- Thread t issues bundle b, which it has reached (R66, R289): a deferred POISON, SP_OVERDUE, a fault of a slot, or its
effects. -/
def issueBundle (s : State) (t : Nat) (b : Bundle) : State :=
  let th := getTh s t
  let x := getLaunch s th.lid
  match dueDeferred s t with
  | some d =>
    raiseTrap (modTh s t fun y => { y with deferred := y.deferred.erase d })
      { code := 0x09, cause := d.cause, unit := d.unit, addr := d.addr }
  | none =>
    if !b.sp ∧ x.spmax ≤ th.spcnt.toNat then
      raiseTrap s { code := 0x08, addr := th.spcnt.toNat, d5 := x.spmax }
    else
      let s1 := if b.sp then modTh s t clearLatches else s
      match runSlots b s1 with
      | .error e => raiseTrap s e
      | .ok s2 => endTurn b th.br (bankCost th b + strideCost s t b.sL) s2

/-- A thread at a safe point whose partition is being stopped (R294): stopped once nothing is in flight. -/
def stopAtSafe (s : State) (t : Nat) : State :=
  modTh s t fun th =>
    if nothingInFlight s t then { th with st := .stopped } else { th with nextTurn := s.mer + 8 }

/-- A safe-point bundle that meets a decode fault is reached (R287, R290), but not one in a stub, which is never a safe
point (R292). -/
def reachBad (s : State) (t w : Nat) : State :=
  modTh s t fun th =>
    if bitsAt w 254 1 = 1 ∧ !th.stub ∧ !th.reached then
      reachSafe { th with reached := true } (bitsAt w 244 10) s.seq ((sptabOf s t).getD (bitsAt w 244 10) {})
    else th

/-- The turn of thread t in cycle mer (R7, R37, R43, R53 to R66, R287 to R294). DEDUCED, log 52. -/
def turn (s0 : State) (t : Nat) : State :=
  let s := modTh { s0 with cur := t } t fun th => drainDue (landUpto th s0.mer) s0.mer
  let th := getTh s t
  if th.st ≠ .running ∧ th.st ≠ .parked then s
  else if th.exiting then tryExit s t
  else if th.stopAsked then stopTh (modTh s t fun x => { x with parks := [] }) t
  else
    let k := kernelLen s th
    let w := fetchBundle s t
    if k ≤ th.pc then raiseTrap s { code := 0x03, addr := k }
    else
      match decodeFor s t w with
      | .error r => raiseTrap (reachBad s t w) (rejectTrap w r)
      | .ok b =>
        match beforeParks s t b with
        | p :: ps => parkBefore s t (p :: ps)
        | [] =>
          let s1 := reachBundle s t b
          if b.sp && isStopping s1 th.vf then stopAtSafe s1 t else issueBundle s1 t b

/-- BUNDLE_ISSUE: the turn of the thread whose SLOTID is operand 0. -/
def execBundleIssue (s : State) : Host.Outcome State Fault Refusal :=
  let t := argN s 0
  if slotidOk t then .next (turn s t) else .fault (.noContext t)

/-- SLEEPU_WAKE (R285): the sleep of thread operand 0 is over. -/
def execSleepuWake (s : State) : Host.Outcome State Fault Refusal :=
  .next (endPark s (argN s 0) (fun p =>
    match p with
    | .sleep n => decide (n ≤ s.mer)
    | _ => false) s.mer)

/-- REGISTER_RESULT_LAND (R55, R56, R385): results of thread operand 0 that are due land, and a thread that exits may be
done (R286). -/
def execRegisterResultLand (s : State) : Host.Outcome State Fault Refusal :=
  let t := argN s 0
  .next (tryExit (modTh s t fun th => landUpto th s.mer) t)

/-- NOP (R38): an empty slot has no effect. -/
def execNop (s : State) : Host.Outcome State Fault Refusal := .next s

end Sys2Proof.Machine
end

