-- ==== Sys2Proof/Machine/Dispatch.lean ====
section
/-! DEFINITION. One arm per instruction: the meaning it calls. -/

namespace Sys2Proof.Machine

/-- What an instruction does to the package. -/
def exec (i : Instr) (s : State) : Host.Outcome State Fault Refusal :=
  match i with
  | .bundleIssue => Sys2Proof.Machine.execBundleIssue s
  | .nop => Sys2Proof.Machine.execNop s
  | .add o => Sys2Proof.Machine.execAdd o s
  | .sub o => Sys2Proof.Machine.execSub o s
  | .andS o => Sys2Proof.Machine.execAndS o s
  | .orS o => Sys2Proof.Machine.execOrS o s
  | .xorS o => Sys2Proof.Machine.execXorS o s
  | .andn o => Sys2Proof.Machine.execAndn o s
  | .shl o => Sys2Proof.Machine.execShl o s
  | .shr o => Sys2Proof.Machine.execShr o s
  | .sra o => Sys2Proof.Machine.execSra o s
  | .rol o => Sys2Proof.Machine.execRol o s
  | .mul o => Sys2Proof.Machine.execMul o s
  | .mulh o => Sys2Proof.Machine.execMulh o s
  | .mulhn o => Sys2Proof.Machine.execMulhn o s
  | .div o => Sys2Proof.Machine.execDiv o s
  | .divn o => Sys2Proof.Machine.execDivn o s
  | .rem o => Sys2Proof.Machine.execRem o s
  | .remn o => Sys2Proof.Machine.execRemn o s
  | .minS o => Sys2Proof.Machine.execMinS o s
  | .maxS o => Sys2Proof.Machine.execMaxS o s
  | .minn o => Sys2Proof.Machine.execMinn o s
  | .maxn o => Sys2Proof.Machine.execMaxn o s
  | .cmpeq o => Sys2Proof.Machine.execCmpeq o s
  | .cmpne o => Sys2Proof.Machine.execCmpne o s
  | .cmplt o => Sys2Proof.Machine.execCmplt o s
  | .cmpltn o => Sys2Proof.Machine.execCmpltn o s
  | .sel o => Sys2Proof.Machine.execSel o s
  | .clz o => Sys2Proof.Machine.execClz o s
  | .ctz o => Sys2Proof.Machine.execCtz o s
  | .popc o => Sys2Proof.Machine.execPopc o s
  | .addsat o => Sys2Proof.Machine.execAddsat o s
  | .subsat o => Sys2Proof.Machine.execSubsat o s
  | .addx o => Sys2Proof.Machine.execAddx o s
  | .addi o => Sys2Proof.Machine.execAddi o s
  | .andi o => Sys2Proof.Machine.execAndi o s
  | .ori o => Sys2Proof.Machine.execOri o s
  | .xori o => Sys2Proof.Machine.execXori o s
  | .shli o => Sys2Proof.Machine.execShli o s
  | .shri o => Sys2Proof.Machine.execShri o s
  | .srai o => Sys2Proof.Machine.execSrai o s
  | .cmpeqi o => Sys2Proof.Machine.execCmpeqi o s
  | .cmplti o => Sys2Proof.Machine.execCmplti o s
  | .muli o => Sys2Proof.Machine.execMuli o s
  | .liK o => Sys2Proof.Machine.execLiK o s
  | .lih o => Sys2Proof.Machine.execLih o s
  | .extr o => Sys2Proof.Machine.execExtr o s
  | .insr o => Sys2Proof.Machine.execInsr o s
  | .rhash o => Sys2Proof.Machine.execRhash o s
  | .movc o => Sys2Proof.Machine.execMovc o s
  | .movtc o => Sys2Proof.Machine.execMovtc o s
  | .br o => Sys2Proof.Machine.execBr o s
  | .bz o => Sys2Proof.Machine.execBz o s
  | .bnz o => Sys2Proof.Machine.execBnz o s
  | .bltz o => Sys2Proof.Machine.execBltz o s
  | .bgez o => Sys2Proof.Machine.execBgez o s
  | .jr o => Sys2Proof.Machine.execJr o s
  | .call o => Sys2Proof.Machine.execCall o s
  | .ret o => Sys2Proof.Machine.execRet o s
  | .loop o => Sys2Proof.Machine.execLoop o s
  | .loopn o => Sys2Proof.Machine.execLoopn o s
  | .syncD o => Sys2Proof.Machine.execSyncD o s
  | .sleepu o => Sys2Proof.Machine.execSleepu o s
  | .sleepuWake => Sys2Proof.Machine.execSleepuWake s
  | .exitT o => Sys2Proof.Machine.execExitT o s
  | .gnext o => Sys2Proof.Machine.execGnext o s
  | .trap o => Sys2Proof.Machine.execTrap o s
  | .brkpt o => Sys2Proof.Machine.execBrkpt o s
  | .resumeStub o => Sys2Proof.Machine.execResumeStub o s
  | .vadd o => Sys2Proof.Machine.execVadd o s
  | .vsub o => Sys2Proof.Machine.execVsub o s
  | .vmul o => Sys2Proof.Machine.execVmul o s
  | .vfma o => Sys2Proof.Machine.execVfma o s
  | .vfnma o => Sys2Proof.Machine.execVfnma o s
  | .vmin o => Sys2Proof.Machine.execVmin o s
  | .vmax o => Sys2Proof.Machine.execVmax o s
  | .vabs o => Sys2Proof.Machine.execVabs o s
  | .vneg o => Sys2Proof.Machine.execVneg o s
  | .vand o => Sys2Proof.Machine.execVand o s
  | .vor o => Sys2Proof.Machine.execVor o s
  | .vxor o => Sys2Proof.Machine.execVxor o s
  | .vshl o => Sys2Proof.Machine.execVshl o s
  | .vshr o => Sys2Proof.Machine.execVshr o s
  | .vsra o => Sys2Proof.Machine.execVsra o s
  | .vadds o => Sys2Proof.Machine.execVadds o s
  | .vsubs o => Sys2Proof.Machine.execVsubs o s
  | .vmulh o => Sys2Proof.Machine.execVmulh o s
  | .vmulq o => Sys2Proof.Machine.execVmulq o s
  | .vmacw o => Sys2Proof.Machine.execVmacw o s
  | .vdot4 o => Sys2Proof.Machine.execVdot4 o s
  | .vdiv o => Sys2Proof.Machine.execVdiv o s
  | .vsqrt o => Sys2Proof.Machine.execVsqrt o s
  | .vrcp o => Sys2Proof.Machine.execVrcp o s
  | .vrsq o => Sys2Proof.Machine.execVrsq o s
  | .vexp2q o => Sys2Proof.Machine.execVexp2q o s
  | .vcvt o => Sys2Proof.Machine.execVcvt o s
  | .vpack o => Sys2Proof.Machine.execVpack o s
  | .vunpk o => Sys2Proof.Machine.execVunpk o s
  | .vcmpeq o => Sys2Proof.Machine.execVcmpeq o s
  | .vcmpne o => Sys2Proof.Machine.execVcmpne o s
  | .vcmplt o => Sys2Proof.Machine.execVcmplt o s
  | .vcmple o => Sys2Proof.Machine.execVcmple o s
  | .vclass o => Sys2Proof.Machine.execVclass o s
  | .pand o => Sys2Proof.Machine.execPand o s
  | .por o => Sys2Proof.Machine.execPor o s
  | .pxor o => Sys2Proof.Machine.execPxor o s
  | .pnot o => Sys2Proof.Machine.execPnot o s
  | .pcnt o => Sys2Proof.Machine.execPcnt o s
  | .vradd o => Sys2Proof.Machine.execVradd o s
  | .vrmax o => Sys2Proof.Machine.execVrmax o s
  | .vrmin o => Sys2Proof.Machine.execVrmin o s
  | .vpsum o => Sys2Proof.Machine.execVpsum o s
  | .vfind o => Sys2Proof.Machine.execVfind o s
  | .vperm o => Sys2Proof.Machine.execVperm o s
  | .vsplat o => Sys2Proof.Machine.execVsplat o s
  | .vins o => Sys2Proof.Machine.execVins o s
  | .vext o => Sys2Proof.Machine.execVext o s
  | .vsel o => Sys2Proof.Machine.execVsel o s
  | .vslide o => Sys2Proof.Machine.execVslide o s
  | .mfmt o => Sys2Proof.Machine.execMfmt o s
  | .mma o => Sys2Proof.Machine.execMma o s
  | .mmaz o => Sys2Proof.Machine.execMmaz o s
  | .mmas o => Sys2Proof.Machine.execMmas o s
  | .mmasz o => Sys2Proof.Machine.execMmasz o s
  | .mhad o => Sys2Proof.Machine.execMhad o s
  | .mdrain o => Sys2Proof.Machine.execMdrain o s
  | .mdrainv o => Sys2Proof.Machine.execMdrainv o s
  | .mzero o => Sys2Proof.Machine.execMzero o s
  | .mldacc o => Sys2Proof.Machine.execMldacc o s
  | .mstacc o => Sys2Proof.Machine.execMstacc o s
  | .mseed o => Sys2Proof.Machine.execMseed o s
  | .matrixCommandStart => Sys2Proof.Machine.execMatrixCommandStart s
  | .matrixCommandComplete => Sys2Proof.Machine.execMatrixCommandComplete s
  | .ldL o => Sys2Proof.Machine.execLdL o s
  | .stL o => Sys2Proof.Machine.execStL o s
  | .vld o => Sys2Proof.Machine.execVld o s
  | .vst o => Sys2Proof.Machine.execVst o s
  | .vlds o => Sys2Proof.Machine.execVlds o s
  | .vsts o => Sys2Proof.Machine.execVsts o s
  | .vgath o => Sys2Proof.Machine.execVgath o s
  | .vscat o => Sys2Proof.Machine.execVscat o s
  | .pld o => Sys2Proof.Machine.execPld o s
  | .pst o => Sys2Proof.Machine.execPst o s
  | .vldp o => Sys2Proof.Machine.execVldp o s
  | .peerBankAccess => Sys2Proof.Machine.execPeerBankAccess s
  | .ldp o => Sys2Proof.Machine.execLdp o s
  | .vldw o => Sys2Proof.Machine.execVldw o s
  | .registerResultLand => Sys2Proof.Machine.execRegisterResultLand s
  | .atadd o => Sys2Proof.Machine.execAtadd o s
  | .atmin o => Sys2Proof.Machine.execAtmin o s
  | .atmax o => Sys2Proof.Machine.execAtmax o s
  | .atand o => Sys2Proof.Machine.execAtand o s
  | .ator o => Sys2Proof.Machine.execAtor o s
  | .atxor o => Sys2Proof.Machine.execAtxor o s
  | .atswp o => Sys2Proof.Machine.execAtswp o s
  | .atcas o => Sys2Proof.Machine.execAtcas o s
  | .takeW o => Sys2Proof.Machine.execTakeW o s
  | .putW o => Sys2Proof.Machine.execPutW o s
  | .fullq o => Sys2Proof.Machine.execFullq o s
  | .emptyw o => Sys2Proof.Machine.execEmptyw o s
  | .cpin o => Sys2Proof.Machine.execCpin o s
  | .cpout o => Sys2Proof.Machine.execCpout o s
  | .cpin2 o => Sys2Proof.Machine.execCpin2 o s
  | .cpout2 o => Sys2Proof.Machine.execCpout2 o s
  | .cpw o => Sys2Proof.Machine.execCpw o s
  | .cpred o => Sys2Proof.Machine.execCpred o s
  | .cpfill o => Sys2Proof.Machine.execCpfill o s
  | .copyTranslate => Sys2Proof.Machine.execCopyTranslate s
  | .copyComplete => Sys2Proof.Machine.execCopyComplete s
  | .maskq o => Sys2Proof.Machine.execMaskq o s
  | .maskAccept => Sys2Proof.Machine.execMaskAccept s
  | .maskComplete => Sys2Proof.Machine.execMaskComplete s
  | .fence o => Sys2Proof.Machine.execFence o s
  | .flushsig o => Sys2Proof.Machine.execFlushsig o s
  | .flushTokenArrive => Sys2Proof.Machine.execFlushTokenArrive s
  | .sigset o => Sys2Proof.Machine.execSigset o s
  | .sigw o => Sys2Proof.Machine.execSigw o s
  | .epop o => Sys2Proof.Machine.execEpop o s
  | .prld o => Sys2Proof.Machine.execPrld o s
  | .prst o => Sys2Proof.Machine.execPrst o s
  | .winrd o => Sys2Proof.Machine.execWinrd o s
  | .winwr o => Sys2Proof.Machine.execWinwr o s
  | .privilegedReply => Sys2Proof.Machine.execPrivilegedReply s
  | .privilegedUnreachableTimeout => Sys2Proof.Machine.execPrivilegedUnreachableTimeout s
  | .send o => Sys2Proof.Machine.execSend o s
  | .mbclr o => Sys2Proof.Machine.execMbclr o s
  | .messageArrive => Sys2Proof.Machine.execMessageArrive s
  | .messageRetry => Sys2Proof.Machine.execMessageRetry s
  | .sendWindowReturn => Sys2Proof.Machine.execSendWindowReturn s
  | .gsig o => Sys2Proof.Machine.execGsig o s
  | .gwait o => Sys2Proof.Machine.execGwait o s
  | .gpoll o => Sys2Proof.Machine.execGpoll o s
  | .gread o => Sys2Proof.Machine.execGread o s
  | .greadReturn => Sys2Proof.Machine.execGreadReturn s
  | .gateSignalRequest => Sys2Proof.Machine.execGateSignalRequest s
  | .gateTokenAdd => Sys2Proof.Machine.execGateTokenAdd s
  | .gateCounterIncrement => Sys2Proof.Machine.execGateCounterIncrement s
  | .gateMirrorUpdate => Sys2Proof.Machine.execGateMirrorUpdate s
  | .lineRead => Sys2Proof.Machine.execLineRead s
  | .lineWrite => Sys2Proof.Machine.execLineWrite s
  | .flitReceive => Sys2Proof.Machine.execFlitReceive s
  | .cxlMemRequest => Sys2Proof.Machine.execCxlMemRequest s
  | .routeLossTimeout => Sys2Proof.Machine.execRouteLossTimeout s
  | .kick => Sys2Proof.Machine.execKick s
  | .qcfgWrite => Sys2Proof.Machine.execQcfgWrite s
  | .registerWrite => Sys2Proof.Machine.execRegisterWrite s
  | .runRec => Sys2Proof.Machine.execRunRec s
  | .markRec => Sys2Proof.Machine.execMarkRec s
  | .pasidInvalidation => Sys2Proof.Machine.execPasidInvalidation s
  | .nodeStart => Sys2Proof.Machine.execNodeStart s
  | .joinNode => Sys2Proof.Machine.execJoinNode s
  | .launchNode => Sys2Proof.Machine.execLaunchNode s
  | .launchPopulate => Sys2Proof.Machine.execLaunchPopulate s
  | .gangStart => Sys2Proof.Machine.execGangStart s
  | .launchComplete => Sys2Proof.Machine.execLaunchComplete s
  | .copyNode => Sys2Proof.Machine.execCopyNode s
  | .signalNode => Sys2Proof.Machine.execSignalNode s
  | .waitNode => Sys2Proof.Machine.execWaitNode s
  | .waitNodeTimeout => Sys2Proof.Machine.execWaitNodeTimeout s
  | .condNode => Sys2Proof.Machine.execCondNode s
  | .loopNode => Sys2Proof.Machine.execLoopNode s
  | .collNode => Sys2Proof.Machine.execCollNode s
  | .portNode => Sys2Proof.Machine.execPortNode s
  | .maskNode => Sys2Proof.Machine.execMaskNode s
  | .crossDieEdge => Sys2Proof.Machine.execCrossDieEdge s
  | .deterministicDecision => Sys2Proof.Machine.execDeterministicDecision s
  | .ringDoorbell => Sys2Proof.Machine.execRingDoorbell s
  | .hostrd => Sys2Proof.Machine.execHostrd s
  | .hostwr => Sys2Proof.Machine.execHostwr s
  | .rdmawr => Sys2Proof.Machine.execRdmawr s
  | .rdmard => Sys2Proof.Machine.execRdmard s
  | .allred => Sys2Proof.Machine.execAllred s
  | .redscat => Sys2Proof.Machine.execRedscat s
  | .allgath => Sys2Proof.Machine.execAllgath s
  | .bcast => Sys2Proof.Machine.execBcast s
  | .engineRecordComplete => Sys2Proof.Machine.execEngineRecordComplete s
  | .engineRecordTimeout => Sys2Proof.Machine.execEngineRecordTimeout s
  | .layoutCmd => Sys2Proof.Machine.execLayoutCmd s
  | .setmode => Sys2Proof.Machine.execSetmode s
  | .maprange => Sys2Proof.Machine.execMaprange s
  | .mappage => Sys2Proof.Machine.execMappage s
  | .gswitch => Sys2Proof.Machine.execGswitch s
  | .sliceCmd => Sys2Proof.Machine.execSliceCmd s
  | .bindCmd => Sys2Proof.Machine.execBindCmd s
  | .releaseCmd => Sys2Proof.Machine.execReleaseCmd s
  | .faultring => Sys2Proof.Machine.execFaultring s
  | .keynew => Sys2Proof.Machine.execKeynew s
  | .wadmit => Sys2Proof.Machine.execWadmit s
  | .wrevoke => Sys2Proof.Machine.execWrevoke s
  | .gcreate => Sys2Proof.Machine.execGcreate s
  | .gacl => Sys2Proof.Machine.execGacl s
  | .gfree => Sys2Proof.Machine.execGfree s
  | .gview => Sys2Proof.Machine.execGview s
  | .gexport => Sys2Proof.Machine.execGexport s
  | .gimport => Sys2Proof.Machine.execGimport s
  | .domjoin => Sys2Proof.Machine.execDomjoin s
  | .domkey => Sys2Proof.Machine.execDomkey s
  | .groupset => Sys2Proof.Machine.execGroupset s
  | .qpcreate => Sys2Proof.Machine.execQpcreate s
  | .qpdestroy => Sys2Proof.Machine.execQpdestroy s
  | .agreementTimeout => Sys2Proof.Machine.execAgreementTimeout s
  | .flashUpdate => Sys2Proof.Machine.execFlashUpdate s
  | .featureLock => Sys2Proof.Machine.execFeatureLock s
  | .lockInterface => Sys2Proof.Machine.execLockInterface s
  | .stopInterface => Sys2Proof.Machine.execStopInterface s
  | .measurements => Sys2Proof.Machine.execMeasurements s
  | .vendorDefinedRequest => Sys2Proof.Machine.execVendorDefinedRequest s
  | .preemptionRequest => Sys2Proof.Machine.execPreemptionRequest s
  | .contextSave => Sys2Proof.Machine.execContextSave s
  | .partitionResume => Sys2Proof.Machine.execPartitionResume s
  | .sliceEnd => Sys2Proof.Machine.execSliceEnd s
  | .keyzZeroise => Sys2Proof.Machine.execKeyzZeroise s
  | .keyzFree => Sys2Proof.Machine.execKeyzFree s
  | .bndreqBind => Sys2Proof.Machine.execBndreqBind s
  | .bndreqRelease => Sys2Proof.Machine.execBndreqRelease s
  | .scrubStart => Sys2Proof.Machine.execScrubStart s
  | .scrubGranule => Sys2Proof.Machine.execScrubGranule s
  | .bzero => Sys2Proof.Machine.execBzero s
  | .chzero => Sys2Proof.Machine.execChzero s
  | .tqpop => Sys2Proof.Machine.execTqpop s
  | .tqovfnClear => Sys2Proof.Machine.execTqovfnClear s
  | .supContinue => Sys2Proof.Machine.execSupContinue s
  | .supRestart => Sys2Proof.Machine.execSupRestart s
  | .supKill => Sys2Proof.Machine.execSupKill s
  | .supStop => Sys2Proof.Machine.execSupStop s
  | .badAction => Sys2Proof.Machine.execBadAction s
  | .replaypgReplay => Sys2Proof.Machine.execReplaypgReplay s
  | .replaypgUnfixable => Sys2Proof.Machine.execReplaypgUnfixable s
  | .faultRecordArrive => Sys2Proof.Machine.execFaultRecordArrive s
  | .faultDeadlineExpire => Sys2Proof.Machine.execFaultDeadlineExpire s
  | .invalidationComplete => Sys2Proof.Machine.execInvalidationComplete s
  | .thermalWarn => Sys2Proof.Machine.execThermalWarn s
  | .thermalTrip => Sys2Proof.Machine.execThermalTrip s
  | .coolantFlowLoss => Sys2Proof.Machine.execCoolantFlowLoss s
  | .linkDeliveryFailure => Sys2Proof.Machine.execLinkDeliveryFailure s
  | .sensorRefresh => Sys2Proof.Machine.execSensorRefresh s
  | .coldReset => Sys2Proof.Machine.execColdReset s
  | .warmReset => Sys2Proof.Machine.execWarmReset s
  | .managementRestart => Sys2Proof.Machine.execManagementRestart s
  | .dieFirmwareRestart => Sys2Proof.Machine.execDieFirmwareRestart s
  | .functionLevelReset => Sys2Proof.Machine.execFunctionLevelReset s
  | .replyEntryAvailable => Sys2Proof.Machine.execReplyEntryAvailable s
  | .startInterface => Sys2Proof.Machine.execStartInterface s
  | .ideMacFailure => Sys2Proof.Machine.execIdeMacFailure s
  | .softError => Sys2Proof.Machine.execSoftError s
  | .memberAgreement => Sys2Proof.Machine.execMemberAgreement s
  | .unassignedMailboxOpcode => Sys2Proof.Machine.execUnassignedMailboxOpcode s

end Sys2Proof.Machine
end

