-- ==== Sys2Proof/Machine/Schedule.lean ====
section
/-! DEFINITION. The order of what happens in the package: dated steps from inside and outside, and the turns of threads
(00 R4; 01 R6, R7; 07 R188; 11 R271, R272). -/

namespace Sys2Proof.Machine

/-- What the package does next: a dated step of its own, one from outside, or a thread's turn. -/
inductive Pick where
  | agenda (i : Item)
  | input (i : Item)
  | turn (t : Nat)
deriving DecidableEq, Repr

/-- A choice with its cycle, its rank within the cycle, and a number that orders equals. -/
structure Due where
  cycle : Nat
  rank : Nat
  key : Nat
  pick : Pick
deriving DecidableEq, Repr

/-- The I/O die on which an engine stands, by its number (R27, R339): 4 or 5. -/
def engineDie (k : Nat) : Nat := if k < 32 then 4 + k / 16 else 4 + (k - 32) / 8

/-- The die from which a request writes a line (R27, R241): its engine's where an engine makes it, of a ring or of a COLL or
PORT node (R311), else its own. -/
def sourceDie (s : State) (o : Op) : Nat :=
  match o.ring, o.node with
  | some (k, _), _ => engineDie (k % 64)
  | none, some (g, n) =>
    let nd := nodeOf (getGraph s g) n
    let l := (getVf s o.vf).layout
    if o.kind ≠ .engine then o.die
    else if nd.ty = 7 then engineDie ((collEngines l).getD (bodyBits nd 195 192) 0)
    else engineDie ((portEngines l).getD (bodyBits nd 196 192) 0)
  | none, none => o.die

/-- A step that writes a bank or a line at the end of its cycle (R188, R241), with the place of its source: stores of
peers in ascending cluster position, line writes in ascending source die and in departure order. What comes from the host
enters on D4 (R29), and a write from another package counts as from there. DESIGN CHOICE, log 4. -/
def lateWrite (s : State) (i : Item) : Option Nat :=
  let o := getOp s (i.args.headD 0)
  if i.ev = .peerBankAccess ∧ i.args.getD 1 0 = 1 then some (posOf (coreOf (o.thread.getD 0)))
  else if i.ev = .lineWrite then some (if i.args.headD 0 = 0 then 4 else sourceDie s o)
  else if i.ev = .cxlMemRequest ∧ i.args.headD 0 ≠ 0 then some 4
  else if i.ev = .privilegedReply ∧ o.opc = 0x3D ∧ o.b / 2 ^ 62 = 0 ∧ i.args.getD 1 0 = 0 then some o.die
  else none

/-- Within a cycle: the package's own steps, then those from outside, then turns, and last what writes a bank or a line,
so that no read of the cycle sees it. DESIGN CHOICE, log 4. -/
def dueOf (s : State) (i : Item) (rank : Nat) (p : Pick) : Due :=
  match lateWrite s i with
  | some k => { cycle := max s.mer i.cycle, rank := 3, key := k * 2 ^ 64 + i.seq, pick := p }
  | none => { cycle := max s.mer i.cycle, rank := rank, key := i.seq, pick := p }
def dueItem (s : State) (i : Item) : Due := dueOf s i 0 (.agenda i)
def dueInput (s : State) (i : Item) : Due := dueOf s i 1 (.input i)

/-- The parks that hold thread t before its bundle would be others in cycle c than those it has. -/
def parksChange (s : State) (t c : Nat) : Bool :=
  let s1 := modTh { s with mer := c, cur := t } t fun th => drainDue (landUpto th c) c
  match decodeFor s1 t (fetchBundle s1 t) with
  | .ok b => beforeParks s1 t b != (getTh s t).parks
  | .error _ => true

/-- The cycle of the next turn of thread t in which anything can happen (R7, R271): a running thread's next turn, or the
turn in which its parks before a bundle end or change; a thread parked after a bundle waits for the end of its park. -/
def dueTurn (s : State) (t : Nat) (th : Thread) : Option Nat :=
  let c := slotCycle (max th.nextTurn s.mer) (slotOf t)
  match th.st with
  | .running => some c
  | .parked =>
    if th.exiting then none
    else if th.parks.all shortPark then some c
    else if th.parks.all beforePark ∧ parksChange s t c then some c
    else none
  | _ => none
def dueTurns (s : State) : List Due :=
  s.threads.filterMap fun e =>
    (dueTurn s e.1 e.2).map fun c => { cycle := c, rank := 2, key := e.1, pick := .turn e.1 }

/-- The order of choices: by cycle, rank and number. -/
def Due.before (a b : Due) : Bool :=
  decide (a.cycle < b.cycle)
    || (a.cycle == b.cycle && (decide (a.rank < b.rank) || (a.rank == b.rank && decide (a.key < b.key))))

/-- The first of a list of choices. -/
def firstDue (l : List Due) : Option Due :=
  l.foldl (fun b d =>
    match b with
    | none => some d
    | some x => if d.before x then some d else b) none

/-- What happens next, if anything. -/
def nextDue (s : State) : Option Due := firstDue (s.agenda.map (dueItem s) ++ s.inputs.map (dueInput s) ++ dueTurns s)

/-- Time passes to cycle c: drawn word accesses of earlier cycles happen (R188), the turns of short parks are counted
(R289), and parks of known length end (R271). -/
def passTo (s : State) (c : Nat) : State := expireAll (countAll (settle { s with mer := c } c) s.mer c) c

/-- The instruction that a choice carries out, and the state in which it is carried out. -/
def pickInstr (p : Pick) : Instr :=
  match p with
  | .agenda i | .input i => i.ev
  | .turn _ => .bundleIssue
def takePick (s : State) (p : Pick) : State :=
  match p with
  | .agenda i => { s with agenda := s.agenda.erase i, args := i.args }
  | .input i => { s with inputs := s.inputs.erase i, args := i.args }
  | .turn t => { s with args := [t] }

/-- The state in which the next choice is carried out. -/
def ready (s : State) (d : Due) : State := takePick (passTo s d.cycle) d.pick

/-- Put the bundle with bits w where the next turn fetches it: a launch of one thread of function 1 on core 0 of die 0,
whose turn is in this cycle, with every feature accepted; what was due in this cycle is due in the next. DESIGN CHOICE,
log 5. -/
def placeBundle (s : State) (w : Nat) : State :=
  let l := s.seq
  let t := s.mer % 8
  let x : Launch :=
    { vf := 1, id := 1, klen := 8192, sptab := [{}], syncmask := 0xFFFE, quota := 1, cores := [0], members := [t]
      running := true, wload := true }
  let late (i : Item) : Item := { i with cycle := max i.cycle (s.mer + 1) }
  let s1 := modVf { s with seq := s.seq + 1, agenda := s.agenda.map late, inputs := s.inputs.map late } 1 fun v =>
    { v with layout := { slots := 2 ^ t, dies := 1 }, resident := true, faccept := 0xFFF, locked := true, pre := .none }
  putTh
    { s1 with
      launches := mapPut s1.launches l x
      mem := wrMem s1.mem (istoreBase l 0 0) 32 (w % 2 ^ 256) } t
    { populated x l 0 1 with st := .running, nextTurn := s.mer }

end Sys2Proof.Machine
end

