-- ==== Sys2Proof/Machine/Step.lean ====
section
/-! DEFINITION. One step of the package, and the placing of an instruction where the next step fetches it. -/

namespace Sys2Proof.Machine

/-- One step: the earliest of the dated steps and turns (95_what_each_step_holds.md); with nothing due, a cycle passes. -/
def step (s : State) : Host.Outcome State Fault Refusal :=
  match nextDue s with
  | some d => exec (pickInstr d.pick) (ready s d)
  | none => .next (passTo s (s.mer + 1))

/-- The instruction with bits w, 256 bits as the instruction store holds them, is the next bundle to issue. -/
def State.withFetchWord (s : State) (_nbits w : Nat) : State := placeBundle s w

end Sys2Proof.Machine
end

