-- ==== Sys2Proof/Safety.lean ====
section
/-! DEFINITION. What counts as a safe state and a safe run, and the shapes of answer in which claims are stated. -/

namespace Sys2Proof.Machine

/-- The invariant of the package: its memory is in the one canonical form. -/
abbrev Inv (s : State) : Prop := Memory.wf s.mem = true

/-- Nothing but the threads and the counter of identifiers differs, and of the threads only the current one. -/
def sameRest (s s' : State) : Prop :=
  s' = { s with threads := s'.threads, seq := s'.seq } ∧ ∀ t, t ≠ s.cur → getTh s' t = getTh s t

/-- The instruction answers with the scalar result v for d, lat turns later, and with nothing else. -/
def givesS (i : Instr) (s : State) (d : Nat) (v : Word) (lat : Nat) : Prop := exec i s = .next (pushS s d v lat)

/-- The instruction takes the exception e. -/
def takes (i : Instr) (s : State) (e : Trap) : Prop := exec i s = .next (raiseTrap s e)

/-- The instruction answers with the vector result r, lat turns later, its latches loaded from the fields of role v. -/
def givesV (i : Instr) (o : VOp) (ra rb rc : Bool) (lat : Nat) (s : State) (r : VRes) : Prop :=
  exec i s = .next (pushFlags (pushV (loadLatches s o ra rb rc) o.d r.val r.mask lat) r.flags lat)

/-- The instruction answers with a scalar result v and the flags fl, its latches loaded. -/
def givesVS (i : Instr) (o : VOp) (ra : Bool) (lat : Nat) (s : State) (v : Word) (fl : Nat) : Prop :=
  exec i s = .next (pushFlags (pushS (loadLatches s o ra false false) o.d v lat) fl lat)

/-- Lanes 0 to n - 1 of width w that the predicate pr enables are written with the values of f, every other bit of the
register is left alone, and the flags are those that the enabled lanes raise. -/
def lanesAre (w n pr : Nat) (f : Nat → Nat × Nat) (r : VRes) : Prop :=
  (∀ k, k < 512 / w →
    if k < n ∧ laneOn w pr k = true then
      laneAt w r.mask k = 2 ^ w - 1 ∧ laneAt w r.val k = (f k).1 % 2 ^ w
    else laneAt w r.mask k = 0)
  ∧ ∀ b, r.flags.testBit b = true ↔ ∃ k, k < n ∧ laneOn w pr k = true ∧ ((f k).2).testBit b = true

/-- An elementwise answer: in every enabled lane f of the operand lanes, in the instruction's type. -/
def elementsAre (i : Instr) (o : VOp) (ra rb rc : Bool) (lat : Nat) (s : State)
    (f : Nat → Nat → Nat → Nat × Nat) : Prop :=
  ∃ r, givesV i o ra rb rc lat s r ∧
    lanesAre (tyWidth o.ty) (512 / tyWidth o.ty) (rdP (curTh s) o.p).toNat
      (fun k => f (laneAt (tyWidth o.ty) (vopA (curTh s) o).toNat k) (laneAt (tyWidth o.ty) (vopB (curTh s) o).toNat k)
        (laneAt (tyWidth o.ty) (vopC (curTh s) o).toNat k)) r

/-- The fields that a queued matrix command takes at issue: its number, its format context, and its cycles. -/
def queuedAs (s : State) (q0 : MCmd) : MCmd :=
  let m0 := cmdFirst s s.cur
  let l := cmdLast m0 (cmdCycles q0.kind q0.nb (curTh s).fmt)
  { q0 with id := s.seq, fmt := (curTh s).fmt, m0 := m0, last := l, f := l + 32, pc := (curTh s).pc }

/-- The instruction enters the command q0 in the matrix queue: its entry is the newest, its start and its completion are
dated, and no register, no flag and no byte of memory changes. -/
def queuesCmd (i : Instr) (s : State) (q0 : MCmd) : Prop :=
  ∃ t, exec i s = .next t ∧
    curTh t = { curTh s with mq := (curTh s).mq ++ [queuedAs s q0], mlast := (queuedAs s q0).last } ∧
    (∀ u, u ≠ s.cur → getTh t u = getTh s u) ∧ t.mem = s.mem ∧
    t.agenda = s.agenda
      ++ [{ cycle := (queuedAs s q0).m0, seq := s.seq + 1, ev := .matrixCommandStart, args := [s.cur, s.seq] },
          { cycle := (queuedAs s q0).f, seq := s.seq + 2, ev := .matrixCommandComplete, args := [s.cur, s.seq] }]

/-- What a queued command needs to issue: a free entry, and no check that fails. -/
abbrev canQueue (s : State) (q0 : MCmd) : Prop :=
  ((curTh s).mq.filter fun q => decide (s.mer < q.f)).length < 4 ∧ checkCmd s s.cur (queuedAs s q0) = none

/-- Mailbox f runs a command of opcode opc, first in doorbell order, its reserved bits zero. -/
abbrev runsCmd (s : State) (f opc : Nat) : Prop :=
  (getVf s f).cmdRun = true ∧ s.pkg.cmdq.head? = some f ∧ bits (getVf s f).cmdRec 7 0 = opc
    ∧ bits (getVf s f).cmdRec 511 256 = 0 ∧ bits (getVf s f).cmdRec 63 36 = 0 ∧ bits (getVf s f).cmdRec 15 10 = 0

/-- The command record of the physical function names an enabled virtual function. -/
abbrev namesVf (s : State) : Prop := 0 < cmdVf s 0 ∧ cmdVf s 0 ≤ 2048 ∧ cmdVf s 0 ≤ s.pkg.numVfs

/-- The slot instructions of form A, L-A and X that a predicate governs as a whole, with their predicate field. -/
def governedBy (i : Instr) : Option Nat :=
  match i with
  | .add o | .sub o | .andS o | .orS o | .xorS o | .andn o | .shl o | .shr o | .sra o | .rol o | .mul o | .mulh o
  | .mulhn o | .div o | .divn o | .rem o | .remn o | .minS o | .maxS o | .minn o | .maxn o | .cmpeq o | .cmpne o
  | .cmplt o | .cmpltn o | .sel o | .clz o | .ctz o | .popc o | .addsat o | .subsat o | .addx o | .extr o | .insr o
  | .rhash o | .jr o | .ret o | .sleepu o | .exitT o | .gnext o | .resumeStub o => some o.p
  | .atadd o | .atmin o | .atmax o | .atand o | .ator o | .atxor o | .atswp o | .atcas o | .takeW o | .putW o | .fullq o
  | .emptyw o | .cpin o | .cpout o | .cpin2 o | .cpout2 o | .cpw o | .cpred o | .cpfill o | .maskq o | .fence o
  | .flushsig o | .sigset o | .sigw o | .epop o | .prld o | .prst o | .winrd o | .winwr o => some o.p
  | .send o | .mbclr o | .gsig o | .gwait o | .gpoll o | .gread o => some o.p
  | _ => none

/-- The slot instructions whose whole effect lies in the registers and results in flight of their own thread. -/
def registerOnly (i : Instr) : Bool :=
  match opcodeOf i with
  | some (.S, op) => decide (op ≤ 0x31)
  | some (.V, _) => true
  | _ => false

/-- The slot instructions that store to local memory in their own cycle; every other one leaves the bytes of memory as
they are. -/
def storesAtIssue (i : Instr) : Bool :=
  match i with
  | .stL _ | .vst _ | .vsts _ | .vscat _ | .takeW _ | .putW _ | .emptyw _ => true
  | _ => false

end Sys2Proof.Machine
end

