-- ==== Sys2Proof/Certificates/Slice0/Obligations.lean ====
section
/-! DEFINITION. The statements for the provers, from the numbered rules of spec/. -/

open Sys2Proof Sys2Proof.Machine

/-- 04 R100: the sums, logical operations, shifts, products, extremes, comparisons and the select of form A, whose value
lands in d one turn later, when bit 0 of the governing predicate is set. -/
def Obligations.ScalarOperationsGiveTheirValues : Prop :=
  ∀ (s : State) (o : AOp), predOn (curTh s) o.p = true →
    let a := rdS (curTh s) o.a
    let b := rdS (curTh s) o.b
    let c := rdS (curTh s) o.c
    let n := b.toNat % 64
    givesS (.add o) s o.d (BitVec.ofInt 64 (a.toInt + b.toInt)) 1
    ∧ givesS (.sub o) s o.d (BitVec.ofInt 64 (a.toInt - b.toInt)) 1
    ∧ givesS (.andS o) s o.d (a &&& b) 1
    ∧ givesS (.orS o) s o.d (a ||| b) 1
    ∧ givesS (.xorS o) s o.d (a ^^^ b) 1
    ∧ givesS (.andn o) s o.d (a &&& ~~~b) 1
    ∧ givesS (.shl o) s o.d (BitVec.ofNat 64 (a.toNat * 2 ^ n)) 1
    ∧ givesS (.shr o) s o.d (BitVec.ofNat 64 (a.toNat / 2 ^ n)) 1
    ∧ givesS (.sra o) s o.d (BitVec.ofInt 64 (a.toInt / 2 ^ n)) 1
    ∧ givesS (.rol o) s o.d (BitVec.ofNat 64 (a.toNat * 2 ^ n + a.toNat / 2 ^ (64 - n))) 1
    ∧ givesS (.mul o) s o.d (BitVec.ofInt 64 (a.toInt * b.toInt)) 1
    ∧ givesS (.mulh o) s o.d (BitVec.ofInt 64 (a.toInt * b.toInt / 2 ^ 64)) 1
    ∧ givesS (.mulhn o) s o.d (BitVec.ofNat 64 (a.toNat * b.toNat / 2 ^ 64)) 1
    ∧ givesS (.minS o) s o.d (BitVec.ofInt 64 (min a.toInt b.toInt)) 1
    ∧ givesS (.maxS o) s o.d (BitVec.ofInt 64 (max a.toInt b.toInt)) 1
    ∧ givesS (.minn o) s o.d (BitVec.ofNat 64 (min a.toNat b.toNat)) 1
    ∧ givesS (.maxn o) s o.d (BitVec.ofNat 64 (max a.toNat b.toNat)) 1
    ∧ givesS (.cmpeq o) s o.d (if a = b then 1 else 0) 1
    ∧ givesS (.cmpne o) s o.d (if a = b then 0 else 1) 1
    ∧ givesS (.cmplt o) s o.d (if a.toInt < b.toInt then 1 else 0) 1
    ∧ givesS (.cmpltn o) s o.d (if a.toNat < b.toNat then 1 else 0) 1
    ∧ givesS (.sel o) s o.d (if c = 0 then b else a) 1
    ∧ givesS (.addx o) s o.d (BitVec.ofInt 64 (a.toInt + b.toInt * 2 ^ (o.fn % 8))) 1

/-- 04 R100, R102: CLZ, CTZ and POPC count bits: the zero bits above the highest one bit, those below the lowest, and the
one bits. ADDSAT and SUBSAT clamp the exact sum to the signed range, or with funct[0] to the unsigned one; the rest of funct
must be zero. -/
def Obligations.CountsAndSaturatingSums : Prop :=
  (∀ (s : State) (o : AOp), predOn (curTh s) o.p = true →
       let a := rdS (curTh s) o.a
       (∃ n, n ≤ 64 ∧ givesS (.clz o) s o.d (BitVec.ofNat 64 n) 1 ∧ a.toNat < 2 ^ (64 - n)
         ∧ (n < 64 → 2 ^ (63 - n) ≤ a.toNat))
       ∧ (∃ n, n ≤ 64 ∧ givesS (.ctz o) s o.d (BitVec.ofNat 64 n) 1 ∧ a.toNat % 2 ^ n = 0
         ∧ (n < 64 → a.toNat / 2 ^ n % 2 = 1))
       ∧ givesS (.popc o) s o.d (BitVec.ofNat 64 ((List.range 64).countP fun k => a.getLsbD k)) 1)
  ∧ (∀ (s : State) (o : AOp), predOn (curTh s) o.p = true →
       let a := rdS (curTh s) o.a
       let b := rdS (curTh s) o.b
       (o.fn % 2 = 0 →
         givesS (.addsat o) s o.d (BitVec.ofInt 64 (max (-2 ^ 63) (min (2 ^ 63 - 1) (a.toInt + b.toInt)))) 1
         ∧ givesS (.subsat o) s o.d (BitVec.ofInt 64 (max (-2 ^ 63) (min (2 ^ 63 - 1) (a.toInt - b.toInt)))) 1)
       ∧ (o.fn % 2 = 1 →
         givesS (.addsat o) s o.d (BitVec.ofNat 64 (min (2 ^ 64 - 1) (a.toNat + b.toNat))) 1
         ∧ givesS (.subsat o) s o.d (BitVec.ofNat 64 (a.toNat - b.toNat)) 1))
  ∧ (∀ o : AOp, 2 ≤ o.fn → slotCause (.addsat o) = some 2 ∧ slotCause (.subsat o) = some 2)

/-- 04 R101: quotients and remainders truncate toward zero, land four turns later, and never trap: a division by zero gives
all ones and the dividend, the signed overflow the dividend and zero. -/
def Obligations.DivisionGivesTruncatedQuotients : Prop :=
  ∀ (s : State) (o : AOp), predOn (curTh s) o.p = true →
    let a := rdS (curTh s) o.a
    let b := rdS (curTh s) o.b
    let ovf := a.toInt = -2 ^ 63 ∧ b.toInt = -1
    givesS (.div o) s o.d
      (if b = 0 then BitVec.ofNat 64 (2 ^ 64 - 1) else if ovf then a else BitVec.ofInt 64 (a.toInt.tdiv b.toInt)) 4
    ∧ givesS (.divn o) s o.d (if b = 0 then BitVec.ofNat 64 (2 ^ 64 - 1) else BitVec.ofNat 64 (a.toNat / b.toNat)) 4
    ∧ givesS (.rem o) s o.d
      (if b = 0 then a else if ovf then 0 else BitVec.ofInt 64 (a.toInt - b.toInt * a.toInt.tdiv b.toInt)) 4
    ∧ givesS (.remn o) s o.d (if b = 0 then a else BitVec.ofNat 64 (a.toNat - b.toNat * (a.toNat / b.toNat))) 4

/-- 04 R103 to R106: the immediate forms, unconditional: imm28 and imm34 sign-extended, shift amounts unsigned, LIH placing
30 bits above the 34 low bits of d. EXTR reads a field, sign-extended with SX; INSR puts one; a field that would reach above
bit 63 is cut. RHASH gives the hash of its operands. The fields that must be zero are refused with cause 2. -/
def Obligations.ImmediatesFieldsAndHash : Prop :=
  ((∀ (s : State) (o : IOp), o.imm < 2 ^ 28 →
       let a := rdS (curTh s) o.a
       let imm : Int := if o.imm < 2 ^ 27 then (o.imm : Int) else (o.imm : Int) - 2 ^ 28
       let w := BitVec.ofInt 64 imm
       givesS (.addi o) s o.d (BitVec.ofInt 64 (a.toInt + imm)) 1
       ∧ givesS (.andi o) s o.d (a &&& w) 1
       ∧ givesS (.ori o) s o.d (a ||| w) 1
       ∧ givesS (.xori o) s o.d (a ^^^ w) 1
       ∧ givesS (.cmpeqi o) s o.d (if a.toInt = imm then 1 else 0) 1
       ∧ givesS (.cmplti o) s o.d (if a.toInt < imm then 1 else 0) 1
       ∧ givesS (.muli o) s o.d (BitVec.ofInt 64 (a.toInt * imm)) 1)
     ∧ (∀ (s : State) (o : IOp), o.imm < 64 →
       let a := rdS (curTh s) o.a
       givesS (.shli o) s o.d (BitVec.ofNat 64 (a.toNat * 2 ^ o.imm)) 1
       ∧ givesS (.shri o) s o.d (BitVec.ofNat 64 (a.toNat / 2 ^ o.imm)) 1
       ∧ givesS (.srai o) s o.d (BitVec.ofInt 64 (a.toInt / 2 ^ o.imm)) 1)
     ∧ (∀ (s : State) (o : KOp), o.imm < 2 ^ 34 →
       givesS (.liK o) s o.d (BitVec.ofInt 64 (if o.imm < 2 ^ 33 then (o.imm : Int) else (o.imm : Int) - 2 ^ 34)) 1)
     ∧ ∀ (s : State) (o : KOp), o.imm < 2 ^ 30 →
       givesS (.lih o) s o.d (BitVec.ofNat 64 (o.imm * 2 ^ 34 + (rdS (curTh s) o.d).toNat % 2 ^ 34)) 1)
  ∧ (∀ (s : State) (o : AOp), predOn (curTh s) o.p = true →
       let a := rdS (curTh s) o.a
       let old := rdS (curTh s) o.d
       let pos := o.fn % 64
       let len := o.fn / 64 % 64 + 1
       (∃ v : Word, givesS (.extr o) s o.d v 1 ∧
         ∀ k, k < 64 → v.getLsbD k =
           if k < len then a.getLsbD (pos + k) else (decide (o.fn / 4096 % 2 = 1) && a.getLsbD (pos + len - 1)))
       ∧ (∃ v : Word, givesS (.insr o) s o.d v 1 ∧
         ∀ k, k < 64 → v.getLsbD k = if pos ≤ k ∧ k < pos + len then a.getLsbD (k - pos) else old.getLsbD k)
       ∧ givesS (.rhash o) s o.d (rhash a (rdS (curTh s) o.b)) 1)
  ∧ ((∀ o : IOp, 64 ≤ o.imm →
       slotCause (.shli o) = some 2 ∧ slotCause (.shri o) = some 2 ∧ slotCause (.srai o) = some 2)
     ∧ (∀ o : KOp, 2 ^ 30 ≤ o.imm → slotCause (.lih o) = some 2)
     ∧ ∀ o : AOp,
       (o.b ≠ 0 ∨ o.c ≠ 0 → slotCause (.extr o) = some 2 ∧ slotCause (.insr o) = some 2)
       ∧ (4096 ≤ o.fn → slotCause (.insr o) = some 2)
       ∧ (o.c ≠ 0 ∨ o.fn ≠ 0 → slotCause (.rhash o) = some 2))

/-- 04 R107, 02 R49: MOVC reads a control register as it stands, MER as the cycle of issue; MOVTC writes the bits that the
register has, one turn later. -/
def Obligations.ControlRegisterMoves : Prop :=
  ∀ (s : State) (o : IOp),
    let th := curTh s
    let a := rdS th o.a
    (o.imm = 0 → givesS (.movc o) s o.d (BitVec.ofNat 64 s.mer) 1)
    ∧ (o.imm = 1 → givesS (.movc o) s o.d (BitVec.ofNat 64 s.cur) 1)
    ∧ (o.imm = 2 → givesS (.movc o) s o.d th.lc 1)
    ∧ (o.imm = 3 → givesS (.movc o) s o.d (BitVec.ofNat 64 th.rrb) 1)
    ∧ (o.imm = 4 → givesS (.movc o) s o.d (BitVec.ofNat 64 th.seed.toNat) 1)
    ∧ (o.imm = 5 → givesS (.movc o) s o.d (BitVec.ofNat 64 th.fst.toNat) 1)
    ∧ (o.imm = 6 → givesS (.movc o) s o.d (BitVec.ofNat 64 th.tst.toNat) 1)
    ∧ (o.imm = 7 → givesS (.movc o) s o.d (BitVec.ofNat 64 th.phase.toNat) 1)
    ∧ (o.imm = 8 → givesS (.movc o) s o.d (BitVec.ofNat 64 th.spcnt.toNat) 1)
    ∧ (o.imm = 9 → givesS (.movc o) s o.d (BitVec.ofNat 64 ((getVf s th.vf).instar % 2 ^ 32)) 1)
    ∧ (o.imm = 10 → givesS (.movc o) s o.d (BitVec.ofNat 64 th.lidx.toNat) 1)
    ∧ (o.imm = 11 → givesS (.movc o) s o.d (BitVec.ofNat 64 th.pres.toNat) 1)
    ∧ (o.imm = 12 → givesS (.movc o) s o.d (BitVec.ofNat 64 th.launch.toNat) 1)
    ∧ (o.imm = 2 → exec (.movtc o) s = .next (pushPend s .lc a.toNat 0 1))
    ∧ (o.imm = 3 → exec (.movtc o) s = .next (pushPend s .rrb (a.toNat % 24) 0 1))
    ∧ (o.imm = 4 → exec (.movtc o) s = .next (pushPend s .seed (a.toNat % 2 ^ 32) 0 1))
    ∧ (o.imm = 5 → exec (.movtc o) s = .next (pushPend s .fst (a.toNat % 2 ^ 5) 0 1))
    ∧ (o.imm = 6 → exec (.movtc o) s = .next (pushPend s .tst (a.toNat % 2 ^ 33) 0 1))

/-- 02 R42, R45, R49, R50, R55, R56; 04 R107, R111, R112; 11 R279: what a result is: nothing changes at issue but the list
of results in flight of the issuing thread; in the cycle lat turns later the scalar register reads the value, and s0 reads
zero; of two results for one register that land in one turn the later-issued stands, and one that lands later overwrites.
LC, RRB, SEED, FST, TST and PHASE take their values, flags that an operation raises are ORed into FST, from which nothing
but a result for FST itself removes one, and a predicate takes the bits that its mask names. -/
def Obligations.ScalarResultLands : Prop :=
  ((∀ (s : State) (d lat : Nat) (v : Word),
       sameRest s (pushS s d v lat)
       ∧ curTh (pushS s d v lat)
         = { curTh s with pend := insPend (curTh s).pend { due := s.mer + 8 * lat, seq := s.seq, dest := .s d, val := v.toNat, mask := 0 } })
     ∧ (∀ (s : State) (d lat : Nat) (v : Word), 0 < d → d < 32 →
       (∀ p ∈ (curTh s).pend, p.due < s.mer + 8 * lat) →
       rdS (landUpto (curTh (pushS s d v lat)) (s.mer + 8 * lat)) d = v)
     ∧ (∀ (th : Thread) (c : Nat), (∀ p ∈ th.pend, c < p.due) → landUpto th c = th)
     ∧ ∀ (th : Thread) (c : Nat), rdS (landUpto th c) 0 = 0)
  ∧ ((∀ (s : State) (val mask lat : Nat),
       let c := s.mer + 8 * lat
       let before := landUpto (curTh s) c
       let lands (dest : Dest) : Thread := landUpto (curTh (pushPend s dest val mask lat)) c
       (∀ p ∈ (curTh s).pend, p.due < c) →
       (lands .lc).lc = BitVec.ofNat 64 val ∧ (lands .rrb).rrb = val % 24 ∧ (lands .seed).seed = BitVec.ofNat 32 val
       ∧ (lands .fst).fst = BitVec.ofNat 5 val ∧ (lands .tst).tst = BitVec.ofNat 33 val
       ∧ (lands .phase).phase = BitVec.ofNat 4 val ∧ (lands .fstOr).fst = before.fst ||| BitVec.ofNat 5 val
       ∧ (∀ i k, i ≠ 0 → k < 16 →
         (rdP (lands (.p i)) i).getLsbD k = if mask.testBit k then val.testBit k else (rdP before i).getLsbD k)
       ∧ ∀ i, rdP (lands (.p i)) 0 = 0xFFFF)
     ∧ (∀ (th : Thread) (c k : Nat), (∀ p ∈ th.pend, p.dest ≠ .fst) → th.fst.getLsbD k = true →
       (landUpto th c).fst.getLsbD k = true)
     ∧ ∀ (th : Thread) (c : Nat), (∀ p ∈ th.pend, p.dest ≠ .fst ∧ p.dest ≠ .fstOr) → (landUpto th c).fst = th.fst)
  ∧ (∀ (s : State) (d k lat lat2 : Nat) (v w : Word), 0 < d → d < 32 →
       let end1 := s.mer + 8 * lat
       let end2 := s.mer + 8 * (k + lat2)
       let th := curTh (pushS { pushS s d v lat with mer := s.mer + 8 * k } d w lat2)
       (∀ p ∈ (curTh s).pend, p.due < end1 ∧ p.due < end2) →
       (end1 ≤ end2 → rdS (landUpto th end2) d = w)
       ∧ (end1 < end2 → rdS (landUpto th end1) d = v)
       ∧ (end2 < end1 → rdS (landUpto th end2) d = w ∧ rdS (landUpto th end1) d = v))

/-- 02 R45, 04 R99: an instruction whose governing predicate has bit 0 clear writes nothing, accesses nothing and faults on
nothing. -/
def Obligations.PredicatedOffHasNoEffect : Prop :=
  ∀ (i : Instr) (p : Nat) (s : State), governedBy i = some p → predOn (curTh s) p = false → exec i s = .next s

/-- 02 R54, R55, R111; 04 R98, R109: the register instructions of the S and V slots change nothing in the package but the
results in flight and the latches of their own thread: no byte of memory, no flag or special register, no other thread, no
pc, and no register before its result lands. -/
def Obligations.RegisterInstructionsFrame : Prop :=
  ∀ (i : Instr) (s t : State), registerOnly i = true → exec i s = .next t →
    sameRest s t
    ∧ (∀ a, rdByte t.mem a = rdByte s.mem a)
    ∧ curTh t = { curTh s with
        pend := (curTh t).pend, latA := (curTh t).latA, latB := (curTh t).latB, latC := (curTh t).latC
        parity := (curTh t).parity }

/-- 11 R281 to R284: a taken branch with its target in the kernel leaves a pending branch with two delay slots; CALL writes
the return index to s31, LOOP and LOOPN count LC down, and a taken LOOP turns RRB by one at its target. A condition that
fails changes nothing, LOOP with LC = 1 only counts, and a target outside the kernel, of every branch, takes LOCAL_RANGE
with the target as ADDR; JR and RET may name the index that follows it. -/
def Obligations.Branches : Prop :=
  ((∀ (s : State) (o : JOp) (n : Nat),
       (n : Int) = ((curTh s).pc : Int) + (if o.off < 2 ^ 23 then (o.off : Int) else (o.off : Int) - 2 ^ 24) →
       o.off < 2 ^ 24 → n < (getLaunch s (curTh s).lid).klen →
       let a := rdS (curTh s) o.a
       let jump (rot : Option Nat) (x : State) : State :=
         modCur x fun th => { th with br := some { tgt := n, left := 2, rot := rot } }
       exec (.br o) s = .next (jump none s)
       ∧ (a = 0 → exec (.bz o) s = .next (jump none s))
       ∧ (a ≠ 0 → exec (.bnz o) s = .next (jump none s))
       ∧ (a.toInt < 0 → exec (.bltz o) s = .next (jump none s))
       ∧ (0 ≤ a.toInt → exec (.bgez o) s = .next (jump none s))
       ∧ exec (.call o) s = .next (jump none (pushS s 31 (BitVec.ofNat 64 ((curTh s).pc + 3)) 1))
       ∧ ((curTh s).lc - 1 ≠ 0 →
           exec (.loop o) s
               = .next (jump (some (((curTh s).rrb + 23) % 24)) (pushPend s .lc ((curTh s).lc - 1).toNat 0 1))
           ∧ exec (.loopn o) s = .next (jump none (pushPend s .lc ((curTh s).lc - 1).toNat 0 1))))
     ∧ ∀ (s : State) (o : AOp), predOn (curTh s) o.p = true →
       let jump (n : Nat) : State := modCur s fun th => { th with br := some { tgt := n, left := 2, rot := none } }
       ((rdS (curTh s) o.a).toNat ≤ (getLaunch s (curTh s).lid).klen →
         exec (.jr o) s = .next (jump (rdS (curTh s) o.a).toNat))
       ∧ ((rdS (curTh s) 31).toNat ≤ (getLaunch s (curTh s).lid).klen →
         exec (.ret o) s = .next (jump (rdS (curTh s) 31).toNat)))
  ∧ ((∀ (s : State) (o : JOp),
       let a := rdS (curTh s) o.a
       (a ≠ 0 → exec (.bz o) s = .next s)
       ∧ (a = 0 → exec (.bnz o) s = .next s)
       ∧ (0 ≤ a.toInt → exec (.bltz o) s = .next s)
       ∧ (a.toInt < 0 → exec (.bgez o) s = .next s)
       ∧ ((curTh s).lc = 1 → exec (.loop o) s = .next (pushPend s .lc 0 0 1)
           ∧ exec (.loopn o) s = .next (pushPend s .lc 0 0 1))
       ∧ ∀ tgt : Int, tgt = ((curTh s).pc : Int) + (if o.off < 2 ^ 23 then (o.off : Int) else (o.off : Int) - 2 ^ 24) →
           o.off < 2 ^ 24 → tgt < 0 ∨ ((getLaunch s (curTh s).lid).klen : Int) ≤ tgt →
           let out (i : Instr) : Prop := takes i s { code := 0x03, unit := 1, addr := (BitVec.ofInt 64 tgt).toNat }
           out (.br o) ∧ out (.call o) ∧ (a = 0 → out (.bz o)) ∧ (a ≠ 0 → out (.bnz o)) ∧ (a.toInt < 0 → out (.bltz o))
           ∧ (0 ≤ a.toInt → out (.bgez o)) ∧ ((curTh s).lc - 1 ≠ 0 → out (.loop o) ∧ out (.loopn o)))
     ∧ ∀ (s : State) (o : AOp), predOn (curTh s) o.p = true →
       let k := (getLaunch s (curTh s).lid).klen
       let out (i : Instr) (w : Word) : Prop := k < w.toNat → takes i s { code := 0x03, unit := 1, addr := w.toNat }
       out (.jr o) (rdS (curTh s) o.a) ∧ out (.ret o) (rdS (curTh s) 31))

/-- 11 R275, R277, R279, R280, R285, R286, R293: SYNC 0 advances PHASE; SYNC k of a domain of the launch parks the thread
there; SLEEPU parks it until MER reaches its operand, or loses nothing; EXIT marks it; RESUME with a stub running goes to
the safe point. GNEXT gives the coordinates of the next tile, ten bits a level, and moves the cursor; at the end of the
slice it gives bit 63 alone. A domain whose members have all arrived releases: PHASE of each advances, and it goes on in its
first turn 16 cycles or more later. A tile's coordinates are the digits of its number, the innermost level varying fastest.
-/
def Obligations.ThreadControlAndTiles : Prop :=
  ((∀ (s : State) (o : IOp), o.imm % 16 = 0 →
       exec (.syncD o) s = .next (pushPend s .phase (((curTh s).phase.toNat + 1) % 16) 0 1))
     ∧ (∀ (s : State) (o : IOp), o.imm % 16 ≠ 0 → maskHas (getLaunch s (curTh s).lid).syncmask (o.imm % 16) = true →
       exec (.syncD o) s = .next (syncCheck (addPark s s.cur (.sync (o.imm % 16))) (curTh s).lid (o.imm % 16)))
     ∧ (∀ (s : State) (o : IOp), o.imm % 16 ≠ 0 → maskHas (getLaunch s (curTh s).lid).syncmask (o.imm % 16) = false →
       takes (.syncD o) s { code := 0x03, unit := 1, addr := o.imm % 16 })
     ∧ (∀ (s : State) (o : AOp), predOn (curTh s) o.p = true →
       let n := (rdS (curTh s) o.a).toNat
       (s.mer + 8 < n → exec (.sleepu o) s = .next (sched (addPark s s.cur (.sleep n)) n .sleepuWake [s.cur]))
       ∧ (n ≤ s.mer + 8 → exec (.sleepu o) s = .next s)
       ∧ exec (.exitT o) s = .next (modCur s fun th => { th with exiting := true })
       ∧ ((curTh s).stub = true →
         exec (.resumeStub o) s
           = .next (modCur s fun th => { th with stub := false, br := some { tgt := th.ckpt.pc, left := 0, rot := none } }))
       ∧ ((curTh s).stub = false → exec (.resumeStub o) s = .next s)))
  ∧ (∀ (s : State) (o : AOp), predOn (curTh s) o.p = true →
       ((curTh s).cursor < (curTh s).sliceEnd →
         exec (.gnext o) s
           = .next (modCur
               (pushS s o.d (BitVec.ofNat 64
                 (tileCoords (getLaunch s (curTh s).lid).ntile (getLaunch s (curTh s).lid).perm (curTh s).cursor)) 1)
               fun th => { th with cursor := th.cursor + 1 }))
       ∧ ((curTh s).sliceEnd ≤ (curTh s).cursor → givesS (.gnext o) s o.d (BitVec.ofNat 64 (2 ^ 63)) 1))
  ∧ ((∀ (s : State) (l d : Nat), (getLaunch s l).members.Nodup →
       let ms := (getLaunch s l).members.filter fun t =>
         (getTh s t).lid == l && (getTh s t).st != .exited && (getTh s t).st != .empty
       let here (t : Nat) : Prop := Park.sync d ∈ (getTh s t).parks
         ∧ ((getTh s t).st = .parked ∨ (getTh s t).st = .stopped ∨ (getTh s t).st = .saved)
       (ms ≠ [] → (∀ t ∈ ms, here t) → ∀ t ∈ ms,
         let x := getTh s t
         let y := getTh (syncCheck s l d) t
         y.phase.toNat = (x.phase.toNat + 1) % 16 ∧ y.nextTurn = max x.nextTurn (s.mer + 16) ∧ Park.sync d ∉ y.parks
         ∧ (x.st = .parked → x.parks = [.sync d] → x.wasParked = [] → y.st = .running))
       ∧ (∀ t, t ∉ ms → getTh (syncCheck s l d) t = getTh s t) ∧ (syncCheck s l d).mem = s.mem
       ∧ ((∃ t ∈ ms, ¬ here t) → syncCheck s l d = s))
     ∧ ∀ (ntile perm : List Nat) (l : Nat), perm.Nodup → (∀ p ∈ perm, p < 6 ∧ 1 ≤ ntile.getD p 1 ∧ ntile.getD p 1 ≤ 1024) →
       tileCoords ntile perm l < 2 ^ 60
       ∧ (∀ j, j < perm.length →
         let p := perm.getD j 0
         tileCoords ntile perm l / 2 ^ (10 * p) % 2 ^ 10
           = l / ((perm.drop (j + 1)).map fun q => ntile.getD q 1).prod % ntile.getD p 1)
       ∧ ∀ p, p < 6 → p ∉ perm → tileCoords ntile perm l / 2 ^ (10 * p) % 2 ^ 10 = 0)

/-- 02 R66; 18 R385, R387, R389, R397: taking an exception at issue: the thread is FROZEN with the code, its record holds
the context, the bundle as PC and NEXTPC, the branch in flight, the cycle and the details, its parks are held, a STOP asked
of it is dropped, and the record is on its way to the collector of its row; no register, no other thread and no byte of
memory changes. TRAP, and an armed BRKPT, complete by freezing the thread at the end of their turn, NEXTPC being the bundle
that it would issue next (in the turn of the last delay slot the target), with DSL and TGT of a branch still pending; an
unarmed BRKPT has no effect. -/
def Obligations.TakingExceptions : Prop :=
  (∀ (s : State) (o : IOp), (curTh s).trapNow = none →
       let pc := (curTh s).pc
       let freezes (t : State) (code : Nat) : Prop :=
         let r := (curTh t).frec
         (curTh t).st = .frozen ∧ (curTh t).fault = code ∧ r.code = code ∧ r.pc = pc ∧ r.addr = o.imm % 65536
         ∧ ((curTh s).br = none → r.nextpc = pc + 1 ∧ r.dsl = 0)
         ∧ (∀ b, (curTh s).br = some b → b.left ≤ 1 → r.nextpc = b.tgt ∧ r.dsl = 0)
         ∧ (∀ b, (curTh s).br = some b → 1 < b.left → r.nextpc = pc + 1 ∧ r.dsl = b.left - 1 ∧ r.tgt = b.tgt)
         ∧ r.sidv = true ∧ (s.cur < 2 ^ 14 → r.slotid = s.cur) ∧ t.mem = s.mem
       (∃ t, exec (.trap o) s = .next t ∧ freezes t 0x0E ∧ (curTh t).frec.d5 = (rdS (curTh s) o.a).toNat)
       ∧ (brkArmed s s.cur = true → ∃ t, exec (.brkpt o) s = .next t ∧ freezes t 0x0F)
       ∧ (brkArmed s s.cur = false → exec (.brkpt o) s = .next s))
  ∧ (∀ (s : State) (e : Trap),
       let t := raiseTrap s e
       let th := curTh s
       let col := s.cur / 2048 % 8 * 8 + s.cur / 8 % 256 % 8
       let r := (curTh t).frec
       curTh t = { th with st := .frozen, fault := e.code, frec := r, wasParked := th.parks, parks := [], stopAsked := false }
       ∧ r.code = e.code ∧ r.cause = e.cause ∧ r.unit = e.unit ∧ r.addr = e.addr
       ∧ r.d5 = e.d5 ∧ r.d6 = e.d6 ∧ r.d7 = e.d7
       ∧ r.pc = th.pc ∧ r.nextpc = th.pc ∧ r.mer = s.mer ∧ r.sidv = true ∧ (s.cur < 2 ^ 14 → r.slotid = s.cur) ∧ r.vf = th.vf
       ∧ r.launch = th.launch.toNat ∧ r.instar = (getVf s th.vf).instar
       ∧ (r.fatal = true ↔ e.code = 0x08 ∨ e.code = 0x10 ∨ e.code = 0x21 ∨ e.code = 0x23 ∨ e.code = 0x25)
       ∧ (∀ b, th.br = some b → r.tgt = b.tgt ∧ r.dsl = b.left) ∧ (th.br = none → r.tgt = 0 ∧ r.dsl = 0)
       ∧ (e.code ≠ 0x20 → (getCol t col).svc = (getCol s col).svc ++ [r])
       ∧ (∀ u, u ≠ s.cur → getTh t u = getTh s u) ∧ t.mem = s.mem ∧ t.mer = s.mer)

/-- 04 R110, R111, R117 to R121: on the integer types the lane of the result is the exact value of the lanes of a, b and c
read in the instruction's type, wrapped to the lane's width, and no flag is raised; bitwise operations and shifts act on
lane patterns of every type, shift amounts modulo the width; VADDS, VSUBS and VMULQ clamp to the range of the type. -/
def Obligations.VectorIntegerLanes : Prop :=
  (∀ (s : State) (o : VOp), o.ty < 8 →
       let w := tyWidth o.ty
       let i (x : Nat) : Int := intVal (tySigned o.ty) w x
       let wrap (n : Int) : Nat × Nat := ((n % 2 ^ w).toNat, 0)
       elementsAre (.vadd o) o true true false 1 s (fun a b _ => wrap (i a + i b))
       ∧ elementsAre (.vsub o) o true true false 1 s (fun a b _ => wrap (i a - i b))
       ∧ elementsAre (.vmul o) o true true false 1 s (fun a b _ => wrap (i a * i b))
       ∧ elementsAre (.vfma o) o true true true 1 s (fun a b c => wrap (i a * i b + i c))
       ∧ elementsAre (.vfnma o) o true true true 1 s (fun a b c => wrap (i c - i a * i b))
       ∧ elementsAre (.vmin o) o true true false 1 s (fun a b _ => wrap (min (i a) (i b)))
       ∧ elementsAre (.vmax o) o true true false 1 s (fun a b _ => wrap (max (i a) (i b)))
       ∧ elementsAre (.vabs o) o true false false 1 s (fun a _ _ => wrap (i a).natAbs)
       ∧ elementsAre (.vneg o) o true false false 1 s (fun a _ _ => wrap (-i a))
       ∧ elementsAre (.vmulh o) o true true false 1 s (fun a b _ => wrap (i a * i b / 2 ^ w)))
  ∧ (∀ (s : State) (o : VOp),
       let w := tyWidth o.ty
       let i (x : Nat) : Int := intVal (tySigned o.ty) w x
       let lo : Int := if tySigned o.ty then -2 ^ (w - 1) else 0
       let hi : Int := if tySigned o.ty then 2 ^ (w - 1) - 1 else 2 ^ w - 1
       let clamp (n : Int) : Nat × Nat := ((max lo (min hi n) % 2 ^ w).toNat, 0)
       elementsAre (.vand o) o true true false 1 s (fun a b _ => (a &&& b, 0))
       ∧ elementsAre (.vor o) o true true false 1 s (fun a b _ => (a ||| b, 0))
       ∧ elementsAre (.vxor o) o true true false 1 s (fun a b _ => (a ^^^ b, 0))
       ∧ elementsAre (.vshl o) o true true false 1 s (fun a b _ => (a * 2 ^ (b % w), 0))
       ∧ elementsAre (.vshr o) o true true false 1 s (fun a b _ => (a / 2 ^ (b % w), 0))
       ∧ elementsAre (.vsra o) o true true false 1 s (fun a b _ => ((intVal true w a / 2 ^ (b % w) % 2 ^ w).toNat, 0))
       ∧ elementsAre (.vadds o) o true true false 1 s (fun a b _ => clamp (i a + i b))
       ∧ elementsAre (.vsubs o) o true true false 1 s (fun a b _ => clamp (i a - i b))
       ∧ elementsAre (.vmulq o) o true true false 1 s
           (fun a b _ => clamp ((i a * i b + 2 ^ (w - 2)) / 2 ^ (w - 1))))

/-- 04 R112, R116, R118, R119, R122 to R125, R127 to R129, R131, R137: on the floating types the lane of the result is the
floating operation of the lanes, and its flags enter FST with the result; VCLASS writes the class mask; the lanes of
instructions whose operands and result differ in width: pairs, groups of four, conversions, packs and unpacks; VEXP2Q writes
0 to the lanes that are not enabled and raises NV alone, for a NaN. That a quiet NaN accumulator wins over the difference of
infinities in VMACW, with no flag, is the model's choice (log 69, DESIGN CHOICE). -/
def Obligations.VectorFloatingAndWideningLanes : Prop :=
  (∀ (s : State) (o : VOp), 8 ≤ o.ty → o.ty ≤ 10 →
       let f := fmtOf o.ty
       let seed := (curTh s).seed.toNat
       elementsAre (.vadd o) o true true false 1 s (fun a b _ => addF f false a b o.rm seed)
       ∧ elementsAre (.vsub o) o true true false 1 s (fun a b _ => addF f true a b o.rm seed)
       ∧ elementsAre (.vmul o) o true true false 1 s (fun a b _ => mulF f a b o.rm seed)
       ∧ elementsAre (.vfma o) o true true true 1 s (fun a b c => fmaF f false a b c o.rm seed)
       ∧ elementsAre (.vfnma o) o true true true 1 s (fun a b c => fmaF f true a b c o.rm seed)
       ∧ elementsAre (.vmin o) o true true false 1 s (fun a b _ => minmaxF f false a b)
       ∧ elementsAre (.vmax o) o true true false 1 s (fun a b _ => minmaxF f true a b)
       ∧ elementsAre (.vabs o) o true false false 1 s (fun a _ _ => signF f false a)
       ∧ elementsAre (.vneg o) o true false false 1 s (fun a _ _ => signF f true a)
       ∧ elementsAre (.vdiv o) o true true false 3 s (fun a b _ => divF f a b o.rm)
       ∧ elementsAre (.vsqrt o) o true false false 3 s (fun a _ _ => sqrtF f a o.rm)
       ∧ elementsAre (.vrcp o) o true false false 1 s (fun a _ _ => rcpF f a)
       ∧ elementsAre (.vrsq o) o true false false 1 s (fun a _ _ => rsqF f a)
       ∧ elementsAre (.vclass o) o true false false 1 s (fun a _ _ => (classF f a, 0)))
  ∧ (∀ (s : State) (o : VOp),
       let th := curTh s
       let pr := (rdP th o.p).toNat
       let a := (vopA th o).toNat
       let b := (vopB th o).toNat
       let c := (vopC th o).toNat
       let w := tyWidth o.ty
       let ws := tyWidth o.fn
       let i (x : Nat) : Int := intVal (tySigned o.ty) w x
       (o.ty < 8 → w ≤ 32 → ∃ r, givesV (.vmacw o) o true true true 1 s r ∧ lanesAre (2 * w) (512 / (2 * w)) pr
         (fun k => (((intVal (tySigned o.ty) (2 * w) (laneAt (2 * w) c k) + i (laneAt w a (2 * k)) * i (laneAt w b (2 * k))
           + i (laneAt w a (2 * k + 1)) * i (laneAt w b (2 * k + 1))) % 2 ^ (2 * w)).toNat, 0)) r)
       ∧ (o.ty = 9 ∨ o.ty = 10 → ∃ r, givesV (.vmacw o) o true true true 1 s r ∧ lanesAre 32 16 pr
         (fun k => macF (fmtOf o.ty) f32 (laneAt 16 a (2 * k)) (laneAt 16 b (2 * k)) (laneAt 16 a (2 * k + 1))
           (laneAt 16 b (2 * k + 1)) (laneAt 32 c k) o.rm th.seed.toNat) r)
       ∧ (o.ty = 0 ∨ o.ty = 4 → ∃ r, givesV (.vdot4 o) o true true true 1 s r ∧ lanesAre 32 16 pr
         (fun k => (((intVal (tySigned o.ty) 32 (laneAt 32 c k) + i (laneAt 8 a (4 * k)) * i (laneAt 8 b (4 * k))
           + i (laneAt 8 a (4 * k + 1)) * i (laneAt 8 b (4 * k + 1)) + i (laneAt 8 a (4 * k + 2)) * i (laneAt 8 b (4 * k + 2))
           + i (laneAt 8 a (4 * k + 3)) * i (laneAt 8 b (4 * k + 3))) % 2 ^ 32).toNat, 0)) r)
       ∧ (∃ r, givesV (.vcvt o) o true false false 1 s r ∧ lanesAre w (512 / max ws w) pr
         (fun k => convert o.fn o.ty (laneAt ws a k) o.rm th.seed.toNat) r)
       ∧ (2 * w = ws → ∃ r, givesV (.vpack o) o true true false 1 s r ∧ lanesAre w (512 / w) pr
         (fun k => convert o.fn o.ty (if k < 512 / ws then laneAt ws a k else laneAt ws b (k - 512 / ws)) o.rm th.seed.toNat) r)
       ∧ (w = 2 * ws → ∃ r, givesV (.vunpk o) o true false false 1 s r ∧ lanesAre w (512 / w) pr
         (fun k => convert o.fn o.ty (laneAt ws a (k + o.rm * (512 / w))) 0 0) r)
       ∧ ∃ r, givesV (.vexp2q o) o true false false 2 s r ∧ r.mask = 2 ^ 512 - 1 ∧
         (∀ k, k < 16 → laneAt 32 r.val k = if laneOn 32 pr k = true then (exp2q (laneAt 32 a k)).1 % 2 ^ 32 else 0)
         ∧ let nan : Prop := ∃ k, k < 16 ∧ laneOn 32 pr k = true ∧ isNaN f32 (laneAt 32 a k) = true
           (nan → r.flags = 16) ∧ (¬ nan → r.flags = 0))

/-- 03 R79 to R83, R86 to R89, R96; 04 R116: rounding in exact terms: RoundGrid takes the magnitude to one of the two
multiples beside it, by mode; StochUp is the hash of the reduced fraction and the seed; RoundF gives the exact value rounded
in its binade, NX where it differs, UF below the least normal, OF with NX above the largest finite; FloatToInt rounds and
clamps with NV; sums, products, quotients and conversions of finite operands are their exact values rounded once, -0 only of
negative zeros; an MX block is encoded against the binade of its largest magnitude. A NaN operand makes the result the
canonical NaN of its format. -/
def Obligations.RoundingAndNaNs : Prop :=
  (∀ (f : Fmt) (x y z mode seed : Nat) (b : Bool), f = f32 ∨ f = bf16 ∨ f = f16 →
       (isNaN f x = true ∨ isNaN f y = true →
         (addF f b x y mode seed).1 = canonNaN f ∧ (mulF f x y mode seed).1 = canonNaN f
         ∧ (fmaF f b x y z mode seed).1 = canonNaN f ∧ (divF f x y mode).1 = canonNaN f
         ∧ (minmaxF f b x y).1 = canonNaN f)
       ∧ (isNaN f z = true → (fmaF f b x y z mode seed).1 = canonNaN f)
       ∧ (isNaN f x = true →
         (sqrtF f x mode).1 = canonNaN f ∧ (rcpF f x).1 = canonNaN f ∧ (rsqF f x).1 = canonNaN f
         ∧ (signF f b x).1 = canonNaN f))
  ∧ ((∀ (n d mode seed : Nat), 0 < d → mode < 4 →
       let q := roundMag n d mode seed
       (q = n / d ∨ q = n / d + 1)
       ∧ (n % d = 0 → q = n / d)
       ∧ (mode = 0 → 2 * ((q : Int) * d - n).natAbs ≤ d ∧ (2 * ((q : Int) * d - n).natAbs = d → q % 2 = 0))
       ∧ (mode = 1 → q * d ≤ n)
       ∧ (mode = 3 → 2 * ((q : Int) * d - n).natAbs ≤ d ∧ (2 * ((q : Int) * d - n).natAbs = d → n ≤ q * d))
       ∧ (mode = 2 → n % d ≠ 0 → (q = n / d + 1 ↔ stochUp (n % d) d seed = true)))
     ∧ (∀ (neg : Bool) (n d : Nat) (e g : Int) (mode seed : Nat),
       let up (x : Nat) (k : Int) : Nat := x * 2 ^ k.toNat
       let q := roundMag (up n (e + g)) (up d (-(e + g))) mode seed
       roundGrid neg n d e g mode seed = if neg then -(q : Int) else q)
     ∧ ∀ (D k j seed : Nat), D % 2 = 1 → D < 2 ^ k → 1 ≤ k → seed < 2 ^ 32 →
       let x := if k ≤ 32 then D else D / 2 ^ (k - 32)
       let h1 : BitVec 32 := BitVec.ofNat 32 x * 0x9E3779B1 ^^^ BitVec.ofNat 32 seed
       let h2 := (h1 ^^^ (h1 >>> 15)) * 0x85EBCA77
       let h3 := h2 ^^^ (h2 >>> 13)
       stochUp (D * 2 ^ j) (2 ^ (k + j)) seed = decide (h3.toNat % 2 ^ min k 32 < x))
  ∧ (let up (x : Nat) (k : Int) : Nat := x * 2 ^ k.toNat
     (∀ (f : Fmt) (neg : Bool) (n d : Nat) (e : Int) (mode seed : Nat), f = f32 ∨ f = bf16 ∨ f = f16 → 0 < n → 0 < d → mode < 4 →
       ∃ lg : Int, up d (lg - e) ≤ up n (e - lg) ∧ up n (e - lg) < 2 * up d (lg - e) ∧
         let ex := max lg (1 - f.bias)
         let g := f.p - ex
         let sn := up n (e + g)
         let sd := up d (-(e + g))
         let q := roundMag sn sd mode seed
         let r := roundF f neg n d e mode seed
         let s : Nat := if neg then 2 ^ (f.p + f.eb) else 0
         let top := (2 ^ f.eb - 1) * 2 ^ f.p
         let beyond : Prop := (f.bias : Int) < ex ∨ (ex = f.bias ∧ 2 ^ (f.p + 1) ≤ q)
         (beyond → r = (s + (if mode = 1 then top - 1 else top), 5))
         ∧ (¬ beyond → r.1 < 2 ^ (f.p + f.eb + 1)
           ∧ (∃ (m : Nat) (x : Int), valF f r.1 = .fin neg m x ∧ -g ≤ x ∧ q = m * 2 ^ (x + g).toNat)
           ∧ r.2 = if sn % sd = 0 then 0 else if lg < 1 - f.bias then 3 else 1))
     ∧ (∀ (f : Fmt) (neg : Bool) (m : Nat) (e : Int) (mode seed : Nat), f = f32 ∨ f = bf16 ∨ f = f16 →
       let s : Nat := if neg then 2 ^ (f.p + f.eb) else 0
       roundV f .nan mode seed = ((2 ^ f.eb - 1) * 2 ^ f.p + 2 ^ (f.p - 1), 0)
       ∧ roundV f (.inf neg) mode seed = (s + (2 ^ f.eb - 1) * 2 ^ f.p, 0)
       ∧ (m = 0 → roundV f (.fin neg m e) mode seed = (s, 0))
       ∧ (m ≠ 0 → roundV f (.fin neg m e) mode seed = roundF f neg m 1 e mode seed
         ∧ ∀ k : Nat, roundV f (.fin neg (m * 2 ^ k) (e - k)) mode seed = roundV f (.fin neg m e) mode seed))
     ∧ ∀ (sg : Bool) (w : Nat) (neg : Bool) (m : Nat) (e : Int) (mode seed : Nat), 0 < w → mode < 4 →
       let lo : Int := if sg then -2 ^ (w - 1) else 0
       let hi : Int := if sg then 2 ^ (w - 1) - 1 else 2 ^ w - 1
       let n := roundGrid neg m 1 e 0 mode seed
       let r := floatToInt sg w (.fin neg m e) mode seed
       intVal sg w r.1 = max lo (min hi n)
       ∧ r.2 = (if n < lo ∨ hi < n then 16 else if m * 2 ^ e.toNat % 2 ^ (-e).toNat = 0 then 0 else 1)
       ∧ floatToInt sg w .nan mode seed = (0, 16)
       ∧ (floatToInt sg w (.inf neg) mode seed).2 = 16
       ∧ intVal sg w (floatToInt sg w (.inf neg) mode seed).1 = if neg then lo else hi)
  ∧ (∀ (f : Fmt) (x y z mode seed : Nat) (n1 n2 n3 : Bool) (m1 m2 m3 : Nat) (e1 e2 e3 : Int),
       f = f32 ∨ f = bf16 ∨ f = f16 → mode < 4 →
       valF f x = .fin n1 m1 e1 → valF f y = .fin n2 m2 e2 → valF f z = .fin n3 m3 e3 →
       let at_ (n : Bool) (m : Nat) (e lo : Int) : Int := if n then -((m * 2 ^ (e - lo).toNat : Nat) : Int) else (m * 2 ^ (e - lo).toNat : Nat)
       let sum (p q : Bool) (m k : Nat) (e g : Int) : Nat × Nat :=
         let u := at_ p m e (min e g) + at_ q k g (min e g)
         roundV f (if u = 0 then .fin (m == 0 && k == 0 && p && q) 0 0 else .fin (decide (u < 0)) u.natAbs (min e g)) mode seed
       addF f false x y mode seed = sum n1 n2 m1 m2 e1 e2
       ∧ addF f true x y mode seed = sum n1 (!n2) m1 m2 e1 e2
       ∧ mulF f x y mode seed = roundV f (.fin (n1 != n2) (m1 * m2) (e1 + e2)) mode seed
       ∧ fmaF f false x y z mode seed = sum (n1 != n2) n3 (m1 * m2) m3 (e1 + e2) e3
       ∧ fmaF f true x y z mode seed = sum (n1 == n2) n3 (m1 * m2) m3 (e1 + e2) e3
       ∧ (m2 ≠ 0 → m1 ≠ 0 → divF f x y mode = roundF f (n1 != n2) m1 m2 (e1 - e2) mode 0)
       ∧ (∀ t, 8 ≤ t → t ≤ 10 → ∀ ty, f = fmtOf ty → 8 ≤ ty → ty ≤ 10 →
         convert ty t x mode seed = roundV (fmtOf t) (.fin n1 m1 e1) mode seed))
  ∧ (∀ (t : Nat) (xs : List FV) (mode seed : Nat), t < 3 → mode < 4 →
       let g : Int := if t = 0 then 6 else if t = 1 then 4 else 2
       let top : Int := if t = 0 then 127 else if t = 1 then 31 else 7
       let b := if t = 0 then 8 else if t = 1 then 6 else 4
       let r := mxEncode t xs mode seed
       (FV.nan ∈ xs ∨ (∃ n, FV.inf n ∈ xs) → r = (255, xs.map fun _ => 0))
       ∧ ((∀ v ∈ xs, ∃ n e, v = .fin n 0 e) → r = (0, xs.map fun _ => 0))
       ∧ ∀ X : Int, (∀ v ∈ xs, ∃ n m e, v = .fin n m e ∧ (m ≠ 0 → (Nat.log2 m : Int) + e ≤ X)) → -127 ≤ X →
         (∃ n m e, FV.fin n m e ∈ xs ∧ m ≠ 0 ∧ (X = -127 ∨ (Nat.log2 m : Int) + e = X)) →
         r.1 = (X + 127).toNat
         ∧ r.2.length = xs.length
         ∧ ∀ i n m e, xs[i]? = some (.fin n m e) →
           intVal true b (r.2.getD i 0) = max (-top) (min top (roundGrid n m 1 (e - X) g mode seed)))

/-- 04 R130, R132, R136: compares write one bit for each governed 32-bit granule, set when the relation holds in all of its
lanes, or with funct[0] in any; floating lanes compare by value, beside a NaN only NE is true, and a NaN raises NV under LT
and LE, a signalling one under EQ and NE as well; predicate logic writes the governed bits; PCNT counts them. VPERM and
VSLIDE choose among the lanes of two registers, VSPLAT repeats a scalar, VINS writes one lane, VEXT extends one lane, VSEL
takes a where enabled and b elsewhere. -/
def Obligations.PredicateResultsAndMoves : Prop :=
  (∀ (s : State) (o : VOp),
       let th := curTh s
       let w := tyWidth o.ty
       let pr := (rdP th o.p).toNat
       let a := (vopA th o).toNat
       let b := (vopB th o).toNat
       let i (x : Nat) : Int := intVal (tySigned o.ty) w x
       let lanes (j : Nat) : List Nat := if w = 64 then [j / 2] else (List.range (32 / w)).map fun m => j * (32 / w) + m
       let compares (ins : Instr) (rel : Int → Int → Prop) : Prop :=
         ∃ v m, exec ins s = .next (pushP (loadLatches s o true true false) o.d v m 1) ∧ ∀ j, j < 16 →
           if pr.testBit (if w = 64 then j / 2 * 2 else j) then
             m.testBit j = true ∧
             (v.testBit j = true ↔
               if o.fn % 2 = 1 then ∃ k ∈ lanes j, rel (i (laneAt w a k)) (i (laneAt w b k))
               else ∀ k ∈ lanes j, rel (i (laneAt w a k)) (i (laneAt w b k)))
           else m.testBit j = false
       let f := fmtOf o.ty
       let x (k : Nat) : Nat := laneAt w a k
       let y (k : Nat) : Nat := laneAt w b k
       let nan (k : Nat) : Prop := isNaN f (x k) = true ∨ isNaN f (y k) = true
       let snan (k : Nat) : Prop := isSNaN f (x k) = true ∨ isSNaN f (y k) = true
       let value (z : Nat) : Int := if z / 2 ^ (w - 1) = 1 then -((z % 2 ^ (w - 1) : Nat) : Int) else (z % 2 ^ (w - 1) : Nat)
       let comparesF (ins : Instr) (rel raises : Nat → Prop) : Prop :=
         ∃ v m fl, exec ins s = .next (pushFlags (pushP (loadLatches s o true true false) o.d v m 1) fl 1)
           ∧ (∀ j, j < 16 →
             if pr.testBit j then
               m.testBit j = true
               ∧ (v.testBit j = true ↔ if o.fn % 2 = 1 then ∃ k ∈ lanes j, rel k else ∀ k ∈ lanes j, rel k)
             else m.testBit j = false)
           ∧ ((fl = 16 ∧ ∃ j, j < 16 ∧ pr.testBit j = true ∧ ∃ k ∈ lanes j, raises k)
             ∨ (fl = 0 ∧ ∀ j, j < 16 → pr.testBit j = true → ∀ k ∈ lanes j, ¬raises k))
       let logic (ins : Instr) (v : Nat) : Prop :=
         exec ins s = .next (pushP (loadLatches s o false false false) o.d (v % 2 ^ 16) pr 1)
       (o.ty < 8 → compares (.vcmpeq o) (· = ·) ∧ compares (.vcmpne o) (· ≠ ·)
         ∧ compares (.vcmplt o) (· < ·) ∧ compares (.vcmple o) (· ≤ ·))
       ∧ (8 ≤ o.ty → o.ty ≤ 10 →
         comparesF (.vcmpeq o) (fun k => ¬nan k ∧ value (x k) = value (y k)) snan
         ∧ comparesF (.vcmpne o) (fun k => nan k ∨ value (x k) ≠ value (y k)) snan
         ∧ comparesF (.vcmplt o) (fun k => ¬nan k ∧ value (x k) < value (y k)) nan
         ∧ comparesF (.vcmple o) (fun k => ¬nan k ∧ value (x k) ≤ value (y k)) nan)
       ∧ logic (.pand o) ((rdP th o.a).toNat &&& (rdP th o.b).toNat)
       ∧ logic (.por o) ((rdP th o.a).toNat ||| (rdP th o.b).toNat)
       ∧ logic (.pxor o) ((rdP th o.a).toNat ^^^ (rdP th o.b).toNat)
       ∧ logic (.pnot o) ((rdP th o.a).toNat ^^^ 0xFFFF)
       ∧ givesVS (.pcnt o) o false 2 s
           (BitVec.ofNat 64 ((List.range 16).countP fun k => pr.testBit k && (rdP th o.a).toNat.testBit k)) 0)
  ∧ (∀ (s : State) (o : VOp),
       let th := curTh s
       let w := tyWidth o.ty
       let n := 512 / w
       let pr := (rdP th o.p).toNat
       let a (k : Nat) : Nat := laneAt w (vopA th o).toNat k
       let b (k : Nat) : Nat := laneAt w (vopB th o).toNat k
       let c (k : Nat) : Nat := laneAt w (vopC th o).toNat k
       let q := (rdS th o.b).toNat % n
       (∃ r, givesV (.vperm o) o true true true 1 s r ∧ lanesAre w n pr
         (fun k => (if b k % (2 * n) < n then a (b k % (2 * n)) else c (b k % (2 * n) - n), 0)) r)
       ∧ (∃ r, givesV (.vslide o) o true true false 1 s r ∧ lanesAre w n pr
         (fun k => let j := (k + (rdS th o.c).toNat) % (2 * n); (if j < n then a j else b (j - n), 0)) r)
       ∧ (∃ r, givesV (.vsplat o) o false false false 1 s r ∧ lanesAre w n pr (fun _ => ((rdS th o.a).toNat, 0)) r)
       ∧ (∃ r, givesV (.vins o) o false false false 1 s r ∧ r.flags = 0 ∧ ∀ k, k < n →
         if k = q ∧ laneOn w pr k = true then laneAt w r.mask k = 2 ^ w - 1 ∧ laneAt w r.val k = (rdS th o.a).toNat % 2 ^ w
         else laneAt w r.mask k = 0)
       ∧ givesVS (.vext o) o true 1 s
           (if laneOn w pr q = true then
             (if tySigned o.ty then BitVec.ofInt 64 (intVal true w (a q)) else BitVec.ofNat 64 (a q)) else 0) 0
       ∧ ∃ r, givesV (.vsel o) o true true false 1 s r ∧ r.flags = 0 ∧ ∀ k, k < n →
         laneAt w r.mask k = 2 ^ w - 1 ∧ laneAt w r.val k = if laneOn w pr k = true then a k else b k)

/-- 04 R133 to R135, 03 R92: on the integer types VRADD is the wrapped sum of the enabled lanes, VRMAX and VRMIN bound every
enabled lane and are one of them (with none enabled, the end of the range), each extended to 64 bits; lane k of VPSUM is the
wrapped sum of the enabled lanes up to k. The floating reductions run along the canonical tree of 03, a floating VPSUM adds
one lane after another, with the flags of every addition; VFIND gives the least enabled lane above its scalar operand, or
the number of lanes, and raises no flag. The flags of floating VRADD and VPSUM are those of the additions of 03 R92: a
signalling NaN operand raises NV and opposite infinities none, the model's choice (log 55, DEDUCED). -/
def Obligations.ReductionsAndFind : Prop :=
  (∀ (s : State) (o : VOp), o.ty < 8 →
       let th := curTh s
       let w := tyWidth o.ty
       let pr := (rdP th o.p).toNat
       let x (k : Nat) : Nat := laneAt w (vopA th o).toNat k
       let i (y : Nat) : Int := intVal (tySigned o.ty) w y
       let on : List Nat := (List.range (512 / w)).filter (laneOn w pr)
       let ext (y : Nat) : Word := BitVec.ofInt 64 (intVal (tySigned o.ty) w y)
       givesVS (.vradd o) o true 2 s (ext ((on.map x).sum % 2 ^ w)) 0
       ∧ (∃ y, givesVS (.vrmax o) o true 2 s (ext y) 0 ∧ (∀ k ∈ on, i (x k) ≤ i y)
         ∧ ((∃ k ∈ on, i y = i (x k)) ∨ on = [] ∧ i y = if tySigned o.ty then -2 ^ (w - 1) else 0))
       ∧ (∃ y, givesVS (.vrmin o) o true 2 s (ext y) 0 ∧ (∀ k ∈ on, i y ≤ i (x k))
         ∧ ((∃ k ∈ on, i y = i (x k)) ∨ on = [] ∧ i y = if tySigned o.ty then 2 ^ (w - 1) - 1 else 2 ^ w - 1))
       ∧ ∃ r, givesV (.vpsum o) o true false false 2 s r ∧ lanesAre w (512 / w) pr
         (fun k => (((on.filter (· ≤ k)).map x).sum, 0)) r)
  ∧ (∀ (s : State) (o : VOp),
       let th := curTh s
       let w := tyWidth o.ty
       let pr := (rdP th o.p).toNat
       let x (k : Nat) : Nat := laneAt w (vopA th o).toNat k
       let n := 512 / w
       let above (k : Nat) : Prop :=
         k < n ∧ laneOn w pr k = true ∧ intVal (tySigned o.ty) w (rdS th o.b).toNat < intVal (tySigned o.ty) w (x k)
       let f := fmtOf o.ty
       let value (z : Nat) : Int := if z / 2 ^ (w - 1) = 1 then -((z % 2 ^ (w - 1) : Nat) : Int) else (z % 2 ^ (w - 1) : Nat)
       let v := (rdS th o.b).toNat % 2 ^ w
       let aboveF (k : Nat) : Prop :=
         k < n ∧ laneOn w pr k = true ∧ isNaN f v = false ∧ isNaN f (x k) = false ∧ value v < value (x k)
       (8 ≤ o.ty → o.ty ≤ 10 →
         let ls (d : Nat) : List (Nat × Nat) := (List.range n).map fun k => (if laneOn w pr k then x k else d, 0)
         let sum := canonSum (nodeAddF f) (0, 0) 7 (ls (signW f))
         let hi := canonSum (nodeMaxF f true) (0, 0) 7 (ls (signW f + infPat f))
         let lo := canonSum (nodeMaxF f false) (0, 0) 7 (ls (infPat f))
         givesVS (.vradd o) o true 2 s (BitVec.ofNat 64 sum.1) sum.2
         ∧ givesVS (.vrmax o) o true 2 s (BitVec.ofNat 64 hi.1) hi.2
         ∧ givesVS (.vrmin o) o true 2 s (BitVec.ofNat 64 lo.1) lo.2)
       ∧ (8 ≤ o.ty → o.ty ≤ 10 → ∀ y : Nat → Nat × Nat,
         let u (k : Nat) : Nat × Nat := (if laneOn w pr k then x k else signW f, 0)
         y 0 = u 0 → (∀ k, y (k + 1) = nodeAddF f (y k) (u (k + 1))) →
         ∃ r, givesV (.vpsum o) o true false false 2 s r ∧ r.flags = (y (n - 1)).2 ∧ ∀ k, k < n →
           if laneOn w pr k = true then
             laneAt w r.mask k = 2 ^ w - 1 ∧ laneAt w r.val k = if isNaN f (y k).1 then canonNaN f else (y k).1
           else laneAt w r.mask k = 0)
       ∧ (8 ≤ o.ty → o.ty ≤ 10 → ∃ q, givesVS (.vfind o) o true 2 s (BitVec.ofNat 64 q) 0 ∧ q ≤ n ∧ (q < n → aboveF q)
         ∧ ∀ k, k < q → ¬aboveF k)
       ∧ (o.ty < 8 → ∃ q, givesVS (.vfind o) o true 2 s (BitVec.ofNat 64 q) 0 ∧ q ≤ n ∧ (q < n → above q)
         ∧ ∀ k, k < q → ¬above k))

/-- 02 R55, R56, R58, R60, R111: what a vector result is: the bits that its mask names take its value lat turns later, the
others keep theirs, in the physical register that RRB gave the code at issue; of two results that land in one turn the
later-issued one stands in the bits that both name, and one that lands later overwrites; the latches hold the operands just
read. -/
def Obligations.VectorResultLands : Prop :=
  ((∀ (s : State) (d val mask lat : Nat) (k : Nat), k < 512 →
       (∀ p ∈ (curTh s).pend, p.due < s.mer + 8 * lat ∧ p.dest ≠ .v (physV (curTh s).rrb d)) →
       (rdVp (landUpto (curTh (pushV s d val mask lat)) (s.mer + 8 * lat)) (physV (curTh s).rrb d)).getLsbD k
         = if mask.testBit k then val.testBit k else (rdV (curTh s) d).getLsbD k)
     ∧ (∀ (rrb d : Nat), physV rrb d = if d < 24 then d else 24 + (d - 24 + rrb) % 24)
     ∧ ∀ (s : State) (o : VOp) (ra rb rc : Bool),
       let t := curTh (loadLatches s o ra rb rc)
       t.latA = (if ra then vopA (curTh s) o else (curTh s).latA)
       ∧ t.latB = (if rb then vopB (curTh s) o else (curTh s).latB)
       ∧ t.latC = (if rc then vopC (curTh s) o else (curTh s).latC))
  ∧ (∀ (s : State) (d k lat lat2 v w m n : Nat) (j : Nat), j < 512 →
       let phys := physV (curTh s).rrb d
       let end1 := s.mer + 8 * lat
       let end2 := s.mer + 8 * (k + lat2)
       let th := curTh (pushV { pushV s d v m lat with mer := s.mer + 8 * k } d w n lat2)
       let bit (c : Nat) : Bool := (rdVp (landUpto th c) phys).getLsbD j
       (∀ p ∈ (curTh s).pend, p.due < end1 ∧ p.due < end2) →
       (end1 ≤ end2 → n.testBit j = true → bit end2 = w.testBit j)
       ∧ (end1 ≤ end2 → n.testBit j = false → m.testBit j = true → bit end2 = v.testBit j)
       ∧ (end2 < end1 → m.testBit j = true → bit end1 = v.testBit j)
       ∧ (end2 < end1 → n.testBit j = true → bit end2 = w.testBit j)
       ∧ (end2 < end1 → m.testBit j = false → n.testBit j = true → bit end1 = w.testBit j))

/-- 05 R138, R145, R146, R155 to R157, R159 to R162: MFMT sets the format context from its funct and its three offsets (the
first of AOFF, BOFF and MOFF that is no multiple of 64 is ALIGN), MSEED the seed; a matrix command whose checks pass takes
the newest entry of the queue with the operands and the context of its issue, its first cycle at its residue, after the
command before it, W rotations long. -/
def Obligations.MatrixInstructionsIssue : Prop :=
  (∀ (s : State) (o : MOp),
       let th := curTh s
       let a := (rdS th o.a).toNat % 2 ^ 32
       let b := (rdS th o.b).toNat % 2 ^ 32
       let m := (rdS th o.n).toNat % 2 ^ 32
       (a % 64 = 0 → b % 64 = 0 → m % 64 = 0 →
         exec (.mfmt o) s = .next (modCur s fun x =>
           { x with fmt := { x.fmt with atype := o.fn % 4, btype := o.fn / 4 % 4, acct := o.fn / 16 % 2
                                        aoff := a, boff := b, moff := m } }))
       ∧ (a % 64 ≠ 0 → takes (.mfmt o) s { code := 0x04, unit := 3, addr := a, d6 := 7 })
       ∧ (a % 64 = 0 → b % 64 ≠ 0 → takes (.mfmt o) s { code := 0x04, unit := 3, addr := b, d6 := 7 + 16 })
       ∧ (a % 64 = 0 → b % 64 = 0 → m % 64 ≠ 0 → takes (.mfmt o) s { code := 0x04, unit := 3, addr := m, d6 := 7 + 32 })
       ∧ exec (.mseed o) s
           = .next (modCur s fun x => { x with fmt := { x.fmt with mseedv := (rdS th o.a).toNat % 2 ^ 32 } }))
  ∧ ((∀ (s : State) (o : MOp),
       let th := curTh s
       let c (k : MKind) : MCmd := { id := 0, kind := k, acc := o.acc, m0 := 0, last := 0, f := 0 }
       let mm (zero sparse : Bool) : MCmd :=
         { c (.mma zero sparse) with
           addrA := (rdS th o.a).toNat, addrB := (rdS th o.b).toNat, nb := (rdS th o.n).toNat
           srcA := o.sa, srcB := o.sb, tb := o.fl % 2 == 1 }
       let at_ (k : MKind) : MCmd := { c k with addrA := (rdS th o.a).toNat, srcA := o.sa }
       let go (i : Instr) (q : MCmd) : Prop := canQueue s q → queuesCmd i s q
       go (.mma o) (mm false false) ∧ go (.mmaz o) (mm true false) ∧ go (.mmas o) (mm false true)
       ∧ go (.mmasz o) (mm true true)
       ∧ go (.mhad o) { c .mhad with fn := o.fn % 64 }
       ∧ go (.mzero o) (c .mzero)
       ∧ go (.mdrain o) { at_ .mdrain with fn := o.fn }
       ∧ go (.mdrainv o)
           { c .mdrainv with phys := physV th.rrb o.a, row := (rdS th o.b).toNat % 32, fn := o.fn }
       ∧ go (.mldacc o) (at_ .mldacc) ∧ go (.mstacc o) (at_ .mstacc))
     ∧ (∀ (s : State) (q : MCmd),
       let r := queuedAs s q
       let w := cmdCycles q.kind q.nb (curTh s).fmt
       s.mer + 8 ≤ r.m0 ∧ r.m0 % 32 = 8 * (coreOf s.cur % 4) + s.cur % 8 ∧ (curTh s).mlast < r.m0
       ∧ r.last = r.m0 + 32 * (w - 1) ∧ r.f = r.last + 32))

/-- 05 R145, R150; 08 R207, R210 to R212, R214 to R218: the first check that fails is the fault that the instruction takes:
of a matrix command its block count, a plane's alignment, its space, the refresh of a bank in the command's cycles, a race,
with four commands in the queue the thread parking before the bundle; of a load, store, peer, strided or gathered access, an
atomic or a full/empty word alignment to its size, a place in the space, a reserved bank, a poisoned word under a read, a
race, for the lowest lane that fails it; of a weight-store read alignment, its space, a refresh, poison. Which of several
planes is named is the model's choice (log 57, DESIGN CHOICE). -/
def Obligations.IssueChecksTakeFaults : Prop :=
  (∀ (s : State) (o : MOp),
       let n := (rdS (curTh s) o.n).toNat
       let free := ((curTh s).mq.filter fun q => decide (s.mer < q.f)).length < 4
       (free → n = 0 ∨ 256 < n →
         takes (.mma o) s { code := 0x0A, unit := 3, addr := n } ∧ takes (.mmaz o) s { code := 0x0A, unit := 3, addr := n }
         ∧ takes (.mmas o) s { code := 0x0A, unit := 3, addr := n }
         ∧ takes (.mmasz o) s { code := 0x0A, unit := 3, addr := n })
       ∧ (free → (rdS (curTh s) o.a).toNat % 64 ≠ 0 →
         takes (.mldacc o) s { code := 0x04, unit := 3, addr := (rdS (curTh s) o.a).toNat, d6 := 6 }
         ∧ takes (.mstacc o) s { code := 0x04, unit := 3, addr := (rdS (curTh s) o.a).toNat, d6 := 5 })
       ∧ (¬free → exec (.mzero o) s = .next (addPark s s.cur .mqFull)))
  ∧ (∀ (s : State) (t n : Nat) (rd wr : Bool) (a : Int),
       let x : Access0 := { n := n, die := dieOf t, core := coreOf t, cycle := s.mer, rd := rd, wr := wr }
       let vf := (getTh s t).vf
       let size := localSize s vf
       let adr := (BitVec.ofInt 64 a).toNat
       (a % n ≠ 0 → checkAcc s t x size [(0, a)] = some { code := 0x04, unit := 4, addr := adr })
       ∧ (a % n = 0 → a < 0 ∨ (size : Int) < a + n →
           checkAcc s t x size [(0, a)] = some { code := 0x03, unit := 4, addr := adr })
       ∧ (checkAcc s t x size [(0, a)] = none ↔
           a % n = 0 ∧ 0 ≤ a ∧ a < size ∧ a + n ≤ size ∧ meetsRmw s vf x a.toNat = false
           ∧ (rd = true → ∀ w ∈ accWords s vf x a.toNat, poisoned s w = false) ∧ meetsRace s t vf x a.toNat = false))
  ∧ ((∀ (s : State) (o : MOp) (e : Trap), ((curTh s).mq.filter fun q => decide (s.mer < q.f)).length < 4 →
       let th := curTh s
       let c (k : MKind) : MCmd := { id := 0, kind := k, acc := o.acc, m0 := 0, last := 0, f := 0 }
       let mm (zero sparse : Bool) : MCmd :=
         { c (.mma zero sparse) with
           addrA := (rdS th o.a).toNat, addrB := (rdS th o.b).toNat, nb := (rdS th o.n).toNat
           srcA := o.sa, srcB := o.sb, tb := o.fl % 2 == 1 }
       let at_ (k : MKind) : MCmd := { c k with addrA := (rdS th o.a).toNat, srcA := o.sa }
       let bad (i : Instr) (q : MCmd) : Prop := checkCmd s s.cur (queuedAs s q) = some e → takes i s e
       bad (.mma o) (mm false false) ∧ bad (.mmaz o) (mm true false) ∧ bad (.mmas o) (mm false true)
       ∧ bad (.mmasz o) (mm true true) ∧ bad (.mdrain o) { at_ .mdrain with fn := o.fn }
       ∧ bad (.mldacc o) (at_ .mldacc) ∧ bad (.mstacc o) (at_ .mstacc))
     ∧ ∀ (s : State) (t : Nat) (q : MCmd), q.m0 < q.f →
       let vf := (getTh s t).vf
       let ps := readPlanes q ++ writePlanes q
       let counted : Prop := (∃ z sp, q.kind = .mma z sp) → q.nb ≠ 0 ∧ q.nb ≤ 256
       let mis (p : Plane) : Prop := p.base % 64 ≠ 0
       let out (p : Plane) : Prop := (if p.src = 4 then weightSize s vf (dieOf t) else localSize s vf) < p.base + p.bytes
       let busy (b : Nat) : Prop := ∃ c, q.m0 ≤ c ∧ c < q.f ∧ 1024 * b ≤ c % 65536 ∧ c % 65536 ≤ 1024 * b + 255
       let cold (p : Plane) (a : Nat) : Prop := p.src = 4 ∧ p.base ≤ a ∧ a < p.base + p.bytes ∧ busy (a / 8192 % 64)
       let races (p : Plane) : Prop := (raceHit s t p).isSome = true
       let r := checkCmd s t q
       (¬ counted → r = some { code := 0x0A, unit := 3, addr := q.nb })
       ∧ (counted → (∃ p ∈ ps, mis p) → ∃ p ∈ ps, mis p ∧ r = some { code := 0x04, unit := 3, addr := p.base, d6 := p.code })
       ∧ (counted → (∀ p ∈ ps, ¬ mis p) → (∃ p ∈ ps, out p) →
         ∃ p ∈ ps, out p ∧ r = some { code := 0x03, unit := 3, addr := p.base, d6 := p.code })
       ∧ (counted → (∀ p ∈ ps, ¬ mis p ∧ ¬ out p) → (∃ p ∈ ps, ∃ a, cold p a) →
         ∃ p ∈ ps, ∃ a, cold p a ∧ r = some { code := 0x07, unit := 3, addr := a, d5 := a / 8192 % 64, d6 := p.code })
       ∧ (counted → (∀ p ∈ ps, ¬ mis p ∧ ¬ out p ∧ ∀ a, ¬ cold p a) → (∃ p ∈ ps, races p) →
         ∃ p ∈ ps, ∃ h, raceHit s t p = some h ∧ r = some { code := 0x05, unit := 3, addr := h.1, d5 := h.2, d6 := p.code })
       ∧ (r = none ↔ counted ∧ ∀ p ∈ ps, ¬ mis p ∧ ¬ out p ∧ (∀ a, ¬ cold p a) ∧ ¬ races p))
  ∧ ((∀ (s : State) (o : LIOp) (e : Trap),
       let th := curTh s
       let ea := (rdS th o.a).toInt + simm 25 o.imm
       let n := if o.sz = 4 then 64 else 2 ^ o.sz
       let own (m : Nat) (wr : Bool) : Access0 :=
         { n := m, die := dieOf s.cur, core := coreOf s.cur, cycle := s.mer, rd := !wr, wr := wr }
       let peer (m : Nat) (wr : Bool) : Access0 :=
         { n := m, die := dieOf s.cur, core := coreOf s.cur / 4 * 4 + ea.toNat / 2 ^ 18 % 4, cycle := s.mer + 4, rd := !wr
           wr := wr, poisonNow := false }
       let fails (x : Access0) (lim : Int) (i : Instr) : Prop := checkAcc s s.cur x lim [(0, ea)] = some e → takes i s e
       let size : Int := localSize s th.vf
       fails (own n false) size (.ldL o) ∧ fails (own 64 false) size (.vld o)
       ∧ fails (own n true) size (.stL o) ∧ fails (own 64 true) size (.vst o)
       ∧ fails (peer n false) (2 ^ 20) (.pld o) ∧ fails (peer 64 false) (2 ^ 20) (.vldp o)
       ∧ fails (peer n true) (2 ^ 20) (.pst o)
       ∧ (checkWeight s s.cur n ea = some e → takes (.ldp o) s e)
       ∧ (checkWeight s s.cur 64 ea = some e → takes (.vldw o) s e))
     ∧ (∀ (s : State) (o : LAOp) (e : Trap),
       let th := curTh s
       let n := if o.sz = 4 then 64 else 2 ^ o.sz
       let lanes (wr : Bool) (i : Instr) (addr : Nat → Int) : Prop :=
         checkAcc s s.cur { n := n, die := dieOf s.cur, core := coreOf s.cur, cycle := s.mer, rd := !wr, wr := wr }
           (localSize s th.vf) (laneAddrs th o addr) = some e → takes i s e
       let stride (k : Nat) : Int := (rdS th o.a).toInt + k * (rdS th o.b).toInt
       let gather (k : Nat) : Int := (rdS th o.a).toInt + (n * laneAt (8 * n) (rdV th o.b).toNat k : Nat)
       lanes false (.vlds o) stride ∧ lanes true (.vsts o) stride ∧ lanes false (.vgath o) gather ∧ lanes true (.vscat o) gather
       ∧ (predOn th o.p = true →
         let a := (rdS th o.a).toNat
         let rmw (m : Nat) (rd : Bool) (i : Instr) : Prop :=
           checkAcc s s.cur { n := m, die := dieOf s.cur, core := coreOf s.cur, cycle := s.mer, rmw := true, rd := rd, wr := true
                              exempt := true } (localSize s th.vf) [(0, (a : Int))] = some e → takes i s e
         let full := !mapGet false s.empties (localWord s th.vf (dieOf s.cur) (coreOf s.cur) (a / 8))
         rmw n true (.atadd o) ∧ rmw n true (.atmin o) ∧ rmw n true (.atmax o) ∧ rmw n true (.atand o) ∧ rmw n true (.ator o)
         ∧ rmw n true (.atxor o) ∧ rmw n true (.atswp o) ∧ rmw n true (.atcas o)
         ∧ rmw 8 full (.takeW o) ∧ rmw 8 false (.putW o) ∧ rmw 8 false (.emptyw o)
         ∧ (checkAcc s s.cur { n := 8, die := dieOf s.cur, core := coreOf s.cur, cycle := s.mer, rd := false, wr := false }
             (localSize s th.vf) [(0, (a : Int))] = some e → takes (.fullq o) s e)))
     ∧ ∀ (s : State) (t n : Nat) (a : Int), 0 < n →
       let vf := (getTh s t).vf
       let size : Int := weightSize s vf (dieOf t)
       let adr := (BitVec.ofInt 64 a).toNat
       let bank := a.toNat / 8192 % 64
       let fresh : Prop := s.mer % 65536 < 1024 * bank ∨ 1024 * bank + 255 < s.mer % 65536
       let clean : Prop := ∀ w ∈ localWords a.toNat n, poisoned s (weightAddr s vf (dieOf t) (8 * w) / 8) = false
       let r := checkWeight s t n a
       (a % n ≠ 0 → r = some { code := 0x04, unit := 4, addr := adr })
       ∧ (a % n = 0 → a < 0 ∨ size < a + n → r = some { code := 0x03, unit := 4, addr := adr })
       ∧ (a % n = 0 → 0 ≤ a → a + n ≤ size → ¬ fresh → r = some { code := 0x07, unit := 4, addr := adr, d5 := bank })
       ∧ (a % n = 0 → 0 ≤ a → a + n ≤ size → fresh → ¬ clean → r = some { code := 0x09, unit := 4, addr := adr })
       ∧ (a % n = 0 → 0 ≤ a → a + n ≤ size → fresh → clean → r = none))
  ∧ (∀ (s : State) (t : Nat) (x : Access0) (lim : Int) (lanes : List (Nat × Int)),
       let vf := (getTh s t).vf
       let adr (a : Int) : Nat := (BitVec.ofInt 64 a).toNat
       let mis (a : Int) : Bool := decide (a % x.n ≠ 0)
       let out (a : Int) : Bool := decide (a < 0 ∨ lim ≤ a ∨ localSize s vf < a.toNat % 2 ^ 18 + x.n)
       (∀ k a, lanes.find? (fun y => mis y.2) = some (k, a) →
         checkAcc s t x lim lanes = some { code := 0x04, cause := k, unit := 4, addr := adr a })
       ∧ (∀ k a, (∀ y ∈ lanes, mis y.2 = false) → lanes.find? (fun y => out y.2) = some (k, a) →
         checkAcc s t x lim lanes = some { code := 0x03, cause := k, unit := 4, addr := adr a })
       ∧ ((∀ y ∈ lanes, mis y.2 = false ∧ out y.2 = false) →
         let off (a : Int) : Nat := a.toNat % 2 ^ 18
         let rmw (y : Nat × Int) : Bool := meetsRmw s vf x (off y.2)
         let bad (y : Nat × Int) : Bool := x.rd && x.poisonNow && (accWords s vf x (off y.2)).any (poisoned s)
         let race (y : Nat × Int) : Bool := meetsRace s t vf x (off y.2)
         let r := checkAcc s t x lim lanes
         (∀ k a, lanes.find? rmw = some (k, a) →
           ∃ e, r = some e ∧ e.code = 0x06 ∧ e.unit = 4 ∧ e.addr = off a ∧ e.d5 = rmwBank s vf x (off a))
         ∧ (∀ k a, (∀ y ∈ lanes, rmw y = false) → lanes.find? bad = some (k, a) → r = some { code := 0x09, unit := 4, addr := adr a })
         ∧ (∀ k a, (∀ y ∈ lanes, rmw y = false ∧ bad y = false) → lanes.find? race = some (k, a) →
           ∃ e, r = some e ∧ e.code = 0x05 ∧ e.cause = k ∧ e.unit = 4 ∧ e.addr = off a)
         ∧ ((∀ y ∈ lanes, rmw y = false ∧ bad y = false ∧ race y = false) → r = none)))

/-- 08 R211, R212, R214, R215, R218, 02 R55, 07 R188, R204: loads whose checks pass: local ones land one turn later, strided
and gathered ones as many turns later as their bank cost, weight-store ones four, their words corrected; FULLQ reads the
word's full bit. Stores whose checks pass write their bytes in the cycle of issue, a multi-lane store in ascending lane
order. -/
def Obligations.LoadsAndStores : Prop :=
  ((∀ (s : State) (o : LIOp),
       let th := curTh s
       let ea := (rdS th o.a).toInt + simm 25 o.imm
       let n := if o.sz = 4 then 64 else 2 ^ o.sz
       let loc (m : Nat) : Access0 := { n := m, die := dieOf s.cur, core := coreOf s.cur, cycle := s.mer, rd := true, wr := false }
       let bytes (m : Nat) : Nat := rdLocal s th.vf (dieOf s.cur) (coreOf s.cur) ea.toNat m
       let weight (m : Nat) : Nat := rdMem s.mem (weightAddr s th.vf (dieOf s.cur) ea.toNat) m
       let corrected (m : Nat) : State := (localWords ea.toNat m).foldl (fun q w =>
         correctWord q (dieOf s.cur * 256 + coreOf s.cur) (weightAddr s th.vf (dieOf s.cur) (8 * w) / 8)) s
       (checkAcc s s.cur (loc n) (localSize s th.vf) [(0, ea)] = none →
         exec (.ldL o) s = .next (pushS (noteAcc s s.cur (loc n) ea.toNat) o.d (BitVec.ofNat 64 (bytes n)) 1))
       ∧ (checkAcc s s.cur (loc 64) (localSize s th.vf) [(0, ea)] = none →
         exec (.vld o) s = .next (pushV (noteAcc s s.cur (loc 64) ea.toNat) o.d (bytes 64) (2 ^ 512 - 1) 1))
       ∧ (checkWeight s s.cur n ea = none →
         exec (.ldp o) s = .next (pushS (corrected n) o.d (BitVec.ofNat 64 (weight n)) 4))
       ∧ (checkWeight s s.cur 64 ea = none →
         exec (.vldw o) s = .next (pushV (corrected 64) o.d (weight 64) (2 ^ 512 - 1) 4)))
     ∧ (∀ (s : State) (o : LAOp),
       let th := curTh s
       let n := if o.sz = 4 then 64 else 2 ^ o.sz
       let x : Access0 := { n := n, die := dieOf s.cur, core := coreOf s.cur, cycle := s.mer, rd := true, wr := false }
       let goes (i : Instr) (lanes : List (Nat × Int)) : Prop :=
         checkAcc s s.cur x (localSize s th.vf) lanes = none →
         ∃ r : VRes, exec i s
             = .next (pushV (lanes.foldl (fun q y => noteAcc q s.cur x y.2.toNat) s) o.d r.val r.mask (laneCost s th.vf lanes))
           ∧ ∀ k, k < 512 / (8 * n) →
             if laneOn (8 * n) (rdP th o.p).toNat k = true then
               laneAt (8 * n) r.mask k = 2 ^ (8 * n) - 1 ∧
               ∀ a, (k, a) ∈ lanes →
                 laneAt (8 * n) r.val k = rdLocal s th.vf (dieOf s.cur) (coreOf s.cur) a.toNat n % 2 ^ (8 * n)
             else laneAt (8 * n) r.mask k = 0
       (o.sz ≤ 3 → goes (.vlds o) (laneAddrs th o fun k => (rdS th o.a).toInt + k * (rdS th o.b).toInt)
         ∧ goes (.vgath o) (laneAddrs th o fun k => (rdS th o.a).toInt + (n * laneAt (8 * n) (rdV th o.b).toNat k : Nat)))
       ∧ (predOn th o.p = true →
         let a := (rdS th o.a).toNat
         let y : Access0 := { n := 8, die := dieOf s.cur, core := coreOf s.cur, cycle := s.mer, rd := false, wr := false }
         checkAcc s s.cur y (localSize s th.vf) [(0, (a : Int))] = none →
         exec (.fullq o) s = .next (pushS (noteAcc s s.cur y a) o.d
           (if mapGet false s.empties (localWord s th.vf (dieOf s.cur) (coreOf s.cur) (a / 8)) then 0 else 1) 1))))
  ∧ ((∀ (s : State) (o : LIOp),
       let th := curTh s
       let ea := (rdS th o.a).toInt + simm 25 o.imm
       let n := if o.sz = 4 then 64 else 2 ^ o.sz
       let acc (m : Nat) : Access0 := { n := m, die := dieOf s.cur, core := coreOf s.cur, cycle := s.mer, rd := false, wr := true }
       let put (m v : Nat) : State :=
         storeLocal (noteAcc s s.cur (acc m) ea.toNat) s.cur (dieOf s.cur) (coreOf s.cur) ea.toNat m v fun _ => 0
       (checkAcc s s.cur (acc n) (localSize s th.vf) [(0, ea)] = none → exec (.stL o) s = .next (put n (rdS th o.d).toNat))
       ∧ (checkAcc s s.cur (acc 64) (localSize s th.vf) [(0, ea)] = none →
         exec (.vst o) s = .next (put 64 (rdV th o.d).toNat)))
     ∧ (∀ (s : State) (o : LAOp),
       let th := curTh s
       let n := if o.sz = 4 then 64 else 2 ^ o.sz
       let x : Access0 := { n := n, die := dieOf s.cur, core := coreOf s.cur, cycle := s.mer, rd := false, wr := true }
       let goes (i : Instr) (lanes : List (Nat × Int)) : Prop :=
         checkAcc s s.cur x (localSize s th.vf) lanes = none →
         exec i s = .next (lanes.foldl (fun q y =>
           storeLocal (noteAcc q s.cur x y.2.toNat) s.cur (dieOf s.cur) (coreOf s.cur) y.2.toNat n
             (laneAt (8 * n) (rdV th o.d).toNat y.1) fun _ => 0) s)
       goes (.vsts o) (laneAddrs th o fun k => (rdS th o.a).toInt + k * (rdS th o.b).toInt)
       ∧ goes (.vscat o) (laneAddrs th o fun k => (rdS th o.a).toInt + (n * laneAt (8 * n) (rdV th o.b).toNat k : Nat))))

/-- 08 R211, 07 R185: after ST the bytes at its address hold the low bytes of its operand, and every other byte of memory
reads as before, when no engine's access to that word is due; no register and no flag of any thread changes. -/
def Obligations.StoreThenReadBack : Prop :=
  ∀ (s : State) (o : LIOp), Inv s → o.sz ≤ 3 →
    let th := curTh s
    let ea := (rdS th o.a).toInt + simm 25 o.imm
    let n := 2 ^ o.sz
    let w := localWord s th.vf (dieOf s.cur) (coreOf s.cur) (ea.toNat / 8)
    let x : Access0 := { n := n, die := dieOf s.cur, core := coreOf s.cur, cycle := s.mer, rd := false, wr := true }
    checkAcc s s.cur x (localSize s th.vf) [(0, ea)] = none →
    (∀ a ∈ s.wacts, a.word = w → s.mer < a.at_) →
    ∃ t, exec (.stL o) s = .next t
      ∧ rdMem t.mem (localAddr s th.vf (dieOf s.cur) (coreOf s.cur) ea.toNat) n = (rdS th o.d).toNat % 2 ^ (8 * n)
      ∧ (∀ a, a < localAddr s th.vf (dieOf s.cur) (coreOf s.cur) ea.toNat
            ∨ localAddr s th.vf (dieOf s.cur) (coreOf s.cur) ea.toNat + n ≤ a → rdByte t.mem a = rdByte s.mem a)
      ∧ t.threads = s.threads

/-- 08 R211, R212, R216, R218; 02 R66: the frame of memory at issue: no instruction changes a byte in its own cycle but ST,
VST, VSTS, VSCAT, and TAKE, PUT and EMPTYW, which change only the bytes of their lanes or of their word, when no engine's
access is due. -/
def Obligations.MemoryFrameAtIssue : Prop :=
  (∀ (i : Instr) (s t : State), (opcodeOf i).isSome = true → storesAtIssue i = false → exec i s = .next t →
    ∀ a, rdByte t.mem a = rdByte s.mem a)
  ∧ ∀ s : State, Inv s → (∀ a ∈ s.wacts, s.mer < a.at_) →
    let th := curTh s
    let at_ (a : Nat) : Nat := localAddr s th.vf (dieOf s.cur) (coreOf s.cur) a
    let only (i : Instr) (stored : Nat → Prop) : Prop :=
      ∀ t, exec i s = .next t → ∀ a, ¬stored a → rdByte t.mem a = rdByte s.mem a
    (∀ o : LIOp,
      let ea := (rdS th o.a).toInt + simm 25 o.imm
      only (.stL o) (fun a => ∃ k, k < (if o.sz = 4 then 64 else 2 ^ o.sz) ∧ a = at_ (ea.toNat + k))
      ∧ only (.vst o) (fun a => ∃ k, k < 64 ∧ a = at_ (ea.toNat + k)))
    ∧ ∀ o : LAOp,
      let n := if o.sz = 4 then 64 else 2 ^ o.sz
      let a0 := (rdS th o.a).toInt
      let lanes (f : Nat → Int) (a : Nat) : Prop := ∃ y ∈ laneAddrs th o f, ∃ k, k < n ∧ a = at_ (y.2.toNat + k)
      let word (a : Nat) : Prop := 8 * localWord s th.vf (dieOf s.cur) (coreOf s.cur) ((rdS th o.a).toNat / 8) ≤ a
        ∧ a < 8 * localWord s th.vf (dieOf s.cur) (coreOf s.cur) ((rdS th o.a).toNat / 8) + 8
      only (.vsts o) (lanes fun k => a0 + k * (rdS th o.b).toInt)
      ∧ only (.vscat o) (lanes fun k => a0 + (n * laneAt (8 * n) (rdV th o.b).toNat k : Nat))
      ∧ only (.takeW o) word ∧ only (.putW o) word ∧ only (.emptyw o) word

/-- 08 R214, 07 R188: a peer access whose checks pass is a request that reaches the bank of the core of the cluster that
bits 19:18 of its operand name four cycles after issue; nothing else changes at issue. -/
def Obligations.PeerAccessesLeave : Prop :=
  ∀ (s : State) (o : LIOp),
    let th := curTh s
    let ea := (rdS th o.a).toInt + simm 25 o.imm
    let n := if o.sz = 4 then 64 else 2 ^ o.sz
    let core := coreOf s.cur / 4 * 4 + ea.toNat / 2 ^ 18 % 4
    let acc (m : Nat) (wr : Bool) : Access0 :=
      { n := m, die := dieOf s.cur, core := core, cycle := s.mer + 4, rd := !wr, wr := wr, poisonNow := false }
    let leaves (i : Instr) (opc m : Nat) (dest : Dest) (v : Nat) (wr : Bool) : Prop :=
      checkAcc s s.cur (acc m wr) (2 ^ 20) [(0, ea)] = none →
      ∃ t, exec i s = .next t
        ∧ getOp t s.seq
          = { kind := .peer, opc := opc, vf := th.vf, die := dieOf s.cur, core := core, thread := some s.cur
              lid := some th.lid, c := s.mer, p := s.mer + 4, a := ea.toNat % 2 ^ 18, b := ea.toNat, n := v, dest := dest, size := m }
        ∧ t.agenda = s.agenda ++ [{ cycle := s.mer + 4, seq := s.seq + 1, ev := .peerBankAccess
                                    args := [s.seq, if wr then 1 else 0] }]
        ∧ t.threads = s.threads ∧ t.mem = s.mem
    leaves (.pld o) 0x09 n (.s o.d) 0 false
    ∧ leaves (.vldp o) 0x0C 64 (.v (physV th.rrb o.d)) 0 false
    ∧ leaves (.pst o) 0x0A n (.s 0) (if o.sz = 4 then (rdV th o.d).toNat else (rdS th o.d).toNat) true

/-- 08 R216 to R218, 07 R189: an atomic returns the old value one turn later and writes the new one two cycles later, its
bank reserved in between, in the access's width. TAKE of a full word gives its value and leaves it empty, or passes it on to
the first waiting putter; PUT of an empty word stores its operand and leaves it full, or serves the first taker; the other
cases park the thread behind those that wait; EMPTYW makes a full word empty. -/
def Obligations.AtomicsAndFullEmptyWords : Prop :=
  (∀ (s : State) (o : LAOp), predOn (curTh s) o.p = true →
       let th := curTh s
       let n := if o.sz = 4 then 64 else 2 ^ o.sz
       let w := 8 * n
       let a := (rdS th o.a).toNat
       let old := rdLocal s th.vf (dieOf s.cur) (coreOf s.cur) a n
       let b := (rdS th o.b).toNat % 2 ^ w
       let c := (rdS th o.c).toNat % 2 ^ w
       let x : Access0 := { n := n, die := dieOf s.cur, core := coreOf s.cur, cycle := s.mer, rmw := true, rd := true, wr := true, exempt := true }
       let less (u v : Nat) : Prop := if o.fn % 2 = 1 then u < v else intVal true w u < intVal true w v
       let swaps (i : Instr) (new : Nat) : Prop :=
         exec i s = .next (pushS
           (addWact
             (delayEngine (noteAcc s s.cur x a) (dieOf s.cur * 256 + coreOf s.cur) (physBank s th.vf (a / 8)) s.mer)
             { at_ := s.mer + 2, owner := s.cur, word := localWord s th.vf (dieOf s.cur) (coreOf s.cur) (a / 8)
               kind := .store (BitVec.ofNat 64 (new % 2 ^ w * 2 ^ (8 * (a % 8)))) ((2 ^ n - 1) * 2 ^ (a % 8)) false a })
           o.d (BitVec.ofNat 64 old) 1)
       checkAcc s s.cur x (localSize s th.vf) [(0, (a : Int))] = none →
       swaps (.atadd o) (old + b) ∧ swaps (.atand o) (old &&& b) ∧ swaps (.ator o) (old ||| b)
       ∧ swaps (.atxor o) (old ^^^ b) ∧ swaps (.atswp o) b
       ∧ (old = c → swaps (.atcas o) b) ∧ (old ≠ c → swaps (.atcas o) old)
       ∧ (less b old → swaps (.atmin o) b) ∧ (¬less b old → swaps (.atmin o) old)
       ∧ (less old b → swaps (.atmax o) b) ∧ (¬less old b → swaps (.atmax o) old))
  ∧ (∀ (s : State) (o : LAOp), predOn (curTh s) o.p = true →
       let th := curTh s
       let a := (rdS th o.a).toNat
       let v := rdS th o.b
       let w := localWord s th.vf (dieOf s.cur) (coreOf s.cur) (a / 8)
       let empty := mapGet false s.empties w
       let q := mapGet [] s.feq w
       let x (rd : Bool) : Access0 :=
         { n := 8, die := dieOf s.cur, core := coreOf s.cur, cycle := s.mer, rmw := true, rd := rd, wr := true, exempt := true }
       let s1 (rd : Bool) : State :=
         delayEngine (noteAcc s s.cur (x rd) a) (dieOf s.cur * 256 + coreOf s.cur) (physBank s th.vf (a / 8)) s.mer
       let ok (rd : Bool) : Prop := checkAcc s s.cur (x rd) (localSize s th.vf) [(0, (a : Int))] = none
       let got : State := pushS (s1 true) o.d (BitVec.ofNat 64 (rdMem s.mem (8 * w) 8)) 1
       let put (y : State) : State := putWord (flushWord y w s.mer) w v.toNat false
       (ok true → empty = false → q = [] → exec (.takeW o) s = .next (setEmptyW got w true))
       ∧ (∀ p rest, ok true → empty = false → q = p :: rest → exec (.takeW o) s = .next (servePutter got w p rest))
       ∧ (ok false → empty = true → exec (.takeW o) s = .next (addPark (setFeq (s1 false) w
           (getFeq (s1 false) w ++ [{ t := s.cur, taker := true, dest := o.d, val := 0 }])) s.cur (.take w)))
       ∧ (ok false → empty = true → q = [] → exec (.putW o) s = .next (setEmptyW (put (s1 false)) w false))
       ∧ (∀ p rest, ok false → empty = true → q = p :: rest →
           exec (.putW o) s = .next (serveTaker (put (s1 false)) w p rest v))
       ∧ (ok false → empty = false → exec (.putW o) s = .next (addPark (setFeq (s1 false) w
           (getFeq (s1 false) w ++ [{ t := s.cur, taker := false, dest := 0, val := v }])) s.cur (.put w)))
       ∧ (ok false → empty = false → q = [] → exec (.emptyw o) s = .next (setEmptyW (s1 false) w true))
       ∧ (∀ p rest, ok false → empty = false → q = p :: rest → exec (.emptyw o) s = .next (servePutter (s1 false) w p rest))
       ∧ (ok false → empty = true → exec (.emptyw o) s = .next (s1 false)))

/-- 08 R220 to R227, 10 R258: a copy with room in e0, fewer than 32 copies in flight and no failing check enters its
request; a 2-D copy reads its descriptor through the thread's port and moves NROW rows of LEN bytes, LS apart in local and
DS apart in device memory; the promise is a start not before 16 cycles from issue, the channel's end and, when an SC page is
named, the last SC promise; then the bytes at the channel's rate, 256 cycles, 64 for each page, 32 for each 8 KiB of a
weight copy, and for pages on another package 2,048 cycles, 128 for each and their bytes at the link rate; without a link
rate a free term stands for that quotient (log 61, DESIGN CHOICE). -/
def Obligations.CopiesAndPromises : Prop :=
  (∀ (s : State) (o : LAOp), predOn (curTh s) o.p = true → copyParks s s.cur = [] →
       let th := curTh s
       let a := (rdS th o.a).toNat
       let b := (rdS th o.b).toNat
       let n := (rdS th o.c).toNat
       let word (y : Nat) : Nat := localWord s th.vf (dieOf s.cur) (coreOf s.cur) (y / 8)
       let marked (y : State) (rows : List Row) : State := (rowWords rows).foldl (fun z x => markShadow z s.cur (word x) false) y
       let row : List Row := [{ loc := (a : Int), dva := b, len := n }]
       let plain (opc : Nat) : CopyReq := { opc := opc, rows := row, total := n }
       let red : CopyReq := { plain 0x25 with ty := o.fn / 64 % 16 * 4 + o.fn % 4 }
       let fits : Prop := a % 8 = 0 ∧ b % 8 = 0 ∧ n % 8 = 0 ∧ n ≤ 2 ^ 24 ∧ a + n ≤ localSize s th.vf
       let fill : CopyReq := { plain 0x26 with fill := some (rdS th o.a), loc := false }
       let cpw : CopyReq := { plain 0x24 with devRead := true, weight := true }
       (fits → raceRows s true (rowWords row) = none →
         exec (.cpin o) s = .next (issueCopy (marked s row) { plain 0x20 with devRead := true }))
       ∧ (fits → raceRows s false (rowWords row) = none →
         exec (.cpout o) s = .next (issueCopy s (plain 0x21)) ∧ exec (.cpred o) s = .next (issueCopy s red))
       ∧ (b % 8 = 0 → n % 8 = 0 → n ≤ 2 ^ 24 → exec (.cpfill o) s = .next (issueCopy s fill))
       ∧ ((getLaunch s th.lid).wload = true → a % 8 = 0 → b % 8 = 0 → n % 8 = 0 → n ≤ 2 ^ 24 →
         a + n ≤ weightSize s th.vf (dieOf s.cur) → exec (.cpw o) s = .next (issueCopy s cpw)))
  ∧ (∀ (s : State) (o : LAOp), predOn (curTh s) o.p = true → copyParks s s.cur = [] →
       let th := curTh s
       let a := (rdS th o.a).toNat
       let b := (rdS th o.b).toNat
       let c := (rdS th o.c).toNat
       let x : Access0 := { n := 16, die := dieOf s.cur, core := coreOf s.cur, cycle := s.mer, rd := true, wr := false }
       let d := rdLocal s th.vf (dieOf s.cur) (coreOf s.cur) c 16
       let nrow := d / 2 ^ 48 % 2 ^ 16
       let len := d / 2 ^ 24 % 2 ^ 24
       let ls := d % 2 ^ 24
       let ds := intVal true 64 (d / 2 ^ 64)
       let s0 := noteAcc s s.cur x c
       let rows : List Row := (List.range nrow).map fun (i : Nat) =>
         { loc := (a : Int) + (i * ls : Nat), dva := (((b : Int) + i * ds) % 2 ^ 64).toNat, len := len }
       let word (y : Nat) : Nat := localWord s0 th.vf (dieOf s.cur) (coreOf s.cur) (y / 8)
       checkAcc s s.cur x (localSize s th.vf) [(0, (c : Int))] = none → c % 16 = 0 → c + 16 ≤ localSize s th.vf →
       a % 8 = 0 → b % 8 = 0 → ls % 8 = 0 → len % 8 = 0 → ds % 8 = 0 → 0 < nrow → 0 < len → nrow * len ≤ 2 ^ 24 →
       (∀ r ∈ rows, r.loc + r.len ≤ localSize s th.vf) →
       (raceRows s0 true (rowWords rows) = none →
         exec (.cpin2 o) s = .next (issueCopy
           ((rowWords rows).foldl (fun z y => markShadow z s.cur (word y) false) s0)
           { opc := 0x22, rows := rows, total := nrow * len, devRead := true }))
       ∧ (raceRows s0 false (rowWords rows) = none →
         exec (.cpout2 o) s = .next (issueCopy s0 { opc := 0x23, rows := rows, total := nrow * len })))
  ∧ (∀ (s : State) (vf sub f r b scP extra : Nat) (pages words : List Nat) (cpw : Bool),
       let far := pages.filter fun g => remoteNow s vf sub g
       let bytes := 8 * (words.filter fun a => remoteNow s vf sub a).length
       let rate := linkRate s vf
       let p := promise s vf sub f r b scP extra pages words cpw
       let t0 := p.1
       0 < r →
       ((∃ g ∈ pages, scNow s vf sub g = true) → t0 = max (max (s.mer + 16) f) scP)
       ∧ ((∀ g ∈ pages, scNow s vf sub g = false) → t0 = max (s.mer + 16) f)
       ∧ p.2.1 = t0 + (b + r - 1) / r
       ∧ (far = [] →
         p.2.2 = p.2.1 + 256 + 64 * pages.length + if cpw then 32 * ((b + 8191) / 8192) else 0)
       ∧ (far ≠ [] →
         p.2.2 = p.2.1 + 256 + 64 * pages.length + (if cpw then 32 * ((b + 8191) / 8192) else 0)
           + (2048 + 128 * far.length + (bytes + rate - 1) / rate + extra))
       ∧ (0 < rate → linkTerm s vf sub pages = (0, s)))

/-- 02 R53; 06 R169 to R171: EPOP removes the oldest available entry of the queue that sz names and gives its value one turn
later; with none available the thread parks. MASKQ with its checks met: without a mask engine for its partition on its die
the e1 entry holds 0 and is available 16 cycles later; with one the request enters and waits for its engine. That RACE is
checked first, and that a MASKQ refused for want of an engine leaves no shadow mark, is the model's choice (log 62, DESIGN
CHOICE). -/
def Obligations.EpopAndMaskq : Prop :=
  (∀ (s : State) (o : LAOp), predOn (curTh s) o.p = true →
       let l := replyQ (curTh s) o.sz
       (∀ r, l.find? (fun e => match e.avail with
             | some c => decide (c ≤ s.mer)
             | none => false) = some r →
         exec (.epop o) s = .next (modCur (pushS s o.d (BitVec.ofNat 64 r.val) 1) fun x =>
           { setReplyQ x o.sz (l.erase r) with popped := x.popped ++ [(o.sz, r)] }))
       ∧ ((∀ r ∈ l, ∀ c, r.avail = some c → s.mer < c) → exec (.epop o) s = .next (addPark s s.cur .replyEmpty)))
  ∧ (∀ (s : State) (o : LAOp), predOn (curTh s) o.p = true → (curTh s).e1.length < 8 →
       let th := curTh s
       let die := dieOf s.cur
       let a := (rdS th o.a).toNat
       let b := (rdS th o.b).toNat
       let c := (rdS th o.c).toNat
       let v := 64 * (o.fn * 8 + o.sz + 1)
       let rows : List Row := [{ loc := (a : Int), dva := 0, len := v / 8 + 16 }]
       a % 64 = 0 → b % 8 = 0 → c % 64 = 0 → v / 8 + 16 ≤ 2 ^ 24 → a + v / 8 + 16 ≤ localSize s th.vf →
       raceRows s true (rowWords rows) = none →
       (maskEngines s th.vf die = [] →
         exec (.maskq o) s = .next (sched
           (modCur s fun y => { y with e1 := y.e1 ++ [{ val := 0, avail := some (s.mer + 16), op := 0, region := y.region }] })
           (s.mer + 16) .replyEntryAvailable [s.cur, 1]))
       ∧ (maskEngines s th.vf die ≠ [] →
         let s1 := (rowWords rows).foldl
           (fun y x => markShadow y s.cur (localWord s th.vf die (coreOf s.cur) (x / 8)) false) s
         let k := mapGet 0 s1.free th.vf
         let x := addOp (draw s1 th.vf 0 0).2
           { kind := .mask, recNo := k, opc := 0x28, vf := th.vf, sub := (getVf s th.vf).cursub, die := die, core := coreOf s.cur
             thread := some s.cur, lid := some th.lid, region := th.region, instar := (getVf s th.vf).instar, c := s.mer
             a := a, b := b, size := c, ty := v, p := 2 ^ 64
             parts := (rowWords rows).map fun y => { dst := localAddr s th.vf die (coreOf s.cur) y } }
         exec (.maskq o) s
           = .next (runMasks (modCur x.2 fun y => { y with e1 := y.e1 ++ [{ op := x.1, region := y.region }] }) th.vf die)))

/-- 08 R230 to R233: FENCE parks the thread only while something of its scope is open; FLUSHSIG enters a flush with its e2
entry; SIGSET enters a signal write; SIGW enters a watch and parks. A signal word that is no multiple of 8 is ALIGN,
FLUSHSIG's when funct[0] asks for one. -/
def Obligations.OrderingInstructions : Prop :=
  ∀ (s : State) (o : LAOp), predOn (curTh s) o.p = true →
    let th := curTh s
    let a := (rdS th o.a).toNat
    let b := rdS th o.b
    let me (k : OpKind) (opc : Nat) : Op :=
      { kind := k, opc := opc, vf := th.vf, sub := (getVf s th.vf).cursub, die := dieOf s.cur, core := coreOf s.cur
        thread := some s.cur, lid := some th.lid, region := th.region, instar := (getVf s th.vf).instar, c := s.mer }
    let set := addOp s { me .sigset 0x32 with b := a, p := s.mer + 1024, parts := wordWrite a b, pages := wordPage a 1 }
    let watch := addOp s
      { me .sigw 0x33 with b := a, size := b.toNat, dest := .s o.d, p := s.mer + 1024, pages := wordPage a 0 }
    let flush := addOp s
      { me .flush 0x31 with
        granted := o.fn % 2 == 1, b := a, size := b.toNat, after := coveredOps s, dies := th.homes }
    (fenceOpen s s.cur (min o.sz 4) s.seq = false → exec (.fence o) s = .next s)
    ∧ (fenceOpen s s.cur (min o.sz 4) s.seq = true →
      exec (.fence o) s = .next (addPark s s.cur (.fence (min o.sz 4) s.seq)))
    ∧ (th.e2.length < 8 → o.fn % 2 = 0 ∨ a % 8 = 0 →
      exec (.flushsig o) s = .next (flushCheck
        (modCur flush.2 fun y => { y with e2 := y.e2 ++ [{ op := flush.1, region := y.region }] }) s.cur))
    ∧ (a % 8 = 0 → exec (.sigset o) s = .next (sched set.2 s.mer .copyTranslate [set.1, 0]))
    ∧ (a % 8 = 0 →
      exec (.sigw o) s = .next (sched (addPark watch.2 s.cur (.sigw watch.1)) s.mer .copyTranslate [watch.1, 0]))
    ∧ (a % 8 ≠ 0 → takes (.sigset o) s { code := 0x04, unit := 4, addr := a }
      ∧ takes (.sigw o) s { code := 0x04, unit := 4, addr := a })
    ∧ (th.e2.length < 8 → o.fn % 2 = 1 → a % 8 ≠ 0 →
      takes (.flushsig o) s { code := 0x04, unit := 4, addr := a })
    ∧ (8 ≤ th.e2.length → exec (.flushsig o) s = .next (addPark s s.cur .replyFull))

/-- 08 R237, R238, R406: a privileged access parks its thread and enters its request: space 0 of a home in the package and
window accesses are answered after a free time, a control-space write may have a step of its own; an address no multiple of
8 is ALIGN, one of SPACE 2 or 3 or with a reserved bit LOCAL_RANGE. An access of a home on another package is answered or,
if that package does not answer, ends after 4,000,000 cycles (R237); which of the two, and the bound of 8,192 cycles on the
answer, are the model's choice (logs 42 and 11, DESIGN CHOICE). WINRD and WINWR take the selector modulo 2^20, its other
bits ignored (log 26, DESIGN CHOICE). -/
def Obligations.PrivilegedInstructionsLeave : Prop :=
  ∀ (s : State) (o : LAOp), predOn (curTh s) o.p = true →
    let th := curTh s
    let a := (rdS th o.a).toNat
    let me (opc : Nat) : Op :=
      { kind := .priv, opc := opc, vf := th.vf, sub := (getVf s th.vf).cursub, die := dieOf s.cur, core := coreOf s.cur
        thread := some s.cur, lid := some th.lid, region := th.region, instar := (getVf s th.vf).instar, c := s.mer }
    let parked (q : Op) : State := addPark (addOp s q).2 s.cur (.priv s.seq)
    let reply (q : Op) (hi : Nat) : State :=
      let d := draw (parked q) th.vf 1 hi
      sched d.2 (s.mer + d.1) .privilegedReply [s.seq, 0]
    let ld : Op :=
      { me 0x3C with a := a % 2 ^ 48, b := a, size := 0, n := (rdS th o.b).toNat % 2 ^ 12, dest := .s o.d }
    let st : Op :=
      { me 0x3D with
        a := a % 2 ^ 48, b := a, size := (rdS th o.b).toNat, n := (rdS th o.c).toNat % 2 ^ 12, dest := .s 0 }
    (a % 8 = 0 → a < 2 ^ 48 → isRemote s a = false →
      exec (.prld o) s = .next (reply ld 4096) ∧ exec (.prst o) s = .next (reply st 4096))
    ∧ (a % 8 = 0 → a < 2 ^ 48 → isRemote s a = true →
      let far (q : Op) : State :=
        let f := draw (parked q) th.vf 0 1
        let d := draw f.2 th.vf 1 8192
        if f.1 = 1 then sched f.2 (s.mer + 4000000) .privilegedUnreachableTimeout [s.seq]
        else sched d.2 (s.mer + d.1) .privilegedReply [s.seq, 0]
      exec (.prld o) s = .next (far ld) ∧ exec (.prst o) s = .next (far st))
    ∧ (a % 8 = 0 → a / 2 ^ 62 = 1 → a / 2 ^ 48 % 2 ^ 14 = 0 →
      exec (.prld o) s = .next (reply ld 1024)
      ∧ (ctlStep (a % 2 ^ 48) (rdS th o.b).toNat = none → exec (.prst o) s = .next (reply st 1024))
      ∧ ∀ ev l lo hi, ctlStep (a % 2 ^ 48) (rdS th o.b).toNat = some (ev, l, lo, hi) →
        let d := draw (parked st) th.vf lo hi
        exec (.prst o) s = .next (sched d.2 (s.mer + d.1) ev (s.seq :: l)))
    ∧ exec (.winrd o) s
      = .next (reply { me 0x3E with a := a, b := (rdS th o.b).toNat % 2 ^ 20, size := 0, dest := .s o.d } 512)
    ∧ exec (.winwr o) s = .next (reply
        { me 0x3F with a := a, b := (rdS th o.b).toNat % 2 ^ 20, size := (rdS th o.c).toNat, dest := .s 0 } 512)
    ∧ (a % 8 ≠ 0 → takes (.prld o) s { code := 0x04, unit := 4, addr := a }
      ∧ takes (.prst o) s { code := 0x04, unit := 4, addr := a })
    ∧ (a % 8 = 0 → 2 ≤ a / 2 ^ 62 ∨ a / 2 ^ 48 % 2 ^ 14 ≠ 0 →
      takes (.prld o) s { code := 0x03, unit := 4, addr := a }
      ∧ takes (.prst o) s { code := 0x03, unit := 4, addr := a })

/-- 07 R182, R183, 08 R234 to R236: SEND to a thread of its partition posts the message; to any other target it takes
SEND_TARGET; MBCLR clears a present bit and asks for a drain at the end of the turn. -/
def Obligations.SendAndMbclr : Prop :=
  ∀ (s : State) (o : XOp), predOn (curTh s) o.p = true →
    let th := curTh s
    let a := (rdS th o.a).toNat
    (sendParks s s.cur a = false → badTarget s th.vf a = false →
      exec (.send o) s = .next (postMsg s
        { src := s.cur, lid := th.lid, dst := a, reg := o.idx, val := rdS th o.b, vf := th.vf, instar := (getVf s th.vf).instar
          cross := dieOf a != dieOf s.cur }))
    ∧ (sendParks s s.cur a = false → badTarget s th.vf a = true →
      takes (.send o) s { code := 0x0D, unit := 5, addr := a })
    ∧ (∀ v, badTarget s v a = false ↔
        a < 2 ^ 14 ∧ a / 2048 < 4 ∧ a / 8 % 256 < 144 ∧ isFirmware s (a / 2048) (a / 8 % 256) = false
        ∧ maskHas (diesOf s v) (a / 2048) = true ∧ maskHas (slotsOf s v) (a % 8) = true)
    ∧ ∃ t, exec (.mbclr o) s = .next t ∧ sameRest s t
      ∧ curTh t = { th with pres := th.pres &&& ~~~(BitVec.ofNat 32 (2 ^ o.idx)), drainDue := some (s.mer + 8) }

/-- 16 R363 to R365, R367, R368: a handle passes when it has 40 bits, names a valid view entry that grants the right, and
carries its generation: otherwise GATE_DENIED or, with only the generation wrong, GATE_STALE. GSIG parks and sends its
request; GWAIT loses nothing when the die's mirror meets the threshold and parks otherwise; GPOLL compares; GREAD adds an e3
entry and sends its request, parks with e3 full, and takes the fault of its handle. The two drawn legs of GREAD, up to 2,048
cycles together, are the model's own bound (log 11, DESIGN CHOICE). A GSIG reaches the gate unit no earlier than its
thread's last access (R247). -/
def Obligations.GateInstructionsAndHandles : Prop :=
  (∀ (s : State) (vf h right : Nat),
       let v := viewOf s vf h
       (checkHandle s vf h right = none ↔
         h < 2 ^ 40 ∧ v.valid = true ∧ maskHas v.rights right = true ∧ h / 2 ^ 8 % 2 ^ 32 = v.gen)
       ∧ (∀ e, checkHandle s vf h right = some e →
         e.unit = 5 ∧ e.addr = h
         ∧ (e.code = 0x0C ↔ h < 2 ^ 40 ∧ v.valid = true ∧ maskHas v.rights right = true ∧ h / 2 ^ 8 % 2 ^ 32 ≠ v.gen)
         ∧ (e.code = 0x0B ∨ e.code = 0x0C)))
  ∧ (∀ (s : State) (o : XOp), predOn (curTh s) o.p = true →
       let th := curTh s
       let h := (rdS th o.a).toNat
       let b := (rdS th o.b).toNat
       let g := (viewOf s th.vf h).index
       let m := mapGet 0 s.mirrors (dieOf s.cur * 4096 + g)
       let me (k : OpKind) : Op :=
         { kind := k, opc := 0x10, vf := th.vf, sub := (getVf s th.vf).cursub, die := dieOf s.cur, core := coreOf s.cur
           thread := some s.cur, lid := some th.lid, region := th.region, instar := (getVf s th.vf).instar, c := s.mer
           a := g, b := h, recNo := th.pc }
       let sig := addOp s { me .gsig with after := releaseCover s, size := (getGate s g).gen }
       let wait := addOp s { me .gwait with size := b }
       let w := draw s th.vf 1 1024
       let rd := addOp w.2 { me .gread with p := s.mer + w.1, result := (getGate s g).counter }
       (checkHandle s th.vf h 0 = none →
         let d := draw (addPark sig.2 s.cur (.gate sig.1)) th.vf 1 1024
         exec (.gsig o) s = .next (sched d.2 (max (s.mer + d.1) (accessEnd s s.cur)) .gateSignalRequest [sig.1]))
       ∧ (checkHandle s th.vf h 1 = none →
         (b ≤ m → exec (.gwait o) s = .next s ∧ givesS (.gpoll o) s o.d 1 1)
         ∧ (m < b → givesS (.gpoll o) s o.d 0 1
           ∧ exec (.gwait o) s
             = .next (addPark { wait.2 with gwaiters := wait.2.gwaiters ++ [wait.1] } s.cur (.gate wait.1))))
       ∧ (checkHandle s th.vf h 2 = none → th.e3.length < 8 →
         let d := draw (modCur rd.2 fun y => { y with e3 := y.e3 ++ [{ op := rd.1, region := y.region }] }) th.vf w.1 2048
         exec (.gread o) s = .next (sched d.2 (s.mer + d.1) .greadReturn [rd.1]))
       ∧ (8 ≤ th.e3.length → exec (.gread o) s = .next (addPark s s.cur .replyFull))
       ∧ (∀ e, checkHandle s th.vf h 2 = some e → th.e3.length < 8 → takes (.gread o) s e)
       ∧ (∀ e, checkHandle s th.vf h 0 = some e → takes (.gsig o) s e)
       ∧ (∀ e, checkHandle s th.vf h 1 = some e → takes (.gwait o) s e ∧ takes (.gpoll o) s e))

/-- 01 R7; 02 R36, R53 to R66; 11 R282, R289: a step whose next choice is the turn of a thread that may issue fetches the 32
bytes at its pc, and when they decode to a bundle without a park before it, a deferred POISON or an overdue safe point, it
runs the slots and ends the turn; a slot that faults gives the exception instead. -/
def Obligations.StepIssuesTheDecodedBundle : Prop :=
  ∀ (s : State) (d : Due) (t : Nat) (b : Bundle),
    nextDue s = some d → d.pick = .turn t → slotidOk t = true →
    let r := ready s d
    let s1 := modTh { r with cur := t } t fun th => drainDue (landUpto th r.mer) r.mer
    let th := getTh s1 t
    th.st = .running ∨ th.st = .parked → th.exiting = false → th.stopAsked = false →
    th.pc < (getLaunch s1 th.lid).klen →
    decodeFor s1 t (rdMem s1.mem (istoreBase th.lid (dieOf t) (coreOf t) + 32 * th.pc) 32) = .ok b →
    beforeParks s1 t b = [] →
    let s2 := reachBundle s1 t b
    let th2 := getTh s2 t
    let s3 := if b.sp then modTh s2 t fun y =>
        { y with latA := 0, latB := 0, latC := 0, parity := y.parity.filter fun p => p < 256 || 258 < p } else s2
    b.sp = false ∨ isStopping s2 th2.vf = false → dueDeferred s2 t = none →
    b.sp = true ∨ th2.spcnt.toNat < (getLaunch s2 th2.lid).spmax →
    exec .bundleIssue r = step s
    ∧ (∀ s4, runSlots b s3 = .ok s4 →
        step s = .next (endTurn b th2.br (bankCost th2 b + strideCost s2 t b.sL) s4))
    ∧ ∀ e, runSlots b s3 = .error e → step s = .next (raiseTrap s2 e)

/-- 02 R57, R66: a bundle that holds one instruction has the effect of that instruction alone, and an instruction alone
answers with its effect or takes its exception; a step carries out exactly the next choice, and with none a cycle passes.
What the next choice is among steps of one cycle (log 4) and that a step with nothing due advances MER by one cycle (log 6)
are the model's choices (DESIGN CHOICE). -/
def Obligations.OneInstructionBundles : Prop :=
  (∀ (i : Instr) (s : State), (opcodeOf i).isSome = true → (∀ o, i ≠ .syncD o) →
    parityBad (curTh s) (usesOf i) (slotOn (curTh s) i) = none → runSlots (bundleOf i) s = slotEff i s)
  ∧ (∀ (i : Instr) (s t : State), (opcodeOf i).isSome = true → (∀ o, i ≠ .trap o) → (∀ o, i ≠ .brkpt o) →
    slotEff i s = .ok t → exec i s = .next t)
  ∧ (∀ (i : Instr) (s : State) (e : Trap), (opcodeOf i).isSome = true → slotEff i s = .error e → takes i s e)
  ∧ (∀ s, exec .nop s = .next s)
  ∧ (∀ (s : State) (d : Due), nextDue s = some d → step s = exec (pickInstr d.pick) (ready s d))
  ∧ ∀ s : State, nextDue s = none → step s = .next (passTo s (s.mer + 1))

/-- 02 R2, R20, R36, R42 to R49, R55, R62 to R65; 11 R282, R287: a bundle issue of no thread context stops (the model's own
fault); one past the kernel or of a bundle that decode refuses takes LOCAL_RANGE, ILLEGAL_BUNDLE or PRIVILEGE with the cause
and the slot, after its SP bit has made it a reached safe point; results that are due land first. That a turn past the
kernel has ADDR = K and UNIT 0 is the model's (log 52, DEDUCED). Decode refuses the encodings of causes 2 to 5, two slots
that write one register 6, a branch, RESUME or safe point in a delay slot 7, SP with a hold bit or with SPX past the table
8, a declined feature 9, the M slot on a firmware core 10, and a privileged instruction on a user core 11; the first place
in the order header, S, V, M, L, X is reported. Cause 9 is not raised on a firmware core (log 26, DESIGN CHOICE), and cause
8 looks at the raw hold bits of a V slot that fails decoding (log 19, DEDUCED). -/
def Obligations.BundleIssueRefusals : Prop :=
  (∀ s : State,
       let t := argN s 0
       let s1 := modTh { s with cur := t } t fun th => drainDue (landUpto th s.mer) s.mer
       let th := getTh s1 t
       let w := rdMem s1.mem (istoreBase th.lid (dieOf t) (coreOf t) + 32 * th.pc) 32
       (slotidOk t = false → exec .bundleIssue s = .fault (.noContext t))
       ∧ (slotidOk t = true → th.st = .running ∨ th.st = .parked → th.exiting = false → th.stopAsked = false →
         ((getLaunch s1 th.lid).klen ≤ th.pc →
           exec .bundleIssue s = .next (raiseTrap s1 { code := 0x03, addr := (getLaunch s1 th.lid).klen }))
         ∧ ∀ x, th.pc < (getLaunch s1 th.lid).klen → decodeFor s1 t w = .error x →
           exec .bundleIssue s = .next (raiseTrap (reachBad s1 t w) (rejectTrap w x))
           ∧ (rejectTrap w x).code = (if x.cause = 11 then 0x02 else 0x01) ∧ (rejectTrap w x).cause = x.cause
           ∧ (rejectTrap w x).unit = x.place
           ∧ (bitsAt w 254 1 = 1 → th.stub = false → th.reached = false →
               (getTh (reachBad s1 t w) t).reached = true ∧ (getTh (reachBad s1 t w) t).ckpt.pc = th.pc)))
  ∧ ((∀ (i : Instr) (k op : Nat) (sl : Slot), inWidth i = true → opcodeOf i = some (sl, op) → slotCause i = some k →
       decode (bytesOfNat 32 (encode i)) = .error { place := slotUnit sl, cause := k })
     ∧ (∀ o : AOp, o.c = 0 → o.fn = 0 → (slotCause (.add o) = some 3 ↔ 32 ≤ o.d))
     ∧ (∀ o : KOp, slotCause (.liK o) = some 3 ↔ 32 ≤ o.d)
     ∧ (∀ o : IOp, (o.a = 0 → (slotCause (.movc o) = some 5 ↔ o.d < 32 ∧ 13 ≤ o.imm))
       ∧ (o.d = 0 → (slotCause (.movtc o) = some 5 ↔ o.imm < 2 ∨ 7 ≤ o.imm)))
     ∧ (∀ o : VOp, o.hold = 0 → o.c = 0 → o.fn = 0 →
       (slotCause (.vadd o) = some 3 ↔ 48 ≤ o.d ∨ 48 ≤ o.a ∨ 48 ≤ o.b)
       ∧ (slotCause (.vadd o) = some 4 ↔ (o.d < 48 ∧ o.a < 48 ∧ o.b < 48) ∧ (11 ≤ o.ty ∨ o.ty < 8 ∧ o.rm ≠ 0))
       ∧ (slotCause (.pand o) = some 3 ↔ o.d = 0 ∨ 8 ≤ o.d ∨ 8 ≤ o.a ∨ 8 ≤ o.b)
       ∧ (slotCause (.vcmpeq o) = some 3 ↔ o.d = 0 ∨ 8 ≤ o.d ∨ 48 ≤ o.a ∨ 48 ≤ o.b)
       ∧ (o.b = 0 → (slotCause (.vrcp o) = some 4 ↔ (o.d < 48 ∧ o.a < 48) ∧ (o.ty < 8 ∨ 11 ≤ o.ty ∨ o.rm ≠ 0))))
     ∧ (∀ o : LIOp, (slotCause (.ldL o) = some 4 ↔ o.d < 32 ∧ 4 ≤ o.sz) ∧ (slotCause (.vld o) = some 4 ↔ o.d < 48 ∧ o.sz ≠ 4)
       ∧ (slotCause (.vld o) = some 3 ↔ 48 ≤ o.d))
     ∧ (∀ o : LAOp, o.a = 0 → o.b = 0 → o.c = 0 → o.fn = 0 → (slotCause (.epop o) = some 4 ↔ o.d < 32 ∧ 4 ≤ o.sz))
     ∧ ∀ (s : State) (t w : Nat),
       let th := getTh s t
       let delay : Prop := th.hist1 = true ∨ th.hist2 = true
       let user : Prop := isFirmware s (dieOf t) (coreOf t) = false
       let held : Prop := bitsAt w 184 8 ≠ 0 ∧ bitsAt w 154 3 ≠ 0
       let spx := bitsAt w 244 10
       (∀ k, headerCause s t w = some k → decodeFor s t w = .error { place := 0, cause := k })
       ∧ (headerCause s t w = some 2 ↔ bitsAt w 240 4 ≠ 0 ∨ (bitsAt w 254 1 = 0 ∧ spx ≠ 0))
       ∧ (bitsAt w 240 4 = 0 → bitsAt w 254 1 = 1 →
         (headerCause s t w = some 7 ↔ delay)
         ∧ (headerCause s t w = some 8 ↔
           ¬delay ∧ (th.stub = true ∨ held ∨ (getLaunch s th.lid).sptab.length ≤ spx)))
       ∧ (headerCause s t w = none →
         (∀ e, checkSlot s t w .S [] = .error e → decodeFor s t w = .error e)
         ∧ ∀ a, checkSlot s t w .S [] = .ok a →
           (∀ e, checkSlot s t w .V [a] = .error e → decodeFor s t w = .error e)
           ∧ ∀ b, checkSlot s t w .V [a] = .ok b →
             (∀ e, checkSlot s t w .M [a, b] = .error e → decodeFor s t w = .error e)
             ∧ ∀ c, checkSlot s t w .M [a, b] = .ok c →
               (∀ e, checkSlot s t w .L [a, b, c] = .error e → decodeFor s t w = .error e)
               ∧ ∀ d, checkSlot s t w .L [a, b, c] = .ok d → ∀ e, checkSlot s t w .X [a, b, c, d] = .error e →
                 decodeFor s t w = .error e)
       ∧ ∀ (sl : Slot) (prev : List Instr),
         let refused (k : Nat) : Prop := checkSlot s t w sl prev = .error { place := slotUnit sl, cause := k }
         (∀ k, decodeAt sl w = .error k → checkSlot s t w sl prev = .error k)
         ∧ ∀ i, decodeAt sl w = .ok i →
           let both : Prop := ∃ j ∈ prev, ∃ x, (usesOf i).dst = some x ∧ (usesOf j).dst = some x ∧ x ≠ (0, 0)
           let late : Prop := delay ∧ ((∃ op, opcodeOf i = some (.S, op) ∧ 0x40 ≤ op ∧ op ≤ 0x49) ∨ ∃ o, i = .resumeStub o)
           let open_ (n : Nat) : Prop := featOk s th.vf n = true
           let closed : Prop := user ∧
             ((¬open_ 1 ∧ ∃ o, i = .mmas o ∨ i = .mmasz o) ∨ (¬open_ 4 ∧ ∃ o, i = .maskq o)
               ∨ (¬open_ 5 ∧ ∃ o, i = .gsig o ∨ i = .gwait o ∨ i = .gpoll o ∨ i = .gread o))
           let priv : Prop := ∃ o, i = .prld o ∨ i = .prst o ∨ i = .winrd o ∨ i = .winwr o
           (both → refused 6) ∧ (¬both → late → refused 7) ∧ (¬both → ¬late → closed → refused 9)
           ∧ (¬both → ¬late → sl = .M → i ≠ .nop → ¬user → refused 10)
           ∧ (¬both → ¬late → user → priv → refused 11)
           ∧ (¬both → ¬late → ¬closed → ¬(sl = .M ∧ i ≠ .nop ∧ ¬user) → ¬(user ∧ priv) → checkSlot s t w sl prev = .ok i))

/-- 02 R37, R43, R59; 08 R213; 11 R271, R282, R286, R289, R293: the end of a turn: the pc moves to the next bundle, or in
the turn of the last delay slot to the target, where a rotation applies, or at once to that of a RESUME; SPCNT counts the
turn, saturating, or starts anew at a safe point; the mailbox registers read are consumed; the next turn is eight cycles on,
or later by the turns that bank and stride costs take, which enter TST.BCC, or once every result and matrix command is
complete after SW or SP; a branch to the exit index ends the thread. The costs are one less than the most distinct
registers, or words, of one bank. -/
def Obligations.EndOfTurn : Prop :=
  (∀ (s : State) (b : Bundle) (before : Option Branch),
       (curTh s).exiting = false → (curTh s).trapNow = none → (curTh s).st = .running → b.sw = false → b.sp = false →
       s.mer % 8 = s.cur % 8 → (curTh s).nextTurn ≤ s.mer + 8 →
       (∀ x, before = some x → x.left ≤ 1 → x.tgt ≠ (getLaunch s (curTh s).lid).klen) →
       (∀ x, before = none → (curTh s).br = some x → 0 < x.left) →
       let t := curTh (endTurn b before 0 s)
       let m := xMask b
       t.nextTurn = s.mer + 8
       ∧ t.st = .running
       ∧ t.pres = (if m = 0 then (curTh s).pres else (curTh s).pres &&& ~~~(BitVec.ofNat 32 m))
       ∧ t.spcnt.toNat = min ((curTh s).spcnt.toNat + 1) (2 ^ 32 - 1)
       ∧ (before = none → t.pc = (curTh s).pc + 1 ∧ t.br = (curTh s).br ∧ t.rrb = (curTh s).rrb)
       ∧ (∀ x, before = some x → 1 < x.left →
           t.pc = (curTh s).pc + 1 ∧ t.br = some { x with left := x.left - 1 } ∧ t.rrb = (curTh s).rrb)
       ∧ ∀ x, before = some x → x.left ≤ 1 → t.pc = x.tgt ∧ t.br = none ∧ t.rrb = x.rot.getD (curTh s).rrb)
  ∧ (∀ (s : State) (b : Bundle) (before : Option Branch) (extra : Nat),
       let th := curTh s
       let slot := s.cur % 8
       let t := curTh (endTurn b before extra s)
       let klen := (getLaunch s th.lid).klen
       let goesOn : Prop := (∀ x, before = some x → x.left ≤ 1 → x.tgt ≠ klen)
         ∧ ∀ x, before = none → th.br = some x → 0 < x.left
       th.trapNow = none → s.mer % 8 = slot → th.nextTurn ≤ s.mer + 8 →
       (th.exiting = false → goesOn → th.st = .running → th.parks = [] →
         (0 < extra → b.sw = false → b.sp = false →
           t.st = .parked ∧ t.parks = [.cost (s.mer + 8 * (1 + extra))] ∧ t.nextTurn = s.mer + 8 * (1 + extra)
           ∧ (th.pend = [] → let x := landUpto t (s.mer + 8)
             x.tst.toNat % 2 ^ 32 = min (th.tst.toNat % 2 ^ 32 + extra) (2 ^ 32 - 1) ∧ x.tst.toNat / 2 ^ 32 = th.tst.toNat / 2 ^ 32))
         ∧ (extra = 0 → b.sw = true ∨ b.sp = true →
           let busy : Prop := (∃ p ∈ th.pend, s.mer < p.due) ∨ (∃ q ∈ th.mq, s.mer < q.f)
             ∨ ∃ o ∈ peerLoads s s.cur, s.mer < o.c + 24
           (busy → ∃ n, t.st = .parked ∧ t.parks = [.results n] ∧ n ≤ t.nextTurn ∧ t.nextTurn % 8 = slot
             ∧ t.nextTurn < max (n + 8) (s.mer + 16)
             ∧ (∀ p ∈ th.pend, p.due ≤ n) ∧ (∀ q ∈ th.mq, q.f ≤ n) ∧ (∀ o ∈ peerLoads s s.cur, o.c + 24 ≤ n)
             ∧ ((∃ p ∈ th.pend, p.due = n) ∨ (∃ q ∈ th.mq, q.f = n) ∨ ∃ o ∈ peerLoads s s.cur, o.c + 24 = n))
           ∧ (¬ busy → t.st = .running ∧ t.parks = [] ∧ t.nextTurn = s.mer + 8)
           ∧ (b.sp = true → t.spcnt = 0)
           ∧ (b.sp = false → t.spcnt.toNat = min (th.spcnt.toNat + 1) (2 ^ 32 - 1))))
       ∧ (∀ x, before = some x → x.left ≤ 1 → x.tgt = klen → extra = 0 → th.st = .running → th.parks = [] →
         (nothingInFlight s s.cur = true → t.st = .exited ∧ t.parks = [])
         ∧ (nothingInFlight s s.cur = false → t.st = .parked ∧ t.exiting = true ∧ ∃ n, t.parks = [.results n]))
       ∧ (∀ x, before = none → th.br = some x → x.left = 0 → x.tgt ≠ klen → th.exiting = false →
         t.pc = x.tgt ∧ t.br = none))
  ∧ ((∀ (th : Thread) (b : Bundle),
       let read (r : Nat) : Prop := ∃ i ∈ bundleSlots b, ∃ v ∈ (usesOf i).vs, r = physV th.rrb v
       let oneBank (l : List Nat) : Prop := l.Nodup ∧ (∀ r ∈ l, read r) ∧ ∀ r ∈ l, ∀ q ∈ l, r % 6 = q % 6
       (∀ l, oneBank l → l.length ≤ bankCost th b + 1) ∧ ((∃ r, read r) → ∃ l, oneBank l ∧ l.length = bankCost th b + 1)
       ∧ ((∀ r, ¬ read r) → bankCost th b = 0))
     ∧ ∀ (s : State) (vf : Nat) (lanes : List (Nat × Int)),
       let banks := 8 * slotCount s vf
       let touched (w : Nat) : Prop := ∃ y ∈ lanes, w = y.2.toNat / 8
       let oneBank (l : List Nat) : Prop := l.Nodup ∧ (∀ w ∈ l, touched w) ∧ ∀ w ∈ l, ∀ v ∈ l, w % banks = v % banks
       1 ≤ laneCost s vf lanes ∧ (∀ l, oneBank l → l.length ≤ laneCost s vf lanes)
       ∧ (lanes ≠ [] → ∃ l, oneBank l ∧ l.length = laneCost s vf lanes) ∧ (lanes = [] → laneCost s vf lanes = 1))

/-- 02 R55, R56; 11 R285; 08 R214, R230, 07 R188, R204, R205: a sleeping thread runs from MER on; due results land; a peer
load that reaches a bank without poison lands 24 cycles after its issue, one that meets poison leaves a POISON for the next
bundle, and a peer store writes its bytes; a FENCE and a launch that waited for it look again, and single-bit errors of the
words read are corrected. A corrected error that a peer load meets counts for the thread's core and one of a peer store for
the bank's (log 73, DESIGN CHOICE), which its record names too (log 33, DESIGN CHOICE). -/
def Obligations.ThreadEventsTakeEffect : Prop :=
  ∀ s : State,
    let t := argN s 0
    let th := getTh s t
    (∀ n, th.st = .parked → th.parks = [.sleep n] → th.wasParked = [] → th.exiting = false → n ≤ s.mer →
      ∃ s', exec .sleepuWake s = .next s'
        ∧ getTh s' t = { th with st := .running, parks := [], nextTurn := max th.nextTurn s.mer }
        ∧ (∀ u, u ≠ t → getTh s' u = getTh s u) ∧ s'.mem = s.mem)
    ∧ (th.exiting = false → exec .registerResultLand s = .next (modTh s t fun x => landUpto x s.mer))
    ∧ ∀ id o, argN s 0 = id → s.ops.find? (fun e => e.1 == id) = some (id, o) → ∀ u, o.thread = some u →
      let after (x : State) : State := fenceCheck (tryLaunch x (o.lid.getD 0)) u
      let ws := (localWords o.a o.size).map (localWord s o.vf o.die o.core)
      let read := ws.foldl (fun q w => correctWord q (o.die * 256 + coreOf u) w) (delOp s id)
      (o.opc = 0x0A → exec .peerBankAccess s
        = .next (after (storeLocal (delOp s id) u o.die o.core o.a o.size o.n (threadMask s))))
      ∧ (o.opc ≠ 0x0A → (∀ w ∈ ws, poisoned s w = false) →
        let p : Pend :=
          { due := o.c + 24, seq := s.seq, dest := o.dest, val := rdLocal s o.vf o.die o.core o.a o.size
            mask := 2 ^ 512 - 1 }
        exec .peerBankAccess s = .next (after (sched (modTh { read with seq := s.seq + 1 } u fun x =>
          { x with pend := insPend x.pend p }) (o.c + 24) .registerResultLand [u])))
      ∧ (o.opc ≠ 0x0A → (getTh s u).exiting = false →
        (∃ w ∈ ws, poisoned s w = true) → exec .peerBankAccess s = .next (after (modTh read u fun x =>
          { x with deferred := x.deferred ++ [{ at_ := s.mer + 1, cause := 3, addr := o.b, unit := 4 }] })))

/-- 05 R140, R147 to R149, R151, R156, R157, R159 to R161: a command's first cycle dates its reads, or its writes of the
tile as it then stands; at its completion its entry is free, the tiles are those of its kind, and a poisoned operand leaves
a POISON. MZERO leaves zeros, MLDACC the elements it read, an MMA the chain of its K-blocks on each element (from zero for
the Z forms); the other tile keeps its elements, and drains change none. MHAD is the signs and the five stages of its rows;
a drain writes each element scaled and converted, an MX drain a block and its scale byte for each row, MDRAINV the lanes of
its row, MSTACC the elements as they are. That the UNIT of such a POISON is 3 (log 57) and that a kept -0 of a sparse
operand stays -0 (log 56) are the model's readings (DEDUCED). -/
def Obligations.MatrixEventsTakeEffect : Prop :=
  (∀ (s : State) (q : MCmd),
       let t := argN s 0
       let th := getTh s t
       let u := modTh s t (seeTile q)
       let seen := seeTile q th
       findCmd s t (argN s 1) = some q →
       (q.kind = .mdrain →
         exec .matrixCommandStart s = .next (drawWrites u t q (drainOut q (tileAll th q.acc)).1 (tileBad seen q.acc)))
       ∧ (q.kind = .mstacc →
         exec .matrixCommandStart s = .next (drawWrites u t q [packWords 32 (tileAll th q.acc)] (tileBad seen q.acc)))
       ∧ (∀ sp, q.kind = .mma true sp → exec .matrixCommandStart s = .next (drawReads (modTh u t (clearTile q.acc)) t q))
       ∧ (q.kind ≠ .mdrain → q.kind ≠ .mstacc → (∀ sp, q.kind ≠ .mma true sp) →
         exec .matrixCommandStart s = .next (drawReads u t q))
       ∧ (th.exiting = false → ∃ s', exec .matrixCommandComplete s = .next s'
         ∧ (getTh s' t).mq = th.mq.filter (fun x => x.id != q.id)
         ∧ (getTh s' t).tiles = (cmdTile s t q seen).1.tiles ∧ (getTh s' t).tbad = (cmdTile s t q seen).1.tbad
         ∧ (getTh s' t).deferred
             = th.deferred ++ (if cmdPoison seen q then [{ at_ := q.f, cause := 1, addr := q.pc, unit := 3 }] else [])
         ∧ (∀ x, x ≠ t → getTh s' x = getTh s x) ∧ s'.mem = s.mem))
  ∧ (∀ (s : State) (t : Nat) (q : MCmd) (th : Thread), getTh s t = th →
       let after := (cmdTile s t q th).1
       (∀ e, e < 1024 →
         (q.kind = .mzero → tileGet after q.acc e = 0)
         ∧ (q.kind = .mldacc → tileGet after q.acc e = planeOf s t q 6 / 2 ^ (32 * e) % 2 ^ 32)
         ∧ ∀ z sp, q.kind = .mma z sp →
           tileGet after q.acc e
             = (mmaElem q sp (planeOf s t q 0) (planeOf s t q 1) (planeOf s t q 2) (planeOf s t q 3) (planeOf s t q 4)
                 (tileGet th q.acc e) (e / 32) (e % 32)).1 % 2 ^ 32)
       ∧ (∀ acc e, e < 1024 → tileGet (clearTile q.acc th) acc e = if acc = q.acc then 0 else tileGet th acc e)
       ∧ (∀ acc e, e < 1024 → acc ≠ q.acc → tileGet after acc e = tileGet th acc e)
       ∧ ∀ acc e, q.kind = .mdrain ∨ q.kind = .mdrainv ∨ q.kind = .mstacc → tileGet after acc e = tileGet th acc e)
  ∧ (∀ (s : State) (t : Nat) (q : MCmd) (th : Thread),
       let tile (e : Nat) : Nat := tileGet th q.acc e
       let field (w : Nat) (l : List Nat) (e : Nat) : Nat := l.foldr (fun x a => x + 2 ^ 64 * a) 0 / 2 ^ (w * e) % 2 ^ w
       let fp := q.fmt.acct == 0
       let sat (n : Int) : Nat := (max (-2 ^ 31) (min (2 ^ 31 - 1) n) % 2 ^ 32).toNat
       let plus (u w : Nat) : Nat := if fp then (addF f32 false u w 0 0).1 else sat (intVal true 32 u + intVal true 32 w)
       let neg (u : Nat) : Nat := if fp then (u + 2 ^ 31) % 2 ^ 32 else sat (-intVal true 32 u)
       let stage (h : Nat) (x : Nat → Nat) (i : Nat) : Nat :=
         if i / h % 2 = 0 then plus (x i) (x (i + h)) else plus (x (i - h)) (neg (x i))
       let v (e : Nat) : FV :=
         match (if fp then valF f32 (tile e) else .fin (decide (intVal true 32 (tile e) < 0)) (intVal true 32 (tile e)).natAbs 0) with
         | .fin n m x => .fin n m (x - (q.fn / 32 % 32 : Nat))
         | y => y
       let g := q.fn % 8
       let rm := q.fn / 8 % 4
       let seed := q.fmt.mseedv
       let out := (drainOut q (tileAll th q.acc)).1
       (q.kind = .mhad → ∀ r j, r < 32 → j < 32 →
         let x (i : Nat) : Nat := if (signWord q.fn).testBit i then neg (tile (32 * r + i)) else tile (32 * r + i)
         tileGet (cmdTile s t q th).1 q.acc (32 * r + j) = stage 16 (stage 8 (stage 4 (stage 2 (stage 1 x)))) j)
       ∧ (∀ e, e < 1024 →
         (g = 0 → field 16 (out.getD 0 []) e = (roundV bf16 (v e) rm seed).1)
         ∧ (g = 1 → field 32 (out.getD 0 []) e = (roundV f32 (v e) rm seed).1)
         ∧ (g = 2 → field 8 (out.getD 0 []) e = (floatToInt true 8 (v e) rm seed).1)
         ∧ (3 ≤ g → g < 6 →
           let block := mxEncode (g - 3) ((List.range 32).map fun c => v (e / 32 * 32 + c)) rm seed
           field (if g = 3 then 8 else if g = 4 then 6 else 4) (out.getD 0 []) e = block.2.getD (e % 32) 0
           ∧ field 8 (out.getD 1 []) (e / 32) = block.1)
         ∧ field 32 (packWords 32 (tileAll th q.acc)) e = tile e)
       ∧ ∀ k, q.row < 32 →
         let lane (w : Nat) : Nat := laneAt w (drainvOut q (tileAll th q.acc)).1 k
         (g = 0 → k < 32 → lane 16 = (roundV bf16 (v (32 * q.row + k)) rm seed).1)
         ∧ (g = 1 → k < 16 → lane 32 = (roundV f32 (v (32 * q.row + k)) rm seed).1)
         ∧ (g = 2 → k < 16 → lane 32 = (roundV f32 (v (32 * q.row + 16 + k)) rm seed).1)
         ∧ (q.kind = .mdrainv → q.phys < 48 → (∀ p ∈ th.pend, p.due < q.f) →
           rdVp (landUpto (cmdTile s t q th).1 q.f) q.phys = BitVec.ofNat 512 (drainvOut q (tileAll th q.acc)).1))

/-- 07 R199, R201, R204 to R206; 08 R223, R226 to R228; 16 R357; 18 R395: the events of a request: a page is translated, or
its XLATE is reported and the request held; a device word is read, a single-bit error of its line corrected, and what a held
request has to read or write waits; a line is written at its home, for CPRED reduced with what it holds, by another package
too, whose read is answered (the answer is the model's: log 42); at the promise a copy whose parts are done is complete, and
another has missed its promise. A held request is looked at again after 256 cycles (log 28, DESIGN CHOICE), and a corrected
error that another package's read meets counts under 2^16 plus the die (log 73, DESIGN CHOICE). -/
def Obligations.RequestEventsTakeEffect : Prop :=
  (∀ s : State,
       let id := argN s 0
       let k := argN s 1
       let o := getOp s id
       (∀ g, o.pages[k]? = some g → swapped s o = false → g.pa = none →
         (∀ pa key sc, translate s o.vf o.sub g.page g.acc = .ok pa key sc → noWay s o pa = false → k + 1 = o.pages.length →
           o.kind ≠ .sigw → o.kind ≠ .nodeWait →
           let g' : PageReq := { g with pa := some pa, key := key, sc := sc }
           let s1 := modOp s id fun x => { x with pages := x.pages.set k g', held := none }
           exec .copyTranslate s = .next (schedPage (if g.acc = 0 then s1 else noteHome s1 id pa) id g'))
         ∧ (translate s o.vf o.sub g.page g.acc = .xlate → exec .copyTranslate s = .next (holdXlate s id g.page g.acc))
         ∧ ∀ r, translate s o.vf o.sub g.page g.acc = .perm r →
           exec .copyTranslate s = .next (permFail s id r g.acc (firstDva o g)))
       ∧ (∀ g v bad, id ≠ 0 → swapped s o = false → o.held = none → pageOf o (o.parts.getD k {}).src 0 = some g →
         (o.parts.getD k {}).got = false → (g.sc && scBlocked s id) = false →
         noWay s o (pagePa g (o.parts.getD k {}).src) = false →
         readLine s (pagePa g (o.parts.getD k {}).src) g.key 8 = .ok v bad →
         let pa := pagePa g (o.parts.getD k {}).src
         exec .lineRead s = .next (afterRead (modOp (sawLine s (lineKey o pa) pa) id fun x =>
           setPart x k fun q => { q with data := BitVec.ofNat 64 v, bad := bad || q.crc, got := true, at_ := s.mer }) id k))
       ∧ (∀ g, id ≠ 0 → swapped s o = false → o.held.isSome = true → pageOf o (o.parts.getD k {}).src 0 = some g →
         (o.parts.getD k {}).got = false → exec .lineRead s = .next (sched s (s.mer + 256) .lineRead [id, k]))
       ∧ (s.wacts = [] → hasOp s id = true → o.complete = false → o.kind ≠ .nodeCopy →
         (o.held = none → (∀ g ∈ o.pages, g.pa.isSome = true) → (∀ p ∈ o.parts, partDone s o p = true) →
           exec .copyComplete s = .next (finishRequest s id))
         ∧ (o.held.isSome = true ∨ (∃ g ∈ o.pages, g.pa = none) ∨ (∃ p ∈ o.parts, partDone s o p = false) →
           exec .copyComplete s = .next (modOp s id fun x => { x with missed := true }))))
  ∧ (∀ (s : State) (g : PageReq) (s2 : State) (latent : Bool),
       let id := argN s 0
       let c := (argN s 1, argN s 2)
       let o := getOp s id
       let ps := chunkParts o c
       let p := ps.headD {}
       let n := ps.foldl (fun m q => m + q.bytes) 0
       let new := ps.foldr (fun q acc => q.data.toNat + 2 ^ 64 * acc) 0
       let pa := pagePa g p.dst
       let s1 := sawPart s (lineKey o pa) pa g.key n (o.opc == 0x25)
       let held (x : State) (a key m : Nat) : Nat :=
         match readLine x a key m with
         | .ok v _ => v
         | _ => 0
       let far := argN s 1
       let key := argN s 2
       let m := argN s 3
       let red := argN s 6 == 1
       let s0 := sawPart s (2 ^ 16 + paDie far) far key m red
       (id = 0 → ∀ (x : State) (part : Bool),
         writeLine s0 far key m
             (if red then reduceBytes (argN s 7 / 4) (argN s 7 % 4) m (held s0 far key m) (argN s 4) else argN s 4)
             (argN s 5 == 1) red = .ok x part →
         exec .lineWrite s = .next (observe
           (if part then sendRec x (homeCol far) (ownerRec s far key 0x24 2 0xFF) else x) far m))
       ∧ (id = 0 → (∀ v bad, readLine s far key m = .ok v bad → exec .lineRead s
             = .next { sawPacket (sawLine s (2 ^ 16 + paDie far) far) far with
                 out := (sawLine s (2 ^ 16 + paDie far) far).out ++ [.line far v (bad || packetFails s far)] })
         ∧ (readLine s far key m = .key → exec .lineRead s = .next { s with out := s.out ++ [.line far 0 true] }))
       ∧ (id ≠ 0 → swapped s o = false → o.held = none →
       (∀ q ∈ ps, q.got = true) → pageOf o p.dst (writeAcc o) = some g → p.performed = false →
       (o.kind ≠ .sigset ∧ o.kind ≠ .flush) ∨ earlierOpen s id = false → (g.sc && scBlocked s id) = false →
       noWay s o pa = false →
       writeLine s1 pa g.key n (if o.opc = 0x25 then reduceBytes (o.ty / 4) (o.ty % 4) n (held s1 pa g.key n) new else new)
         (ps.any (·.bad)) (o.opc == 0x25) = .ok s2 latent →
       exec .lineWrite s = .next (lineDone s2 id c pa n latent)))

/-- 06 R167, R171 to R175; 08 R231, R237, R238, R406: a mask request is accepted with its promise in the e1 entry; the
engine's last reads give the mask and its trailer, which are written; at the promise a request that is done is complete. The
last flush token fills the e2 entry, or lets the signal be written; a privileged reply performs the access and ends the
park, and an unreachable home answers all ones with a POISON. The one drawn cycle of the engine's last reads (log 40) and
what a WINWR of class 9 keeps (log 26) are the model's readings (DEDUCED), and whether a home is reachable is a free value
(log 42). -/
def Obligations.MaskEventsAndRepliesTakeEffect : Prop :=
  (∀ s : State,
       let id := argN s 0
       let o := getOp s id
       hasOp s id = true →
       let engine (p : Nat) : State :=
         if maskHas (getVf s o.vf).layout.meng o.n then { s with maskFree := mapSet 0 s.maskFree o.n p } else s
       let accepted (t p : Nat) (m : Option MaskHead) (l : List (Nat × Nat)) : State :=
         runMasks (sched (fillReply (keepPages (modOp (engine p) id fun x => { x with p := p, head := m }) id l) t 1 id p s.mer)
           p .maskComplete [id, 1]) o.vf o.die
       (∀ t m l, o.thread = some t → maskHead s o = .ok m l →
         let p := s.mer + 64 + o.ty / 16 + 32 * m.count
         let s1 := enterWrites (accepted t p (some m) l) id s.mer (p - 1)
         let d := drawIn s1 o.vf s.mer ((getOp s1 id).parts.foldl (fun b x => if x.due = 0 then b else min b x.due) (p - 1))
         exec .maskAccept s = .next (sched d.2 d.1 .maskComplete [id, 0]))
       ∧ (∀ t r l, o.thread = some t → maskHead s o = .stop r l →
         let s1 := accepted t (s.mer + 64 + o.ty / 16) none l
         exec .maskAccept s = .next (maskStop s1 id (readWords s1 (getOp s1 id) o.t0 l) r))
       ∧ (o.complete = false → o.failed = false → argN s 1 = 0 → swapped s o = false →
         (∀ m v bad, o.head = some m →
           let s1 := keepPages (modOp s id fun x => { x with head := some m }) id (restSpans s o m)
           maskResult s1 (getOp s1 id) m = .ok v bad → exec .maskComplete s = .next (maskWrites s1 id v bad))
         ∧ ∀ r l, o.head = none → maskHead s o = .stop r l →
           let s1 := keepPages s id l
           exec .maskComplete s = .next (maskStop s1 id (readWords s1 (getOp s1 id) o.t0 l) r))
       ∧ (o.complete = false → o.failed = false → argN s 1 ≠ 0 → o.kind = .mask → s.wacts = [] → o.held = none →
         (∀ g ∈ o.pages, g.pa.isSome = true) → (∀ p ∈ o.parts, partDone s o p = true) →
         exec .maskComplete s = .next (finishRequest s id)))
  ∧ (∀ s : State,
       let id := argN s 0
       let o := getOp s id
       hasOp s id = true → ∀ t, o.thread = some t →
       let s1 := modOp s id fun x => { x with n := x.n - 1, result := s.mer }
       let write := modOp s1 id fun x =>
         { x with parts := wordWrite o.b (BitVec.ofNat 64 o.size), pages := wordPage o.b 1, p := s.mer + 1024 }
       (o.n = 1 → o.dies = [] → o.granted = false →
         exec .flushTokenArrive s = .next (flushCheck (dropOp (fillReply s1 t 2 id s.mer s.mer) id) t))
       ∧ (o.n = 1 → o.dies = [] → o.granted = true →
         exec .flushTokenArrive s = .next (sched write s.mer .copyTranslate [id, 0]))
       ∧ (o.n ≠ 1 ∨ o.dies ≠ [] → exec .flushTokenArrive s = .next s1)
       ∧ (argN s 1 = 1 → exec .privilegedReply s = .next (privEnd s id 0))
       ∧ (argN s 1 ≠ 1 →
         (o.opc = 0x3E → inWindow s t o.a = true →
           exec .privilegedReply s
             = .next (privEnd (modTh (settleTh s o.a) o.a (seeElem (o.b / 2 ^ 16) (o.b % 2 ^ 16))) id
                 (winRead (settleTh s o.a) o.a (o.b / 2 ^ 16) (o.b % 2 ^ 16))))
         ∧ (o.opc = 0x3E → inWindow s t o.a = false → exec .privilegedReply s = .next (privEnd s id (2 ^ 64 - 1)))
         ∧ (o.opc = 0x3F → inWindow s t o.a = true →
           exec .privilegedReply s
             = .next (privEnd (modTh (settleTh s o.a) o.a fun th =>
                 winWrite th (o.b / 2 ^ 16) (o.b % 2 ^ 16) o.size) id 0))
         ∧ (o.opc = 0x3C ∨ o.opc = 0x3D → o.b / 2 ^ 62 = 0 → paOk s 0 o.a = false →
           exec .privilegedReply s = .next (privEnd (deferPoison s t 5 o.b) id (2 ^ 64 - 1)))
         ∧ (o.opc = 0x3C ∨ o.opc = 0x3D → o.b / 2 ^ 62 = 0 → closedGranule s o.a = true → paOk s 0 o.a = true →
           exec .privilegedReply s = .next (privEnd s id (2 ^ 64 - 1)))
         ∧ (∀ v bad, o.opc = 0x3C → o.b / 2 ^ 62 = 0 → closedGranule s o.a = false → paOk s 0 o.a = true →
           readLine s o.a o.n 8 = .ok v bad →
           let s2 := sawLine s (lineKey o o.a) o.a
           let w := draw s2 o.vf 0 (2 ^ 64 - 1)
           (bad = false → o.crc = false → exec .privilegedReply s = .next (privEnd s2 id v))
           ∧ (bad = true ∨ o.crc = true →
             exec .privilegedReply s = .next (privEnd (deferPoison w.2 t 2 o.b) id w.1)))
         ∧ (∀ s2 latent, o.opc = 0x3D → o.b / 2 ^ 62 = 0 → closedGranule s o.a = false → paOk s 0 o.a = true →
           writeLine (sawPart s (lineKey o o.a) o.a o.n 8 false) o.a o.n 8 o.size o.crc false = .ok s2 latent →
           exec .privilegedReply s
             = .next (privEnd (observe (if latent then latentLine s2 id o.a else s2) o.a 8) id 0))
         ∧ (o.opc = 0x3C → o.b / 2 ^ 62 ≠ 0 →
           exec .privilegedReply s = .next (privEnd (readOvf s o.a) id (ctlSpaceRead s o.a)))
         ∧ (o.opc = 0x3D → o.b / 2 ^ 62 ≠ 0 →
           exec .privilegedReply s = .next (privEnd (ctlSpaceWrite s o.a o.size) id 0)))
       ∧ exec .privilegedUnreachableTimeout s = .next (privEnd (deferPoison s t 5 o.b) id (2 ^ 64 - 1)))

/-- 07 R182, R183; 08 R235; 10 R253, R254: a message enters its register when it is clear and nothing waits for it there,
else the inbox while it has room, and otherwise is held and offered again 8 cycles later; one of an old instar is dropped;
flits go on to their core; a window unit comes back. That a message of a saved partition is looked at again after 4,096
cycles is the model's choice (log 28, DESIGN CHOICE). -/
def Obligations.MessageEventsTakeEffect : Prop :=
  ∀ s : State,
    let id := argN s 0
    let m := mapGet ({} : Msg) s.msgs id
    let th := drainDue (getTh s m.dst) s.mer
    let held := sched { putTh s m.dst th with msgs := mapPut s.msgs id { m with held := true } } (s.mer + 8) .messageRetry [id]
    (s.msgs.any (fun e => e.1 == id) = true →
      (∀ older : Bool, older = s.msgs.any (fun e => decide (e.1 < id) && e.2.src == m.src && e.2.dst == m.dst && e.2.held) →
        (m.instar < (getVf s m.vf).instar → exec .messageArrive s = .next (endMsg s id))
        ∧ ((getVf s m.vf).instar ≤ m.instar → older = false → th.pres.toNat / 2 ^ m.reg % 2 = 0 →
            (∀ x ∈ validMsgs th.inbox, x.reg ≠ m.reg) → exec .messageArrive s = .next (endMsg (putTh s m.dst (putX th m)) id))
        ∧ ((getVf s m.vf).instar ≤ m.instar → older = false → (validMsgs th.inbox).length < 8 →
            let x := { th with
              inbox := (if th.inbox.length < 8 then th.inbox else validMsgs th.inbox) ++ [{ m with held := false }] }
            (th.pres.toNat / 2 ^ m.reg % 2 = 1 → exec .messageArrive s = .next (endMsg (putTh s m.dst x) id))
            ∧ (th.pres.toNat / 2 ^ m.reg % 2 = 0 → (∃ y ∈ validMsgs th.inbox, y.reg = m.reg) →
              exec .messageArrive s
                = .next (endMsg (putTh s m.dst (askDrain x (slotCycle (s.mer + 1) (m.dst % 8)))) id)))
        ∧ ((getVf s m.vf).instar ≤ m.instar → older = true ∨ (th.pres.toNat / 2 ^ m.reg % 2 = 1 ∧ 8 ≤ (validMsgs th.inbox).length) →
            exec .messageArrive s = .next held))
      ∧ ((∀ w, (getVf s m.vf).pre ≠ .saved w) → exec .messageRetry s = exec .messageArrive s)
      ∧ ∀ w, (getVf s m.vf).pre = .saved w → exec .messageRetry s = .next (sched s (s.mer + 4096) .messageRetry [id]))
    ∧ (m.vf = 0 ∨ ((getVf s m.vf).resident = true ∧ (getVf s m.vf).instar ≤ m.instar) →
      exec .flitReceive s = .next (sched s s.mer .messageArrive [id]))
    ∧ (m.vf ≠ 0 → (getVf s m.vf).resident = false → exec .flitReceive s = .next (endMsg s id))
    ∧ (let k := windowKey (argN s 0) (argN s 1) (argN s 2)
      ∃ s', exec .sendWindowReturn s = .next s' ∧ windowUsed s' k = windowUsed s k - 1
        ∧ (∀ j, j ≠ k → windowUsed s' j = windowUsed s j) ∧ s'.mem = s.mem ∧ s'.threads = s.threads)

/-- 16 R364, R365, R368: a signal request joins its gate's FIFO; a token is added at the rate and taken by the head of the
FIFO; a granted request counts when what it covers is performed and the new value goes to every die with a view; a mirror
only grows, and a waiter of its die whose threshold it meets runs on; a grant that arrives ends the park of its thread; the
value read enters e3. That the arrival of a grant is an event of its own is the model's choice (log 72, DESIGN CHOICE). -/
def Obligations.GateEventsTakeEffect : Prop :=
  (∀ s : State,
       let id := argN s 0
       let o := getOp s id
       let g := argN s 0
       let x := getGate s g
       (hasOp s id = true → argN s 1 = 1 → exec .gateSignalRequest s = .next (deliver s id false))
       ∧ (hasOp s id = true → argN s 1 ≠ 1 → (getGate s o.a).fifo = [] →
         exec .gateSignalRequest s = .next (takeToken (modGate s o.a fun y => { y with fifo := y.fifo ++ [id] }) o.a))
       ∧ (hasOp s id = true → argN s 1 ≠ 1 → (getGate s o.a).fifo ≠ [] →
         exec .gateSignalRequest s = .next (modGate s o.a fun y => { y with fifo := y.fifo ++ [id] }))
       ∧ (x.active = true → x.gen = argN s 1 → x.epoch = argN s 2 → x.rate ≠ 0 →
         exec .gateTokenAdd s = .next (sched
           (takeToken (modGate s g fun y => { y with level := if y.level < y.burst then y.level + 1 else y.level }) g)
           (s.mer + 4000000 / x.rate) .gateTokenAdd [g, x.gen, x.epoch]))
       ∧ (hasOp s id = true → o.complete = false → (∀ k ∈ o.after, hasOp s k = false) →
           (getGate s o.a).active = true → (getGate s o.a).gen = o.size → ∃ s' : State,
         exec .gateCounterIncrement s = .next s'
           ∧ (getGate s' o.a).counter = min ((getGate s o.a).counter + 1) (2 ^ 64 - 1)
           ∧ (∀ h, h ≠ o.a → getGate s' h = getGate s h) ∧ s'.mem = s.mem
           ∧ ∀ d, d < 4 →
             (∃ e ∈ s.gviews, e.2.valid = true ∧ e.2.index = o.a ∧ maskHas (diesOf s (e.1 / 256)) d = true) →
             ∃ i ∈ s'.agenda, i.ev = .gateMirrorUpdate ∧ s.mer < i.cycle
               ∧ i.args = [d, o.a, min ((getGate s o.a).counter + 1) (2 ^ 64 - 1), o.size])
       ∧ ((getGate s (argN s 1)).gen = argN s 3 →
         let die := argN s 0
         let h := argN s 1
         let m := max (mirror s die h) (argN s 2)
         let s1 := { s with mirrors := mapSet 0 s.mirrors (die * 4096 + h) m }
         exec .gateMirrorUpdate s = .next (releaseWaiters s1 die h) ∧ mirror s1 die h = m
         ∧ (s.gwaiters = [] → releaseWaiters s1 die h = s1)
         ∧ ∀ k, s.gwaiters = [k] →
           let w := getOp s k
           (w.die = die ∧ w.a = h ∧ w.size ≤ m → releaseWaiters s1 die h
             = deliver (modOp { s1 with gwaiters := [] } k fun y => { y with granted := true }) k false)
           ∧ (w.die ≠ die ∨ w.a ≠ h ∨ m < w.size → releaseWaiters s1 die h = s1)
           ∧ (∀ t, hasOp s k = true → w.kind = .gwait → w.thread = some t → w.lid = some (getTh s t).lid → isSaved t = false →
             w.die = die → w.a = h → w.size ≤ m → w.watching = false → (getTh s t).st = .parked → (getTh s t).parks = [.gate k] →
             (getTh s t).exiting = false → (getTh (releaseWaiters s1 die h) t).st = .running))
       ∧ (hasOp s id = true → ∀ t, o.thread = some t →
         exec .greadReturn s = .next (delOp (fillReply s t 3 id o.result s.mer) id)))
  ∧ (∀ (s : State) (g id : Nat) (rest : List Nat),
       let x := getGate s g
       x.fifo = id :: rest → x.quiesced = false →
       (0 < x.rate → 0 < x.level → takeToken s g = grant (modGate s g fun y => { y with fifo := rest, level := y.level - 1 }) id)
       ∧ (0 < x.rate → x.level = 0 → takeToken s g = s)
       ∧ (x.rate = 0 → takeToken s g = grant (modGate s g fun y => { y with fifo := rest }) id))

/-- 12 R301 to R306, R322: a kick that names records in the ring sets the producer index and sends the fetch, and one that
does not sets KICKERR; a fetch that returns gives its record; QCFG writes; a PASID invalidation orphans the queue and mutes
its graphs; a MARK completes; a RUN reads its image and starts. A completion is 16 bytes at its address: VALUE, STATUS,
FAULT for the statuses that carry one, and NODE; the vector of the queue is raised when the record asks for it. That the
response of a fetch comes as a KICK with operand 3 set to 1 is the model's choice (log 64, DESIGN CHOICE). That the decision
cycles of a graph stand from the read of its image, also while the record may not start, is log 24 (DEDUCED). -/
def Obligations.QueueEventsTakeEffect : Prop :=
  (∀ s : State,
       let vf := argN s 0
       let q := argN s 1
       let x := getQ s vf q
       let p := argN s 2 % 2 ^ 32
       let n := (p + 2 ^ 32 - x.ci) % 2 ^ 32
       let v := argN s 2 &&& qcfgMask
       let g := argN s 0
       let y := getGraph s g
       (argN s 3 ≠ 1 → qEn x.cfg = true → x.orphan = false → n ≤ qSize x.cfg →
         ((x.pi + 2 ^ 32 - x.ci) % 2 ^ 32 < n →
           exec .kick s = .next (startFetch (modQ s vf q fun z => { z with pi := p }) vf q))
         ∧ (n ≤ (x.pi + 2 ^ 32 - x.ci) % 2 ^ 32 → exec .kick s = .next s))
       ∧ (argN s 3 ≠ 1 → qEn x.cfg = false ∨ x.orphan = true ∨ qSize x.cfg < n → n ≠ 0 ∨ qEn x.cfg = false ∨ x.orphan = true →
         exec .kick s = .next (modQ s vf q fun z => { z with kickerr := true }))
       ∧ (argN s 3 = 1 → x.fetching = 1 → x.awaited = false → mayTake s vf x = true → x.ci ≠ x.pi →
         exec .kick s = .next (startFetch
           (takeRecord (modQ s vf q fun z => { z with fetching := 0, awaited := false }) vf q) vf q))
       ∧ (tdispHolds s vf = false → qEn v = false →
         let off (cut : Bool) : State := modQ s vf q fun z =>
           { z with
             cfg := if qEn z.cfg then z.cfg % 2 ^ 63 else v, ci := 0, pi := 0, orphan := cut
             fetching := if cut then 2 else z.fetching }
         (qEn x.cfg = false ∨ x.fetching ≠ 1 → exec .qcfgWrite s = .next (off false))
         ∧ (qEn x.cfg = true → x.fetching = 1 → exec .qcfgWrite s = .next (muteQueue (off true) vf q)))
       ∧ (tdispHolds s vf = false → qEn v = true → qEn x.cfg = false →
         (qcfgOk s vf v = true →
           exec .qcfgWrite s = .next (modQ s vf q fun z => { z with cfg := v, ci := 0, pi := 0, sub := (getVf s vf).cursub }))
         ∧ (qcfgOk s vf v = false → exec .qcfgWrite s = .next (modQ s vf q fun z => { z with cfgerr := true })))
       ∧ (∃ s' : State, exec .pasidInvalidation s = .next s' ∧ (getQ s' vf q).orphan = true
         ∧ (∀ e ∈ s'.graphs, e.2.vf = vf → e.2.q = q → e.2.mute = true) ∧ s'.mem = s.mem ∧ s'.threads = s.threads)
       ∧ (s.graphs.any (fun e => e.1 == g) = true → canStart s g = true → exec .markRec s = .next (completeRecord s g))
       ∧ (s.graphs.any (fun e => e.1 == g) = true → y.started = false →
         (y.nodes ≠ [] → canStart s g = true → exec .runRec s = .next (startGraph s g))
         ∧ (∀ l, y.nodes = [] → readImage s y = .ok l →
           let s0 := modGraph (sawRange s y.vf y.sub y.dva (64 * (l.length + 1))) g fun z =>
             { z with nodes := l.map fun r => { nodeRec r with base := z.base } }
           let s1 := (List.range l.length).foldl (fun b k => schedDecision b g k) s0
           (canStart s1 g = true → exec .runRec s = .next (startGraph s1 g))
           ∧ (canStart s1 g = false → exec .runRec s = .next s1))
         ∧ ∀ st nd k, y.nodes = [] → readImage s y = .bad st nd k →
           exec .runRec s = .next (completeRecord (failGraph (sawRange s y.vf y.sub y.dva (64 * k)) g st nd 0) g)))
  ∧ (∀ (s : State) (g : Nat),
       let x := getGraph s g
       x.cpladdr ≠ 0 → x.mute = false → (getVf s x.vf).tstop = false → linkCut s x.vf = false →
       let c := x.cplval + x.status * 2 ^ 64 + (if x.status = 6 ∨ x.status = 7 then x.fcode else 0) * 2 ^ 72 + x.node * 2 ^ 80
       let s1 := { s with mem := wrMem s.mem (hostAddr (qPasid (getQ s x.vf x.q).cfg) x.cpladdr) 16 c }
       let s2 := if x.irq then raiseMsix s1 x.vf ((getQ s x.vf x.q).cfg % 2 ^ 11) else s1
       completeRecord s g = pump { s2 with graphs := mapDel s2.graphs g } x.vf)

/-- 12 R308 to R311, R313, R318, R320, R407: a ready node starts when its partition may run; JOIN is done; SIGNAL and COPY
enter their requests; WAIT watches its word, is done when the word meets its threshold, or times out with status 8; COND
takes the first edge pair when the masked word is not zero and the second otherwise; a malformed body fails the graph with
status 1. That a deterministic node that would have to wait behind a loop or a launch overruns is the model's reading (logs
24 and 53, DEDUCED). -/
def Obligations.NodeEventsTakeEffect : Prop :=
  ∀ s : State,
    let g := argN s 0
    let n := argN s 1
    let x := getGraph s g
    let nd := nodeOf x n
    let a := bodyBits nd 184 128
    let v := bodyBits nd 255 192
    let f (nk : OpKind) : Op := nodeOp s g n nk
    (nd.st = .ready → x.failed = false → holdsNode s x nd = false → nd.ty ≠ 1 →
      let waits : Prop := wstWaits s g n = true ∨ loopWaits x n = true
      (¬ waits → x.det = false ∨ s.mer ≤ nd.base + nd.off →
        exec .nodeStart s
          = .next (sched (modNode s g n fun y => { y with st := .running }) s.mer (nodeEvent nd.ty) [g, n]))
      ∧ (waits → x.det = false → exec .nodeStart s = .next s)
      ∧ (waits ∨ nd.base + nd.off < s.mer → x.det = true → exec .nodeStart s = .next (overrun s g n)))
    ∧ (∀ l, nd.st = .ready → x.failed = false → holdsNode s x nd = false → nd.ty = 1 → nd.lid = some l → x.det = false →
      loopWaits x n = false → launchFree s (getLaunch s l) = true → heldBack s g n (getLaunch s l) = false →
      exec .nodeStart s = .next (kickReady (startLaunch s g n l) x.vf))
    ∧ (nodeRuns s g n 0 = true →
      (nd.body = 0 → exec .joinNode s = .next (nodeDone s g n))
      ∧ (nd.body ≠ 0 → exec .joinNode s = .next (nodeFail s g n 1 0)))
    ∧ (nodeRuns s g n 3 = true → nd.body = a + v * 2 ^ 64 → a % 8 = 0 →
      let r := addOp s { f .nodeSignal with
        b := a, p := s.mer + 1024, pages := [{ page := a / 4096 * 4096, acc := 1 }]
        parts := [{ dst := a, dstDev := true, data := BitVec.ofNat 64 v, got := true }] }
      exec .signalNode s = .next (sched r.2 s.mer .copyTranslate [r.1, 0]))
    ∧ (nodeRuns s g n 4 = true → nd.op = none → nd.body = a + v * 2 ^ 64 → a % 8 = 0 →
      let r := addOp s { f .nodeWait with b := a, size := v, pages := [{ page := a / 4096 * 4096, acc := 0 }] }
      exec .waitNode s
        = .next (sched (modNode r.2 g n fun y => { y with op := some r.1 }) s.mer .copyTranslate [r.1, 0]))
    ∧ (∀ id, nodeRuns s g n 4 = true → nd.op = some id → (getOp s id).granted = true →
      exec .waitNode s = .next (nodeDone (modNode (delOp s id) g n fun y => { y with op := none }) g n))
    ∧ (∀ id pg pa w, nodeRuns s g n 4 = true → nd.op = some id → (getOp s id).pages = [pg] → pg.pa = some pa →
      getOp s id = { getOp s id with kind := .nodeWait, granted := false, watching := true, node := some (g, n), b := a, size := v } →
      let at_ := pa / 4096 * 4096 + a % 4096
      at_ < 2 ^ 64 → readLine s at_ pg.key 8 = .ok w false →
      let s1 := sawLine s (lineKey (getOp s id) at_) at_
      (v ≤ w → exec .waitNode s
        = .next (sched (modOp s1 id fun y => { y with granted := true, result := w }) s1.mer .waitNode [g, n]))
      ∧ (w < v → exec .waitNode s = .next s1))
    ∧ (∀ id, nodeRuns s g n 4 = true → nd.op = some id → argN s 2 = id →
      exec .waitNodeTimeout s = .next (nodeFail (delOp s id) g n 8 0))
    ∧ (∀ w, nodeRuns s g n 5 = true → nd.body = a + v * 2 ^ 64 → a % 8 = 0 → devRead s x.vf x.sub a 8 = .ok w false →
      exec .condNode s = .next (nodeDoneWith (sawRange s x.vf x.sub a 8) g n fun k => if w &&& v ≠ 0 then k < 2 else 2 ≤ k))
    ∧ (s.graphs.any (fun y => y.1 == g) = true → exec .crossDieEdge s = .next (endGraph (sweep
        (modGraph s g fun y => { y with edges := mapSet 0 y.edges (4 * argN s 1 + argN s 2) (argN s 3) }) g) g))

/-- 12 R311, R312, R319, R320, R407; 06 R169: a LOOP node repeats its body while the masked word is not zero (or it names
none) and its count is below its maximum; a MASK node enters its request for the mask engines of its die, a COPY node its
words, pages and promise on the node channel. In the decision cycle of a deterministic node a pending node, a launch without
its resources, a node of a partition that is swapped out or one whose decision cycle has passed overruns the schedule; a
launch that has its resources begins. That a launch barred by R391 is looked at again after 256 cycles, by then too late, is
the model's choice (log 24, DEDUCED). That a deterministic LAUNCH in the body of a running LOOP overruns is log 53, and that
one in a guest switch does, and a COPY to weights whose die a launch runs on, log 24 (DEDUCED). -/
def Obligations.LoopCopyMaskAndDecisions : Prop :=
  (∀ s : State,
       let g := argN s 0
       let n := argN s 1
       let x := getGraph s g
       let nd := nodeOf x n
       let a := bodyBits nd 184 128
       let m := bodyBits nd 255 192
       let mx := bodyBits nd 287 256
       let d := bodyBits nd 248 192
       let len := bodyBits nd 287 256
       let dst := bodyBits nd 312 256
       let vm := bodyBits nd 331 320
       (nodeRuns s g n 6 = true → nd.body = a + m * 2 ^ 64 + mx * 2 ^ 128 + bodyLo nd * 2 ^ 160 → a % 8 = 0 → mx ≠ 0 →
         x.failed = false → ∀ w, (a ≠ 0 → devRead s x.vf x.sub a 8 = .ok w false) →
           let s1 := if a = 0 then s else sawRange s x.vf x.sub a 8
           ((a = 0 ∨ w &&& m ≠ 0) → nd.count < mx → exec .loopNode s = .next (repeatLoop s1 g n))
           ∧ ((a ≠ 0 ∧ w &&& m = 0) ∨ mx ≤ nd.count → exec .loopNode s = .next (nodeDone s1 g n)))
       ∧ (nodeRuns s g n 8 = true → nd.body = a + d * 2 ^ 64 + dst * 2 ^ 128 + vm * 2 ^ 192 →
         a % 8 = 0 → d % 64 = 0 → dst % 64 = 0 →
         (featOk s x.vf 4 = false → exec .maskNode s = .next (nodeFail s g n 2 0)) ∧
         (featOk s x.vf 4 = true → maskEngines s x.vf nd.die ≠ [] →
         let v := 64 * (vm + 1)
         let l := v / 8 + 16
         let f := addOp (draw s x.vf 0 0).2
           { nodeOp s g n .nodeMask with
             recNo := mapGet 0 s.free x.vf, opc := 0x28, b := a, size := d, ty := v, p := 2 ^ 64, pages := pageSpan dst l 1
             parts := (List.range (l / 8)).map fun i => { dst := dst + 8 * i, dstDev := true } }
         exec .maskNode s = .next (runMasks (modNode f.2 g n fun y => { y with op := some f.1 }) x.vf nd.die)))
       ∧ (nodeRuns s g n 2 = true → nd.body = a + d * 2 ^ 64 + len * 2 ^ 128 → a % 8 = 0 → d % 8 = 0 → len % 8 = 0 →
         0 < len → ∃ s' : State, exec .copyNode s = .next s'
           ∧ (nodeOf (getGraph s' g) n).op = (if n < x.nodes.length then some s.seq else none)
           ∧ (getOp s' s.seq).kind = .nodeCopy ∧ (getOp s' s.seq).node = some (g, n)
           ∧ (getOp s' s.seq).parts = (List.range (len / 8)).map (fun i =>
               { src := a + 8 * i, dst := d + 8 * i, srcDev := true, dstDev := true })
           ∧ s'.mem = s.mem ∧ s'.threads = s.threads))
  ∧ (∀ s : State,
       let g := argN s 0
       let n := argN s 1
       let x := getGraph s g
       let nd := nodeOf x n
       let v := getVf s x.vf
       s.graphs.any (fun y => y.1 == g) = true → x.failed = false → nd.base = argN s 2 → nd.st ≠ .skipped → nd.st ≠ .done →
       (nd.st = .pending ∨ v.resident = false → exec .deterministicDecision s = .next (overrun s g n))
       ∧ (nd.st ≠ .pending → v.resident = true →
         (v.barred = true → nd.ty = 1 →
           exec .deterministicDecision s = .next (sched s (s.mer + 256) .deterministicDecision [g, n, nd.base, 1]))
         ∧ (v.barred = false ∨ nd.ty ≠ 1 →
           (argN s 3 = 1 → exec .deterministicDecision s = .next (overrun s g n))
           ∧ (∀ l, argN s 3 ≠ 1 → nd.ty = 1 → nd.st = .ready → nd.lid = some l →
             (launchFree s (getLaunch s l) = true → loopWaits x n = false → switching s x.vf = false →
               exec .deterministicDecision s = .next (startLaunch s g n l))
             ∧ (launchFree s (getLaunch s l) = false ∨ loopWaits x n = true ∨ switching s x.vf = true →
               exec .deterministicDecision s = .next (overrun s g n)))
           ∧ (argN s 3 ≠ 1 → nd.ty = 1 → nd.st = .ready → nd.lid = none →
             exec .deterministicDecision s = .next (overrun s g n))
           ∧ (argN s 3 ≠ 1 → nd.ty ≠ 1 →
             (wstWaits s g n = true → exec .deterministicDecision s = .next (overrun s g n))
             ∧ (wstWaits s g n = false → exec .deterministicDecision s
               = .next (if toWeights nd = true then modNode s g n fun y => { y with checked := true } else s)))))
       ∧ (let y := getGraph (overrun s g n) g
          y.failed = true ∧ y.status = 5 ∧ y.node = n ∧ y.recs = x.recs + 1))

/-- 11 R273, R274; 12 R314 to R316, R321: a launch node whose record, kernel and table pass its checks has its launch;
population writes every member's context, but a frozen one stays frozen, and the kernel of every core; a gang whose
partition is not being pre-empted starts each member in its slot's first cycle, the start of another is put off to the
resume; a complete launch empties its contexts and ends its node. A frozen context stays FROZEN with the entry as PC and
NEXTPC of its record (log 23, DEDUCED), and a gang's start put off to the resume is R294 as log 27 reads it (DEDUCED). -/
def Obligations.LaunchEventsTakeEffect : Prop :=
  ∀ s : State,
    let l := argN s 0
    let x := getLaunch s l
    let g := argN s 0
    let n := argN s 1
    let y := getGraph s g
    let nd := nodeOf y n
    (∀ r kern tb, nd.st = .ready → y.failed = false → nd.checked = false → nd.body = bodyBits nd 184 128 → nd.body % 64 = 0 →
      y.det = false → devRead s y.vf y.sub nd.body 192 = .ok r false →
      let sA := sawRange s y.vf y.sub nd.body 192
      recordBad sA y.vf nd.die r = false → bits r 214 214 = 0 →
      devRead sA y.vf y.sub (bits r 504 448) (32 * bits r 372 359) = .ok kern false →
      devRead sA y.vf y.sub (bits r 440 384) (32 * bits r 383 373) = .ok tb false →
      let s0 := sawRange (sawRange sA y.vf y.sub (bits r 504 448) (32 * bits r 372 359)) y.vf y.sub (bits r 440 384)
        (32 * bits r 383 373)
      let tab := (List.range (bits r 383 373)).map fun i => safeRecOf (kernBundle tb i)
      sptabBad kern (bits r 372 359) tab = false →
      let s1 :=
        { s0 with seq := s0.seq + 1, launches := mapSet {} s0.launches s0.seq (launchOf s0 y.vf nd.die r kern tab (g, n)) }
      exec .launchNode s = .next (sched
        (modNode s1 g n fun z => { z with checked := true, lid := some s0.seq }) s0.mer .nodeStart [g, n]))
    ∧ (x.running = true → x.killed = none →
      let s1 := x.cores.foldl (fillCore l)
        ((List.range x.members.length).foldl (fun a i => modTh a (x.members.getD i 0) (fillMember x l i)) s)
      exec .launchPopulate s = .next (if x.start = 0 then s1 else sched s1 x.start .gangStart [l, x.start]))
    ∧ (∀ i th, th.lid = l →
      (th.st = .populated → fillMember x l i th = populated x l i x.members.length)
      ∧ (th.st = .frozen → fillMember x l i th
        = { populated x l i x.members.length with
            st := .frozen, fault := th.fault, frec := { th.frec with pc := x.entry, nextpc := x.entry } }))
    ∧ (x.killed = none → x.start = argN s 1 → (getVf s x.vf).pre = .none → ∃ s' : State, exec .gangStart s = .next s' ∧ s'.mem = s.mem
      ∧ ∀ t ∈ x.members, (getTh s t).st = .populated → (getTh s t).lid = l → (getTh s' t).st = .running
        ∧ s.mer ≤ (getTh s' t).nextTurn ∧ (getTh s' t).nextTurn < s.mer + 8 ∧ (getTh s' t).nextTurn % 8 = t % 8)
    ∧ (x.killed = none → x.start = argN s 1 → (getVf s x.vf).pre ≠ .none →
      exec .gangStart s = .next (modLaunch s l fun z => { z with start := 0 }))
    ∧ (launchDone s l = true → x.graph = none →
      exec .launchComplete s = .next (kickAll
        { x.cores.foldl (dropCore l) ((x.members.filter fun t => (getTh s t).lid == l).foldl (fun a t => modTh a t emptied) s) with
          launches := mapDel s.launches l }))
    ∧ (∀ gn, launchDone s l = true → x.graph = some gn → x.killed = none → x.orphan = false →
      exec .launchComplete s = .next (kickAll (nodeDone
        { x.cores.foldl (dropCore l) ((x.members.filter fun t => (getTh s t).lid == l).foldl (fun a t => modTh a t emptied) s) with
          launches := mapDel s.launches l } gn.1 gn.2)))

/-- 11 R273, R276, 02 R45, R49, 05 R138, R140, 07 R182: the context of a thread at population: pc at the entry, s1 its
index, s2 the number of threads, s3 the threads of a core, s4 to s11 the arguments, s31 the kernel's length, every other
register, latch, tile and queue zero or empty, PHASE 0, SEED and LAUNCH as the launch has them, the cursor at the start of
its slice; and this is its first checkpoint. -/
def Obligations.PopulatedContexts : Prop :=
  ∀ (x : Launch) (l i nth : Nat), x.args.length = 8 → i < 2 ^ 32 → nth < 2 ^ 64 → x.quota < 2 ^ 64 → x.klen < 2 ^ 64 →
    let th := populated x l i nth
    th.pc = x.entry ∧ th.st = .populated ∧ th.vf = x.vf ∧ th.lid = l
    ∧ (rdS th 0).toNat = 0 ∧ (rdS th 1).toNat = i ∧ (rdS th 2).toNat = nth ∧ (rdS th 3).toNat = x.quota
    ∧ (rdS th 31).toNat = x.klen
    ∧ (∀ k, k < 8 → rdS th (4 + k) = x.args.getD k 0) ∧ (∀ k, 12 ≤ k → k < 31 → rdS th k = 0)
    ∧ (∀ k, rdVp th k = 0) ∧ (∀ k, 1 ≤ k → rdP th k = 0)
    ∧ th.phase = 0 ∧ th.fst = 0 ∧ th.tst = 0 ∧ th.lc = 0 ∧ th.rrb = 0 ∧ th.seed = BitVec.ofNat 32 x.seed
    ∧ th.launch = BitVec.ofNat 32 x.id ∧ th.lidx = BitVec.ofNat 32 i ∧ th.spcnt = 0 ∧ th.pend = [] ∧ th.br = none
    ∧ th.latA = 0 ∧ th.latB = 0 ∧ th.latC = 0 ∧ (∀ k, mapGet 0 th.xreg k = 0) ∧ th.pres = 0 ∧ th.inbox = []
    ∧ th.e0 = [] ∧ th.e1 = [] ∧ th.e2 = [] ∧ th.e3 = [] ∧ (∀ k, mapGet 0 th.tiles k = 0) ∧ th.tbad = 0
    ∧ th.fmt = { mseedv := x.seed }
    ∧ (let n := if x.ntile = [] then 0 else x.ntile.foldl (· * ·) 1
       th.cursor = i * n / nth ∧ th.sliceEnd = (i + 1) * n / nth)
    ∧ th.ckpt = { pc := th.pc, sreg := th.sreg, seed := th.seed, cursor := th.cursor, fmt := th.fmt }

/-- 10 R258; 19 R398 to R400; 01 R29, 02 R53: a CXL.mem access reads or writes the line under its key, or answers poisoned
where the feature is closed to it; that bit 10 of FOFFER admits it, and what it does not serve answers poisoned data, is the
model's choice (log 49, DESIGN CHOICE); a route that stays lost fails the copy; an IDE failure marks its stream, which cuts
the functions that use it off (log 49, PRESUMED); a soft error marks what it strikes, in device memory the line that has the
check bits, a packet that fails its CRC the whole line; a reply entry that becomes available ends the park of an EPOP. A
corrected error that a host access meets counts under the line's die (log 73, DESIGN CHOICE). -/
def Obligations.LinkEventsTakeEffect : Prop :=
  ∀ s : State,
    let pa := argN s 1 / 64 * 64
    let key := argN s 2
    let on : Prop := maskHas (foffer s) 10 = true ∧ insecure s (argN s 5) = false
    let open_ : Prop := on ∧ paOk s 0 pa = true ∧ closedGranule s pa = false
    let a := argN s 1
    let b := argN s 2
    let e := if deviceBase ≤ 8 * a ∧ 8 * a < hostBase then lineWord (8 * a - deviceBase) else a
    (open_ → argN s 0 = 0 →
      (∀ v bad, readLine s pa key 64 = .ok v bad →
        exec .cxlMemRequest s = .next (cxlAnswer (sawPacket (sawLine s (2 ^ 16 + paDie pa) pa) pa) pa v
          (bad || packetFails s pa)))
      ∧ (readLine s pa key 64 = .key → exec .cxlMemRequest s = .next (cxlAnswer s pa 0 true))
      ∧ (∀ c, readLine s pa key 64 = .integrity c →
        exec .cxlMemRequest s = .next (cxlAnswer (ownerIntegrity s pa key c) pa 0 true)))
    ∧ (∀ s1 l, open_ → argN s 0 ≠ 0 → writeLine s pa key 64 (argN s 4) (argN s 3 == 1 || packetFails s pa) false = .ok s1 l →
      exec .cxlMemRequest s = .next (observe (sawPacket s1 pa) pa 64))
    ∧ (insecure s (argN s 5) = true → exec .cxlMemRequest s = .next s)
    ∧ (on → argN s 0 = 0 → paOk s 0 pa = false ∨ closedGranule s pa = true →
      exec .cxlMemRequest s = .next (cxlAnswer s pa 0 true))
    ∧ (∀ (g : PageReq) (x : Nat), (getOp s (argN s 0)).pages = [g] → g.pa = some x → isRemote s x = true →
      allPerformed (getOp s (argN s 0)) = false →
      exec .routeLossTimeout s = .next (permFail s (argN s 0) 3 g.acc (firstDva (getOp s (argN s 0)) g)))
    ∧ (∃ t : State, exec .ideMacFailure s = .next t ∧ mapGet false t.pkg.ide (argN s 0) = true ∧ t.mem = s.mem
      ∧ (∀ f ∈ s.args.drop 1, linkCut t f = true)
      ∧ ∀ k, k ≠ argN s 0 → mapGet false t.pkg.ide k = mapGet false s.pkg.ide k)
    ∧ (∃ t : State, exec .softError s = .next t ∧ t.mem = s.mem
      ∧ (argN s 0 = 0 → mapGet false s.flips e = false → t = { s with flips := mapSet false s.flips e true })
      ∧ (argN s 0 = 0 → mapGet false s.flips e = true → poisoned t e = true ∧ mapGet false t.flips e = false)
      ∧ (argN s 0 = 1 → ∀ w, poisoned t w = if w = e then true else poisoned s w)
      ∧ (argN s 0 = 2 → (lineOf t a).bad = 3)
      ∧ (argN s 0 = 3 → (lineOf t a).bad = 1) ∧ (argN s 0 = 4 → (treeNode t ((treePath a).getD b 0)).bad = true)
      ∧ (argN s 0 = 5 → (getTh t a).parity = b :: (getTh s a).parity)
      ∧ (argN s 0 = 6 → (getTh t a).parity = (1024 + b % 2048) :: (getTh s a).parity)
      ∧ (argN s 0 = 7 → hasOp s a = true → (getOp s a).parts.length ≤ b → getOp t a = { getOp s a with crc := true })
      ∧ (argN s 0 = 9 → ∀ l, packetFails t l = (decide (l / 64 = a / 64) || packetFails s l))
      ∧ (argN s 0 = 7 → hasOp s a = true → b < (getOp s a).parts.length →
        let line (p : Part) : Nat := (if p.srcDev then p.src else p.dst) / 64
        let packet (p : Part) : Prop := line p = line ((getOp s a).parts.getD b {})
        ((∃ p ∈ (getOp s a).parts, packet p ∧ p.put = true) → (getOp t a).parts = (getOp s a).parts)
        ∧ ((∀ p ∈ (getOp s a).parts, packet p → p.put = false) →
          (getOp t a).parts = (getOp s a).parts.map fun p => if packet p then { p with bad := true, crc := true } else p)))
    ∧ exec .replyEntryAvailable s = .next (endPark s (argN s 0) (· == .replyEmpty) s.mer)

/-- 00 R3; 10 R259 to R264, R266; 12 R311; 19 R398: a doorbell raises the count that its ring has shown, and the records up
to it are taken one after another; a port record moves its words and ends with its status, refused or timed out where the
far side says so; a collective reads its source, joins its ranks and ends; a status is written before the signal, and a
record of a declined feature writes none; a COLL or PORT node submits its record. The drawn answers of host and far side
(log 42), the request of its own for the consumed word and a poisoned doorbell left alone (log 41), and the next look in the
cycle after (log 28) are the model's choices (DESIGN CHOICE). That an Insecure stream refuses the host accesses of a
function's engines is log 49 (PRESUMED). -/
def Obligations.EngineEventsTakeEffect : Prop :=
  ∀ s : State,
    let id := argN s 0
    let o := getOp s id
    let a := bits o.n 184 128
    let len := bits o.n 56 32
    let ring := mapGet ({} : Ring) s.rings id
    let sub := (getVf s ring.vf).cursub
    let words (w : List (Nat × Bool)) (x : State) : State :=
      let y := modOp x id fun z => { z with granted := true, status := if w.any (·.2) then 6 else 0 }
      engineMove y id (engineWrites a len w) (pageSpan a len 1)
    let readFirst (x : State) : State :=
      engineMove (modOp x id fun z => { z with granted := true }) id (engineReads a len) (pageSpan a len 0)
    let bad := poisonStatus o.parts
    let d := hostAnswer s o.vf
    let r := rdmaAnswer s id
    (s.rings.any (fun e => e.1 == id) = true →
      (argN s 1 = 1 → exec .ringDoorbell s = .next (takeRingRecord s id))
      ∧ (∀ v, argN s 1 ≠ 1 → devRead s ring.vf sub ring.bell 8 = .ok v true → exec .ringDoorbell s = .next s)
      ∧ (∀ v, argN s 1 ≠ 1 → devRead s ring.vf sub ring.bell 8 = .ok v false →
        let sA := sawRange s ring.vf sub ring.bell 8
        let s1 := { sA with rings := mapSet {} sA.rings id { ring with seen := max ring.seen v } }
        let going : Prop := ∃ i ∈ s.agenda, i.ev = .ringDoorbell ∧ i.args = [id, 1]
        (going → exec .ringDoorbell s = .next s1) ∧ (¬ going → exec .ringDoorbell s = .next (takeRingRecord s1 id))))
    ∧ (ring.seen ≤ ring.taken → takeRingRecord s id = s)
    ∧ (∀ rec bd, ring.taken < ring.seen → devRead s ring.vf sub (ring.base + 64 * (ring.taken % 256)) 64 = .ok rec bd →
      let sB := sawRange s ring.vf sub (ring.base + 64 * (ring.taken % 256)) 64
      let x : Op := { kind := .cpl, vf := ring.vf, sub := sub, die := ring.die, instar := (getVf s ring.vf).instar, c := s.mer }
      let s2 := putConsumed { sB with rings := mapSet {} sB.rings id { ring with taken := ring.taken + 1 } } id x
      takeRingRecord s id = sched
        (submitRecord s2 (ring.kind == 1) rec bd { x with ring := some (id, ring.taken) }) (s.mer + 1) .ringDoorbell [id, 1])
    ∧ (linkCut s o.vf = true → hostAnswer s o.vf = (1, s))
    ∧ (linkCut s o.vf = false → hostAnswer s o.vf = draw s o.vf 0 1)
    ∧ (recordRuns s id = true → o.granted = true → (∀ p ∈ o.parts, p.got = true) → allPerformed o = true →
      exec .hostrd s = .next (endRecord s id bad)
      ∧ (d.1 = 1 → exec .hostwr s = .next (endRecord d.2 id 3))
      ∧ (d.1 ≠ 1 → exec .hostwr s = .next (endRecord (hostStore d.2 o.vf (bits o.n 255 192) (getOp d.2 id).parts) id
          (poisonStatus (getOp d.2 id).parts)))
      ∧ exec .rdmawr s = .next (endRecord (rdmaSend o.n s o.parts) id bad)
      ∧ exec .rdmard s = .next (endRecord s id bad)
      ∧ (o.watching = true → exec .allred s = .next (endRecord s id bad)
        ∧ exec .redscat s = .next (endRecord s id bad) ∧ exec .allgath s = .next (endRecord s id bad)
        ∧ exec .bcast s = .next (endRecord s id bad))
      ∧ (o.watching = false → exec .allred s = .next (collJoin s id) ∧ exec .redscat s = .next (collJoin s id)
        ∧ exec .allgath s = .next (collJoin s id) ∧ exec .bcast s = .next (collJoin s id)))
    ∧ (recordRuns s id = true → o.granted = true → allPerformed o = false → o.watching = true →
      exec .hostrd s = .next s ∧ exec .rdmard s = .next s ∧ exec .allred s = .next s ∧ exec .redscat s = .next s
      ∧ exec .allgath s = .next s ∧ exec .bcast s = .next s)
    ∧ (recordRuns s id = true → o.granted = false →
      (d.1 = 1 → exec .hostrd s = .next (endRecord d.2 id 3))
      ∧ (d.1 ≠ 1 → exec .hostrd s = .next (words (hostWords s o.vf (bits o.n 255 192) (len / 8)) d.2))
      ∧ exec .hostwr s = .next (readFirst s)
      ∧ (r.1 = 1 → exec .rdmawr s = .next (endRecord r.2 id 3) ∧ exec .rdmard s = .next (endRecord r.2 id 3))
      ∧ (r.1 = 2 → exec .rdmawr s = .next r.2 ∧ exec .rdmard s = .next r.2)
      ∧ (r.1 = 0 → exec .rdmawr s = .next (readFirst r.2)
        ∧ exec .rdmard s = .next (words (drawWords r.2 o.vf (len / 8) false).1 (drawWords r.2 o.vf (len / 8) false).2))
      ∧ let n := srcElems o.n * collBytes (bits o.n 5 2)
        let s1 := sched (modOp s id fun x => { x with granted := true }) (s.mer + 40000000) .engineRecordTimeout [id]
        let t := engineMove s1 id (engineReads (bits o.n 248 192) n) (pageSpan (bits o.n 248 192) n 0)
        exec .allred s = .next t ∧ exec .redscat s = .next t ∧ exec .allgath s = .next t ∧ exec .bcast s = .next t)
    ∧ (hasOp s id = true →
      (o.complete = false → bits o.n 376 320 % 8 = 0 →
        exec .engineRecordComplete s
          = .next (releaseWord (if o.a = 1 then wakeGroup s (cGroup o.n) else s) id 1 (bits o.n 376 320) o.status))
      ∧ (o.complete = true → o.result = 1 → o.status ≠ 2 → bits o.n 16 16 = 1 → bits o.n 440 384 % 8 = 0 → allPerformed o = true →
        o.parts ≠ [] →
        exec .engineRecordComplete s = .next (releaseWord s id 2 (bits o.n 440 384) (bits o.n 511 448)))
      ∧ (o.complete = true → o.result ≠ 1 ∨ o.status = 2 ∨ bits o.n 16 16 = 0 → exec .engineRecordComplete s = .next (closeRecord s id))
      ∧ (o.complete = false → o.opc < 16 ∨ o.watching = false →
        exec .engineRecordTimeout s = .next (endRecord s id 5)))
    ∧ ∀ (rec : Nat) (bad : Bool),
      let g := argN s 0
      let n := argN s 1
      let x := getGraph s g
      let nd := nodeOf x n
      let at_ := bodyBits nd 184 128
      let sA := sawRange s x.vf x.sub at_ 64
      nd.op = none → devRead s x.vf x.sub at_ 64 = .ok rec bad →
      (nodeRuns s g n 7 = true → featOk s x.vf 7 = true → nd.body = at_ + bodyBits nd 195 192 * 2 ^ 64 →
        bodyBits nd 195 192 < (collEngines (getVf s x.vf).layout).length →
        exec .collNode s = .next (if bad then nodeFail sA g n 9 0 else submitRecord sA true rec false (nodeOp sA g n .engine)))
      ∧ (nodeRuns s g n 9 = true → featOk s x.vf 8 = true → nd.body = at_ + bodyBits nd 196 192 * 2 ^ 64 → at_ % 64 = 0 →
        bodyBits nd 196 192 < (portEngines (getVf s x.vf).layout).length →
        exec .portNode s = .next (if bad then nodeFail sA g n 9 0 else submitRecord sA false rec false (nodeOp sA g n .engine)))

/-- 15 R341 to R346, R352; 18 R396; 07 R195 to R201; 15 R408: host register reads and writes, discarded over an Insecure
stream (R398); the accepted feature word locks or is refused; a command ends with its status, and the mapping commands write
their entry when its invalidation is complete, a range entry replaying what it covers; a guest switch ends within its bound
(log 46). That this is looked at every 64 cycles is log 28 (DESIGN CHOICE), and that the entry or sub-context is installed
at its completion log 46 (DEDUCED). That register accesses over an Insecure stream are discarded is log 49 (PRESUMED). -/
def Obligations.MailboxEventsTakeEffect : Prop :=
  (∀ (s : State) (f st : Nat),
    (getVf (endCmd s f st) f).cmdStatus = st ∧ (getVf (endCmd s f st) f).cmdRun = false ∧ (endCmd s f st).mem = s.mem)
  ∧ ∀ s : State,
    let f := argN s 0
    let off := argN s 1
    let v := argN s 2 % 2 ^ 64
    let x := getVf s f
    let vf := cmdVf s f
    let a0 := cmdArg s f 0
    let a1 := cmdArg s f 1
    let e := hostRead s f a1 32
    (insecure s (argN s 4) = true → exec .registerWrite s = .next s)
    ∧ (f ≤ 2048 → f = 0 ∨ s.pkg.recovery = false → insecure s (argN s 4) = false → argN s 3 = 1 →
      exec .registerWrite s = .next { s with out := s.out ++ [.reg f off (BitVec.ofNat 64 (barRead s f off))] })
    ∧ (f ≤ 2048 → f = 0 ∨ s.pkg.recovery = false → insecure s (argN s 4) = false → argN s 3 = 0 →
      (tdispHolds s f = true → lockedReg off = true → exec .registerWrite s = .next (tdispError s f))
      ∧ (off = 0 → exec .registerWrite s = .next (modVf s f fun y => { y with cmdaddr := v / 64 * 64 }))
      ∧ (off = 8 → v = 1 → exec .registerWrite s = .next (doorbell s f))
      ∧ (0x2000 ≤ off → off < 0x2200 → off % 8 = 0 → tdispHolds s f = false →
        exec .registerWrite s = .next (msixWrite s f ((off - 0x2000) / 8) v))
      ∧ (f ≠ 0 → off = 0x50 → tdispHolds s f = false → x.locked = false →
        exec .registerWrite s = .next (modVf s f fun y => { y with faccept := y.faccept / 2 ^ 64 * 2 ^ 64 + v }))
      ∧ (∀ q, f ≠ 0 → tdispHolds s f = false → q < 16 → off = 0x1008 + 32 * q →
        exec .registerWrite s = .next (sched s s.mer .qcfgWrite [f, q, v]))
      ∧ (∀ q, f ≠ 0 → q < 16 → off = 0x1010 + 32 * q → exec .registerWrite s = .next (sched s s.mer .kick [f, q, v])))
    ∧ (f ≠ 0 → f ≤ 2048 → maskHas off 0 = true → x.locked = false →
      (maskHas x.faccept 0 = true → x.faccept < 2 ^ 12 → x.faccept &&& foffer s = x.faccept →
        exec .featureLock s = .next (modVf s f fun y => { y with locked := true }))
      ∧ (x.faccept &&& foffer s ≠ x.faccept →
        exec .featureLock s = .next (modVf s f fun y => { y with refused := true })))
    ∧ (∀ opc, runsCmd s f opc →
      (commandRow opc = .unassignedMailboxOpcode → exec .unassignedMailboxOpcode s = .next (endCmd s f 1))
      ∧ (opc = 0x06 → f = 0 → a0 < 4 → 100 ≤ a1 → a1 ≤ 100000 → exec .sliceCmd s
          = .next (endCmd { s with pkg := { s.pkg with slice := mapSet 0 s.pkg.slice a0 a1 } } f 0))
      ∧ (opc = 0x07 → f ≠ 0 → a0 = 0 →
        exec .faultring s = .next (endCmd (modVf s f fun y => { y with ring := 0, ringOff := true }) f 0))
      ∧ (opc = 0x07 → f ≠ 0 → a0 ≠ 0 → a0 % 4096 = 0 → 100 ≤ a1 % 2 ^ 32 → a1 % 2 ^ 32 ≤ 10000000 →
        exec .faultring s
          = .next (endCmd (modVf s f fun y => { y with ring := a0, ringOff := false, fdead := a1 % 2 ^ 32 }) f 0))
      ∧ (opc = 0x05 → f ≠ 0 → x.cmdStep = 0 → a0 < 16 →
        (runningLaunch s f = false → exec .gswitch s = .next (invalidate (setStep s f 1)
          { vf := f, sub := 16, base := 0, len := 2 ^ 57, what := 1, fn := f, place := a0, till := s.mer + 75840 }))
        ∧ (runningLaunch s f = true → exec .gswitch s = .next (endCmd s f 4)))
      ∧ (f ≠ 0 ∨ namesVf s → x.cmdStep = 0 → pfLocked s f vf = false →
        (opc = 0x03 → a0 < 256 → entryStatus s vf (cmdSub s f) a0 e = 0 → (entryOf e).valid = true →
          (mapGet ({} : RangeEntry) (getVf s vf).ranges (cmdSub s f * 256 + a0)).valid = false →
          exec .maprange s = .next (invalidate (setStep s f 1)
            { vf := vf, sub := cmdSub s f, base := (entryOf e).base, len := (entryOf e).limit - (entryOf e).base, what := 0
              fn := f, place := a0, entry := e }))
        ∧ (opc = 0x03 → a0 < 256 → entryStatus s vf (cmdSub s f) a0 e ≠ 0 →
          exec .maprange s = .next (endCmd s f (entryStatus s vf (cmdSub s f) a0 e)))
        ∧ (opc = 0x04 → pageStatus s vf a0 a1 (cmdArg s f 2) = 0 →
          let leaf := leafOf a1
          exec .mappage s = .next (invalidate (setStep s f 1)
            { vf := vf, sub := cmdSub s f, base := a0, len := leafSize (cmdArg s f 2) * spanCount (cmdArg s f 2) leaf.span
              what := 5, fn := f, place := cmdArg s f 2, entry := a1 }))
        ∧ (opc = 0x04 → pageStatus s vf a0 a1 (cmdArg s f 2) ≠ 0 →
          exec .mappage s = .next (endCmd s f (pageStatus s vf a0 a1 (cmdArg s f 2))))))
    ∧ ∀ y, s.invs.find? (fun z => z.1 == f) = some (f, y) →
      let waits : Prop := invPending s y = true ∧ (y.till = 0 ∨ s.mer < y.till)
      (waits → exec .invalidationComplete s = .next (sched s (s.mer + 64) .invalidationComplete [f]))
      ∧ (¬ waits →
        let s1 := { s with invs := mapDel s.invs f }
        let range := entryOf y.entry
        let s2 := setRange s1 y.vf y.sub y.place y.entry
        (y.what = 0 → range.valid = true → exec .invalidationComplete s
            = .next (endCmd (replayPages s2 y.vf y.sub range.base (range.limit - range.base)) y.fn 0))
        ∧ (y.what = 0 → range.valid = false → exec .invalidationComplete s = .next (endCmd s2 y.fn 0))
        ∧ (y.what = 1 → exec .invalidationComplete s
            = .next (kickReady (takeAll (endCmd (modVf s1 y.vf fun z => { z with cursub := y.place }) y.fn 0) y.vf) y.vf))
        ∧ (y.what = 2 → exec .invalidationComplete s = .next (endCmd s1 y.fn 0))
        ∧ (y.what = 3 → exec .invalidationComplete s = .next (waitCmd s1 y.fn))
        ∧ (y.what = 4 → exec .invalidationComplete s = .next (ackPriv s1 y.fn))
        ∧ (y.what = 5 → exec .invalidationComplete s
            = .next (endCmd (replayPages (setPage s1 y.vf y.sub y.place y.base y.entry) y.vf y.sub y.base y.len) y.fn 0)))

/-- 16 R353, R359 to R371: the key, window and gate commands of the physical function: each does what its rule says and ends
with OK, or refuses a slot, key, list or gate as the rule says. The nonce of a gate image from two draws, and the opaque
stream and tag of its seal, are the model's (log 10, DESIGN CHOICE). Operands are taken modulo their fields, other bits
ignored (log 45, DEDUCED), and what goes over an Insecure stream reads as all ones or is discarded (log 49, PRESUMED). -/
def Obligations.KeyAndGateCommandsTakeEffect : Prop :=
  ∀ (s : State) (opc : Nat), runsCmd s (argN s 0) opc →
    let f := argN s 0
    let vf := cmdVf s f
    let a0 := cmdArg s f 0
    let a1 := cmdArg s f 1
    let acl := readAcl s f
    let k := a0 % 2 ^ 12
    let kind := a1 % 4
    let burst := a1 / 2 ^ 16 % 2 ^ 16
    let x := getGate s a0
    let g := a0 % 4096
    let e := a0 / 2 ^ 16 % 256
    let m := hostRead s f (cmdArg s f 2) 96
    let plain := sealed (m % 2 ^ 96) (m / 2 ^ 96 % 2 ^ 512)
    (opc = 0x20 → f = 0 → namesVf s → k ≠ 0 → kind = 0 ∨ (kind = 1 ∧ maskHas (foffer s) 6 = true) →
      ((keySlot s k).st = 0 → exec .keynew s = .next (endCmd (fillKey s k vf kind) f 0))
      ∧ ((keySlot s k).st ≠ 0 → exec .keynew s = .next (endCmd s f 7)))
    ∧ (opc = 0x21 → f = 0 → namesVf s → maskHas (foffer s) 6 = true → isWindow s k = true →
      (keySlot s k).owner ≠ vf →
      exec .wadmit s = .next (endCmd { s with admits := mapSet 0 s.admits (admitKey k vf) (a1 % 8) } f 0))
    ∧ (opc = 0x22 → f = 0 → namesVf s → (getVf s f).cmdStep = 0 → maskHas (foffer s) 6 = true →
      wasWindow s k = true → (keySlot s k).owner ≠ vf → tdispHolds s vf = false →
      let s1 := { s with admits := mapSet 0 s.admits (admitKey k vf) 0 }
      exec .wrevoke s = .next (invalidate
        (setStep (modVf s1 vf fun v => { v with ranges := v.ranges.filter fun y => !windowEntry k y }) f 1)
        { vf := vf, sub := 18, base := k, len := 0, what := 2, fn := f }))
    ∧ (opc = 0x28 → f = 0 → namesVf s → maskHas (foffer s) 5 = true → a1 / 2 ^ 32 % 2 ^ 12 = 0 → burst ≠ 0 →
      aclBad acl = false → (getGate s g).active = false →
      exec .gcreate s = .next (endCmd (startTokens (setGate s g fun y =>
        { active := true, acl := acl, wkey := 0, level := burst, burst := burst, rate := a1 % 2 ^ 16, owner := vf
          gen := (y.gen + 1) % 2 ^ 32, epoch := s.mer }) g) f 0))
    ∧ (f = 0 → maskHas (foffer s) 5 = true → a0 < 4096 → x.active = true →
      (opc = 0x29 → aclBad acl = false → exec .gacl s = .next (endCmd (applyAcl s a0 acl) f 0))
      ∧ (opc = 0x2A →
        let s1 := breakGate s a0 0x0C fun _ => true
        let s2 := { s1 with
          gviews := s1.gviews.filter fun y => !(y.2.valid && y.2.index == a0)
          mirrors := s1.mirrors.filter fun y => y.1 % 4096 != a0 }
        exec .gfree s = .next (endCmd (setGate s2 a0 fun y => { gen := y.gen }) f 0))
      ∧ (opc = 0x2C →
        let s1 := modGate s a0 fun y => { y with quiesced := true }
        let d := draw s1 0 0 (2 ^ 64 - 1)
        let w := draw d.2 0 0 (2 ^ 32 - 1)
        let nonce := d.1 + w.1 * 2 ^ 64
        let c := sealed nonce (gateImage a0 (getGate s a0))
        (uncounted s1 a0 = true → exec .gexport s = .next (waitCmd s1 f))
        ∧ (uncounted s1 a0 = false → exec .gexport s = .next (endCmd
          { w.2 with mem := hostWrite w.2 f (cmdArg s f 2) 96 (nonce + c * 2 ^ 96 + sealTag nonce c * 2 ^ 608) } f 0))))
    ∧ (∀ r, opc = 0x2B → f ≠ 0 → featOk s f 5 = true → (getGate s g).active = true →
      aclRights (getGate s g).acl f = some r → ∃ t : State, exec .gview s = .next (endCmd t f 0)
        ∧ mapGet {} t.gviews (f * 256 + e) = { valid := true, index := g, rights := r, gen := (getGate s g).gen }
        ∧ t.mem = hostWrite s f (cmdArg s f 2) 8 ((getGate s g).gen * 2 ^ 8 + e))
    ∧ (opc = 0x2D → f = 0 → maskHas (foffer s) 5 = true →
      (m / 2 ^ 608 % 2 ^ 128 ≠ sealTag (m % 2 ^ 96) (m / 2 ^ 96 % 2 ^ 512) → exec .gimport s = .next (endCmd s f 8))
      ∧ (m / 2 ^ 608 = sealTag (m % 2 ^ 96) (m / 2 ^ 96 % 2 ^ 512) → bits plain 255 216 = 0 → bits plain 127 96 = 0 →
        aclBad (BitVec.ofNat 256 (plain / 2 ^ 256)) = false → (getGate s (bits plain 203 192)).active = false →
        ∃ t : State, exec .gimport s = .next (endCmd (startTokens t (bits plain 203 192)) f 0)
          ∧ (getGate t (bits plain 203 192)).counter = bits plain 63 0 ∧ (getGate t (bits plain 203 192)).gen = bits plain 95 64
          ∧ (getGate t (bits plain 203 192)).active = true ∧ t.mem = s.mem))

/-- 10 R256, R262, R266, R267; 19 R403, R405: the domain, group and queue-pair commands: done at once where no other package
takes part, else after the agreement of the others, or with TIMEOUT, status 9, after 1 s; the attestation answers, whose
transcript hash and signatures are free values (log 10, DESIGN CHOICE), and the flash update. Queue pairs are numbered in
sequence (log 46, DESIGN CHOICE) and DOMJOIN renumbers the package's ranges (log 51, DEDUCED). Operands are taken modulo
their fields, other bits ignored, and a group or queue pair that is not there is MALFORMED (log 45). -/
def Obligations.DomainCommandsTakeEffect : Prop :=
  ∀ s : State,
    let f := argN s 0
    let a0 := cmdArg s f 0
    let a1 := cmdArg s f 1
    let me := cmdArg s f 2 % 64
    let step0 : Prop := (getVf s f).cmdStep = 0
    let slot := a0 % 2 ^ 12
    let tab := readTable s f
    let s0 := { s with pkg := { s.pkg with table := tab } }
    (∀ opc, runsCmd s f opc → f = 0 →
      (opc = 0x30 → step0 → maskHas (foffer s) 9 = true →
        (a0 = 0 → domainBusy s = false →
          let s1 := renumber s 0
          exec .domjoin s
            = .next (endCmd { s1 with pkg := { s1.pkg with inDom := false, domId := 0, members := 0 } } f 0))
        ∧ (a0 ≠ 0 → maskHas a1 me = true → s.pkg.inDom = false →
          (others a1 me = [] → exec .domjoin s = .next (joinDomain s f))
          ∧ (others a1 me ≠ [] → exec .domjoin s = .next (awaitMembers s f))))
      ∧ (opc = 0x31 → namesVf s → step0 → maskHas (foffer s) 9 = true → s.pkg.geuth.kdom = true →
        featOk s (cmdVf s f) 9 = true → slot ≠ 0 → cmdArg s f 2 ≠ 0 → s.pkg.inDom = true → maskHas a1 s.pkg.pkg = true →
        a1 &&& s.pkg.members = a1 →
        (others a1 s.pkg.pkg = [] → exec .domkey s = .next (installDomKey s f))
        ∧ (others a1 s.pkg.pkg ≠ [] → exec .domkey s = .next (awaitMembers s f)))
      ∧ (opc = 0x32 → step0 → maskHas (foffer s) 7 = true → maskHas a0 48 = false →
        tableBad s tab (bits a0 27 16) = false → (getGroup s (a0 % 2 ^ 16)).valid = false →
        (tablePackages s0 = [] → exec .groupset s = .next (installGroup s0 f))
        ∧ (tablePackages s0 ≠ [] → exec .groupset s = .next (awaitMembers s0 f)))
      ∧ (opc = 0x32 → step0 → maskHas (foffer s) 7 = true → maskHas a0 48 = true → (getGroup s (a0 % 2 ^ 16)).valid = true →
        groupBusy s (a0 % 2 ^ 16) = false → exec .groupset s
          = .next (endCmd { s with pkg := { s.pkg with groups := mapDel s.pkg.groups (a0 % 2 ^ 16) } } f 0))
      ∧ (opc = 0x33 → namesVf s → maskHas (foffer s) 8 = true →
        let d := hostRead s f a1 64
        let n := freeQpn s
        qpBad d = false → (s.pkg.qps.filter fun e => e.2.vf == cmdVf s f).length < 1024 →
        exec .qpcreate s = .next (endCmd { s with
          mem := hostWrite s f (cmdArg s f 2) 8 n
          pkg := { s.pkg with
            qps := mapPut s.pkg.qps n { vf := cmdVf s f, desc := d }, nextQpn := (n + 1) % 2 ^ 24 } } f 0)
        ∧ (s.pkg.qps.length < 2 ^ 24 → n < 2 ^ 24 ∧ ∀ q ∈ s.pkg.qps, q.1 ≠ n))
      ∧ (opc = 0x34 → namesVf s → maskHas (foffer s) 8 = true →
        let q := a0 % 2 ^ 24
        s.pkg.qps.any (fun e => e.1 == q) = true → (mapGet ({} : QPair) s.pkg.qps q).vf = cmdVf s f →
        (qpBusy s q = true → exec .qpdestroy s = .next (waitCmd s f))
        ∧ (qpBusy s q = false →
          exec .qpdestroy s = .next (endCmd { s with pkg := { s.pkg with qps := mapDel s.pkg.qps q } } f 0))))
    ∧ (awaits s f = true →
      exec .agreementTimeout s = .next (endAgree s f 9)
      ∧ exec .memberAgreement s
        = .next (agreeStep { s with pkg := { s.pkg with agreed := s.pkg.agreed ++ [(argN s 1, argN s 2)] } } f))
    ∧ (s.pkg.certs.contains (argN s 1) = true →
      let d := draw s 0 0 (2 ^ 64 - 1)
      let h := transcriptHash s f d.1
      exec .measurements s = .next { d.2 with
        pkg := { d.2.pkg with spdm := mapPut d.2.pkg.spdm f h }
        out := d.2.out ++ [.spdm f 1 (measured s 1), .spdm f 2 (measured s 2), .spdm f 3 (measured s 3),
          .spdm f 4 (measured s 4), .spdm f 5 (measured s 5), .spdmSigned f d.1 (argN s 1) (Config.rsaSign h).toNat] })
    ∧ (s.pkg.certs.contains (argN s 1) = false → exec .measurements s = .next s)
    ∧ (∀ h, s.pkg.spdm.find? (fun e => e.1 == f) = some (f, h) →
      exec .vendorDefinedRequest s = .next { s with out := s.out ++ [.spdmSig f (Config.slhSign h).toNat] })
    ∧ ((∀ e ∈ s.pkg.spdm, e.1 ≠ f) → exec .vendorDefinedRequest s = .next s)
    ∧ (s.pkg.recovery = true → argN s 3 = 0 → exec .flashUpdate s = .next { s with pkg := { s.pkg with
        copies := s.pkg.copies.modify (argN s 0) fun c =>
          ({ rsa := argN s 1 == 1, slh := argN s 1 == 1, rsaKey := s.pkg.fuses.rsaKey, slhKey := s.pkg.fuses.slhKey
             svn := argN s 2, table := c.1.table }, c.2) } })
    ∧ (s.pkg.recovery = false → exec .flashUpdate s = .next s)

/-- 15 R335 to R350, R346; 17 R373, R374: a layout or mode that passes its checks is journalled, at once where it moves no
running work and after a pre-emption where it may evict it, and is turned away otherwise: LOCKED, MALFORMED, NO_RESOURCE and
RUNNING in this order, which is the model's (log 63, DESIGN CHOICE); a pre-empted commit that changes the slot count or the
dies kills the launches and waits for their end; the journalled commit is applied, then completes; BIND, which waits for a
teardown to run again after a reset, and RELEASE change the granules; a function-level reset, after which a package on hold
holds the function too (R35); the TDISP states. A look every 64 cycles at what is waited for is the model's (log 28, DESIGN
CHOICE). A commit that takes over a partition saved for a migration asks for the migration again (log 51, DEDUCED), a BIND
waits for the teardown that a reset makes run again (R401, log 48, DEDUCED), and SETMODE reads one bit (log 45, DEDUCED). -/
def Obligations.LayoutCommandsTakeEffect : Prop :=
  ∀ s : State,
    let f := argN s 0
    let vf := cmdVf s f
    let base := cmdArg s f 0
    let len := cmdArg s f 1
    let d := hostRead s f base 64
    let old := (getVf s vf).layout
    let mode := { (getVf s vf).layout with mode := base % 2 }
    let free (l : Layout) : Prop := busyVf s vf = false
      ∨ (l.slots = (getVf s vf).layout.slots ∧ l.dies = (getVf s vf).layout.dies ∧ l.mode = (getVf s vf).layout.mode)
    (∀ opc, runsCmd s f opc → f = 0 → namesVf s →
      ((getVf s f).cmdStep = 0 →
        (∀ i new, (i = .layoutCmd ∧ opc = 0x01 ∧ new = layoutOf d) ∨ (i = .setmode ∧ opc = 0x02 ∧ new = mode) →
          let malformed : Prop := layoutBad s vf new = true ∨ (opc = 0x01 ∧ layoutReserved d = true)
          (pfLocked s f vf = true → exec i s = .next (endCmd s f 5))
          ∧ (pfLocked s f vf = false → malformed → exec i s = .next (endCmd s f 1))
          ∧ (pfLocked s f vf = false → ¬ malformed → layoutFull s vf new = true → exec i s = .next (endCmd s f 3))
          ∧ (pfLocked s f vf = false → ¬ malformed → layoutFull s vf new = false →
            (free new → exec i s = .next (waitCmd (setStep (putJournal s vf 1 old new) f 3) f))
            ∧ (¬ free new → cmdEvict s f = true → exec i s
                = .next (waitCmd (sched (setStep (putJournal s vf 1 old new) f 1) s.mer .preemptionRequest [vf, 1]) f))
            ∧ (¬ free new → cmdEvict s f = false → exec i s = .next (endCmd s f 4))))
        ∧ (opc = 0x11 → tdispHolds s vf = false → cmdArg s f 2 = 0 → releaseStatus s vf base len = 0 →
          let s1 := { s with pkg := { s.pkg with bndstat := 0 } }
          exec .releaseCmd s = .next (invalidate (setStep (releaseRange s1 vf base len) f 3)
            { vf := vf, sub := 17, base := base, len := len, what := 3, fn := f }))
        ∧ (opc = 0x11 → tdispHolds s vf = false → cmdArg s f 2 ≤ 1 → releaseStatus s vf base len ≠ 0 →
          exec .releaseCmd s = .next (endCmd { s with pkg := { s.pkg with bndstat := releaseStatus s vf base len } } f
            (releaseStatus s vf base len))))
      ∧ (∀ j, s.pkg.journal.find? (fun y => y.vf == vf) = some j →
        let apply := waitCmd (setStep (putJournal (applyLayout s j.vf j.new) j.vf 2 j.old j.new) f 4) f
        let finish := endCmd (dropJournal (finishLayout s j.vf j.old j.new) j.vf) f 0
        let stopped (p : PreSt) : State :=
          modVf (if (getVf s j.vf).pre = .saved 2 then sched s s.mer .preemptionRequest [j.vf, 2] else s) j.vf fun x =>
            { x with pre := p }
        ∀ i, (i = .layoutCmd ∧ opc = 0x01) ∨ (i = .setmode ∧ opc = 0x02) →
        ((getVf s f).cmdStep = 1 →
          (∀ n, (getVf s j.vf).pre = .stopping n → exec i s = .next (waitCmd s f))
          ∧ ((getVf s j.vf).pre = .none → (getVf s j.vf).resident = true →
            exec i s = .next (waitCmd (sched s s.mer .preemptionRequest [j.vf, 1]) f))
          ∧ ((getVf s j.vf).pre = .none → (getVf s j.vf).resident = false → exec i s = .next (waitCmd (stopped (.saved 1)) f))
          ∧ ∀ n, (getVf s j.vf).pre = .saved n →
            (slotsIn j.old = slotsIn j.new → j.old.dies = j.new.dies →
              exec i s = .next (waitCmd (setStep (stopped (.saved 1)) f 3) f))
            ∧ (slotsIn j.old ≠ slotsIn j.new ∨ j.old.dies ≠ j.new.dies →
              exec i s = .next (waitCmd (setStep (killPartition (stopped .cut) j.vf 0 true) f 2) f)))
        ∧ ((getVf s f).cmdStep = 2 →
          exec i s = .next (if launchesLeft s j.vf = true then waitCmd s f else apply))
        ∧ ((getVf s f).cmdStep = 3 → exec i s = .next apply)
        ∧ ((getVf s f).cmdStep = 4 → exec i s = .next finish))
      ∧ (opc = 0x11 → (getVf s f).cmdStep = 3 → exec .releaseCmd s = .next (endCmd s f 0))
      ∧ (opc = 0x10 →
        let st := if cmdArg s f 2 ≠ 0 then 1 else bindStatus s vf base len
        let s1 := { s with pkg := { s.pkg with bndstat := st } }
        (rerunDue s = true → exec .bindCmd s = .next (waitCmd s f))
        ∧ (rerunDue s = false → st = 0 → exec .bindCmd s = .next (endCmd (bindRange s1 vf base len) f 0))
        ∧ (rerunDue s = false → st ≠ 0 → exec .bindCmd s = .next (endCmd s1 f st))))
    ∧ (f ≠ 0 → f ≤ 2048 →
      (switching s f = false → argN s 1 = 0 →
        let s0 := dropAllHeld (abortAll (modVf s f fun x => { x with barred := true, halted := true, pre := .none }) f true) f
        exec .functionLevelReset s = .next (sched s0 (s0.mer + 64) .functionLevelReset [f, 1]))
      ∧ (switching s f = false → argN s 1 ≠ 0 →
        let s1 := dropAllHeld s f
        (resetWaits s1 f = true ∨ launchesLeft s1 f = true →
          exec .functionLevelReset s = .next (sched s1 (s1.mer + 64) .functionLevelReset [f, 1]))
        ∧ (resetWaits s1 f = false → launchesLeft s1 f = false →
          ∃ t : State, exec .functionLevelReset s = .next t ∧ (∀ e ∈ t.ops, e.2.vf ≠ f)
            ∧ (s1.pkg.hold = 0 → getVf t f = resetVf (getVf s1 f) ∧ ∀ u, u ≠ f → getVf t u = getVf s1 u)
            ∧ (s1.pkg.hold ≠ 0 → (getVf s1 f).layout.slots ≠ 0 → (getVf t f).tstop = true)))
      ∧ (featOk s f 11 = true → exec .stopInterface s = .next (sched s s.mer .functionLevelReset [f, 0]))
      ∧ (featOk s f 11 = false → exec .stopInterface s = .next s)
      ∧ ((getVf s f).tdisp = .unlocked → featOk s f 11 = true →
        exec .lockInterface s = .next (modVf s f fun x => { x with tdisp := .locked }))
      ∧ ((getVf s f).tdisp = .locked → exec .startInterface s = .next (modVf s f fun x => { x with tdisp := .run })))

/-- 17 R372 to R381, 16 R353: the key, bind, scrub and zeroing actions of firmware: an ACTIVE key is zeroised and a ZEROED
one freed; a scrub starts unless it is refused, each granule it reaches becomes zeros and is no longer DIRTY; BZERO and
CHZERO clear their bytes. That freeing a key removes its admissions and range entries is log 67, that CHZERO's units are
those of storeUnit log 66 and the steps of a teardown without a request (operand 0) log 50 (DESIGN CHOICE). -/
def Obligations.TeardownEventsTakeEffect : Prop :=
  ∀ s : State,
    let op := argN s 0
    let k := argN s 1 % 4096
    let x := keySlot s k
    let v := argN s 1
    let j := argN s 1
    let e := mapGet ({} : Scrub) s.scrubs j
    let e0 := mapGet ({} : Scrub) s.scrubs op
    let say (n : Nat) : State := { s with pkg := { s.pkg with bndstat := n } }
    (op ≠ 0 → k ≠ 0 → x.st = 1 →
      exec .keyzZeroise s = .next (ackPriv { s with keys := mapSet {} s.keys k { x with st := 2, gen := x.gen + 1 } } op))
    ∧ (op ≠ 0 → k ≠ 0 → x.st = 2 → exec .keyzFree s = .next (ackPriv
        { s with
          keys := mapSet {} s.keys k { gen := x.gen }
          admits := s.admits.filter fun y => y.1 / 65536 != k
          vfs := s.vfs.map fun y =>
            (y.1, { y.2 with ranges := y.2.ranges.filter fun r => !(r.2.valid && r.2.keyid == k) }) } op))
    ∧ (op ≠ 0 → k = 0 → exec .keyzZeroise s = .next (ackPriv s op) ∧ exec .keyzFree s = .next (ackPriv s op))
    ∧ (op = 0 → s.pkg.teardowns.any (fun y => y.key == k && y.step == 0) = true →
      let s1 := zeroKey s k
      exec .keyzZeroise s = .next (advanceTeardowns { s1 with pkg := { s1.pkg with
        teardowns := s1.pkg.teardowns.map fun y => if y.key = k ∧ y.step = 0 then { y with step := 1 } else y } }))
    ∧ (op = 0 → (∃ y ∈ s.pkg.teardowns, y.key = k) → (∀ y ∈ s.pkg.teardowns, y.key = k → y.step = 2) →
      let s1 := freeKey s k
      (admitted s k = false → dirtyUnder s k = false → exec .keyzFree s
        = .next { s1 with pkg := { s1.pkg with teardowns := s1.pkg.teardowns.filter fun y => y.key != k } })
      ∧ (admitted s k = true ∨ dirtyUnder s k = true →
        exec .keyzFree s = .next (sched s (s.mer + 4096) .keyzFree s.args)))
    ∧ (bndOk v = true → bindStatus s (bndVf v) (bndBase v) (bndLen v) = 0 →
      exec .bndreqBind s = .next (ackPriv (bindRange (say 0) (bndVf v) (bndBase v) (bndLen v)) op))
    ∧ (bndOk v = true → releaseStatus s (bndVf v) (bndBase v) (bndLen v) = 0 →
      exec .bndreqRelease s = .next (invalidate (releaseRange (say 0) (bndVf v) (bndBase v) (bndLen v))
        { vf := bndVf v, sub := 17, base := bndBase v, len := bndLen v, what := 4, fn := op }))
    ∧ (bndOk v = false → exec .bndreqBind s = .next (ackPriv (say 1) op)
      ∧ exec .bndreqRelease s = .next (ackPriv (say 1) op))
    ∧ (argN s 2 % 2 = 1 → e.st = 0 ∨ e.st = 2 →
      (scrubRefused s j e = true → exec .scrubStart s = .next (ackPriv s op))
      ∧ (scrubRefused s j e = false → exec .scrubStart s = .next (ackPriv
        (sched { s with scrubs := mapSet {} s.scrubs j { e with next := firstGranule j e.lo, st := 1 } } (s.mer + 128)
          .scrubGranule [j]) op)))
    ∧ (Inv s → e0.st = 1 → e0.next + 8192 < e0.hi → ∃ t : State, exec .scrubGranule s = .next t
      ∧ (e0.next % 4096 = 0 → ∀ a, a < 2 ^ 48 → rdByte t.mem (deviceBase + a)
          = if e0.next ≤ a ∧ a < e0.next + 4096 then 0 else rdByte s.mem (deviceBase + a))
      ∧ granuleOf t e0.next = (if granuleOf s e0.next = .dirty then .clean else granuleOf s e0.next)
      ∧ mapGet {} t.scrubs op = { e0 with next := e0.next + 8192 })
    ∧ exec .bzero s = .next (ackPriv (zeroBanks s (argN s 1) (argN s 2) (argN s 3 % 256)) op)
    ∧ (let lo := argN s 2 % 2 ^ 16
       let n := argN s 2 / 2 ^ 16 % 2 ^ 16
       exec .chzero s = .next (ackPriv (zeroSaved s fun t =>
         dieOf t == argN s 1 && decide (lo ≤ storeUnit s t) && decide (storeUnit s t < min 384 (lo + n))) op)
       ∧ ∀ p : Nat → Bool,
         (∀ t, getTh (zeroSaved s p) t = if isSaved t = true ∧ p t = true then zeroedTh (getTh s t) else getTh s t)
         ∧ ∀ e ∈ (zeroSaved s p).saved, ∀ c ∈ e.2.mem, p (bankId s e.1 c.1) = false)

/-- 11 R294 to R298; 15 R347: a pre-emption stops the partition's threads and saves their contexts once nothing is under
way; a resume gives the partition its slots, a new instar and its contexts, and passes over a sliced one without work; at
the end of a slice another member is let in or the slice is renewed; a request for a hold or a migration takes the place of
a weaker one, a migration waits for a commit, and a hold freezes a saved partition as it is. That CONTEXT_SAVE looks again
after 64 cycles is the model's (log 28, DESIGN CHOICE). That a hold freezes a saved partition, a migration waits for a
commit, a sliced partition without work is passed over and a picked member keeps its place is log 51 (DEDUCED), and that a
request behind a commit looks again after 8 cycles log 28 (DESIGN CHOICE). -/
def Obligations.PreemptionEventsTakeEffect : Prop :=
  ∀ s : State,
    let vf := argN s 0
    let v := getVf s vf
    let s1 := (partThreads s vf).foldl stopParked s
    (switching s vf = false → v.pre = .none → v.resident = true → ∃ t : State, exec .preemptionRequest s = .next t
      ∧ getVf t vf = { v with pre := .stopping (argN s 1) } ∧ (∀ u, u ≠ vf → getVf t u = getVf s u)
      ∧ (∃ i ∈ t.agenda, i.cycle = s.mer + 8 ∧ i.ev = .contextSave ∧ i.args = [vf])
      ∧ (∀ u, getTh t u = getTh s u ∨ getTh t u = { landUpto (getTh s u) s.mer with st := .stopped, inPlace := true }
        ∨ ((getTh s u).st = .populated ∧ getTh t u = { getTh s u with st := .stopped, inPlace := true, unborn := true }))
      ∧ t.mem = s.mem)
    ∧ (∀ w, switching s vf = false → v.pre = .stopping w →
      let y := argN s 1
      (y ≠ 2 ∨ w ≠ 1 → exec .preemptionRequest s = .next (modVf s vf fun x =>
        { x with pre := .stopping (if y = 3 ∨ (y = 2 ∧ (w = 0 ∨ w = 4)) then y else w) }))
      ∧ (y = 2 → w = 1 → exec .preemptionRequest s = .next (sched s (s.mer + 8) .preemptionRequest [vf, 2])))
    ∧ (∀ w, switching s vf = false → v.pre = .saved w →
      (argN s 1 ≠ 2 → argN s 1 ≠ 3 ∨ v.tstop = true → exec .preemptionRequest s = .next s)
      ∧ (argN s 1 = 3 → v.tstop = false → exec .preemptionRequest s = .next (stopVf s vf))
      ∧ (argN s 1 = 2 → w = 1 → exec .preemptionRequest s = .next (sched s (s.mer + 8) .preemptionRequest [vf, 2])))
    ∧ (∀ why, v.pre = .stopping why → v.tstop = true → exec .contextSave s = .next s)
    ∧ (∀ why, v.pre = .stopping why → v.tstop = false → why ≠ 3 →
      (saveReady s1 vf = false → argN s 1 ≠ 1 → exec .contextSave s = .next (sched s1 (s.mer + 64) .contextSave [vf]))
      ∧ (saveReady s1 vf = true → exec .contextSave s = .next (saveNow s1 vf why)
        ∧ (why = 1 ∨ why = 2 →
          saveNow s1 vf why = wakeRotation (saveContexts s1 vf why) vf (getVf s1 vf).layout)))
    ∧ (v.layout.slots ≠ 0 → v.resident = false → v.tstop = false → switching s vf = false →
      ((∃ why, v.pre = .saved why ∧ why ≠ 1 ∧ why ≠ 2) ∧ (v.layout.mode = 0 ∨ hasWork s vf = true))
        ∨ (v.pre = .none ∧ v.layout.mode = 1 ∧ hasWork s vf = true) →
      (slotsFree s vf = true → v.picked = true ∨ keptOut s vf = false → exec .partitionResume s = .next (resumePart s vf))
      ∧ (slotsFree s vf = false ∨ (v.picked = false ∧ keptOut s vf = true) → v.waitFrom ≠ 0 →
        exec .partitionResume s = .next (sched (modVf s vf id) (s.mer + sliceOf s vf) .partitionResume [vf])))
    ∧ (∀ why, v.pre = .saved why → v.layout.mode = 1 → hasWork s vf = false →
      exec .partitionResume s = .next (passOn s vf)
      ∧ (v.picked = false → passOn s vf = modVf s vf fun x => { x with picked := false }))
    ∧ (v.resident = true → v.layout.mode = 1 → v.pre = .none → v.sliceTill = s.mer →
      (nextMember s vf = none → exec .sliceEnd s
        = .next (sched (modVf s vf fun x => { x with sliceTill := s.mer + sliceOf s vf }) (s.mer + sliceOf s vf) .sliceEnd [vf]))
      ∧ ∀ w, nextMember s vf = some w → exec .sliceEnd s = .next (sched s s.mer .preemptionRequest [vf, 0]))

/-- 18 R385, R386, R389 to R396; 11 R291; 12 R321: a record that arrives is admitted: it merges with an entry of its page,
takes a place, waits, is counted or overflows, which freezes its partition; TQPOP takes the oldest entry; each SUPCMD acts
on the thread it names and leaves its result: CONTINUE resumes NEXTPC with DSL and TGT and re-enters a held park, RESTART
sets the thread to its checkpoint, KILL ends its launch, STOP freezes it; a replay carries the held requests of its page on,
an unfixable page fails them and a deadline those of its entry. An action on a thread of a partition that is held frozen
waits (log 51, DEDUCED), and what waits is looked at again after 8 cycles (log 28, DESIGN CHOICE). When firmware acts on
fatal records, what overflow freezes and keeps, and what a park held over a freeze goes back to are logs 22, 23, 16 and 47
(DEDUCED). -/
def Obligations.SupervisorActionsTakeEffect : Prop :=
  (∀ s : State,
       let op := argN s 0
       let col := argN s 1
       let c := getCol s col
       let x := supTarget s
       let th := getTh s x.1
       let p := replayTarget s
       let done (y : State) (n : Nat) : State := ackPriv (modCol y col fun z => { z with supstat := n }) op
       (∀ r rest, (getCol s op).svc = r :: rest →
         exec .faultRecordArrive s = .next (admitRec (modCol s op fun z => { z with svc := rest }) op r))
       ∧ (c.input = [] → exec .tqpop s = .next (ackPriv (modCol s col fun z => { z with queue := z.queue.tail }) op))
       ∧ exec .tqovfnClear s = .next (ackPriv (modCol s col fun z => { z with ovf := 0, ovfn := 0, ovq := [] }) op)
       ∧ exec .badAction s = .next (done s 4)
       ∧ (x.2 = 0 →
         (th.st = .frozen → th.frec.fatal = false →
           let waits : Prop := heldFrozen s x.1 = true
           (isClean s x.1 = true → ¬ waits → exec .supContinue s = .next (done (continueTh s x.1) 0))
           ∧ (isClean s x.1 = false ∨ waits → exec .supContinue s = .next (sched s (s.mer + 8) .supContinue s.args))
           ∧ (th.ckpt.mUpto = none → ¬ waits → exec .supRestart s = .next (done (restartTh s x.1) 0))
           ∧ (th.ckpt.mUpto ≠ none ∨ waits → exec .supRestart s = .next (sched s (s.mer + 8) .supRestart s.args)))
         ∧ (th.st = .frozen → th.frec.fatal = true →
           exec .supContinue s = .next (done s 2) ∧ exec .supRestart s = .next (done s 2))
         ∧ (th.st ≠ .frozen → exec .supContinue s = .next (done s 1) ∧ exec .supRestart s = .next (done s 1))
         ∧ (heldFrozen s x.1 = false → exec .supKill s
           = .next (done (killLaunch s th.lid (if th.st = .frozen then th.fault else 0) false) 0))
         ∧ (heldFrozen s x.1 = true → exec .supKill s = .next (sched s (s.mer + 8) .supKill s.args))
         ∧ (th.st = .running → exec .supStop s = .next (done (stopTh s x.1) 0))
         ∧ (th.st = .frozen → exec .supStop s = .next (done s (if argN s 3 = 1 ∧ th.fault = 0 then 0 else 1)))
         ∧ (th.st = .exited → exec .supStop s = .next (done s 5)))
       ∧ (x.2 ≠ 0 → exec .supContinue s = .next (done s x.2) ∧ exec .supRestart s = .next (done s x.2)
         ∧ exec .supKill s = .next (done s x.2)
         ∧ exec .supStop s = .next (done (modTh s x.1 fun y => { y with stopAsked := false }) x.2))
       ∧ exec .replaypgReplay s = .next (ackPriv (replayPages s p.1 p.2.1 p.2.2 4096) op)
       ∧ exec .replaypgUnfixable s = .next (ackPriv (failPage s p.1 p.2.1 p.2.2) op)
       ∧ exec .faultDeadlineExpire s = .next (failThese s (argN s 0) (argN s 1) (argN s 2) (s.args.drop 3)))
  ∧ ((∀ (s : State) (col : Nat) (r : FaultRec),
       let c := getCol s col
       let t := admitRec s col r
       let plain := (c.queue.filter fun e => !e.2).length
       let kept := (c.queue.filter fun e => e.2).length
       let same (e : FaultRec) : Prop :=
         e.code = 0x20 ∧ r.code = 0x20 ∧ e.vf = r.vf ∧ e.cause = r.cause ∧ e.addr = r.addr
       let alone : Prop := (∀ e ∈ c.queue, ¬ same e.1) ∧ ∀ e ∈ c.input, ¬ same e
       let fatal : Prop := r.code = 0x08 ∨ r.code = 0x10 ∨ r.code = 0x21 ∨ r.code = 0x23 ∨ r.code = 0x25
       let info : Prop := r.code = 0x22 ∨ r.code = 0x24
       (∀ l1 e b l2, c.queue = l1 ++ (e, b) :: l2 → (∀ y ∈ l1, ¬ same y.1) → same e →
         t = moreXlate (modCol s col fun x => { x with queue := l1 ++ (mergeRec e r, b) :: l2 }) e r)
       ∧ (alone → fatal →
         (plain < 60 → t = recover (enterQueue s col r false) r.heal)
         ∧ (60 ≤ plain → kept < 4 → t = recover (enterQueue s col r true) r.heal)
         ∧ (60 ≤ plain → 4 ≤ kept → t = overflow s col r))
       ∧ (alone → info → (plain < 60 → t = enterQueue s col r false)
         ∧ (60 ≤ plain → getCol t col = (if r.code = 0x22 then { c with sumMissed := min (c.sumMissed + 1) (2 ^ 32 - 1) }
             else { c with sumLatent := min (c.sumLatent + 1) (2 ^ 32 - 1) }) ∧ t.threads = s.threads))
       ∧ (alone → ¬ fatal → ¬ info → (plain < 60 → c.input = [] → t = enterQueue s col r false)
         ∧ (60 ≤ plain ∨ c.input ≠ [] → t = modCol s col fun x => { x with input := x.input ++ [r] }))
       ∧ (r.code ≠ 0x20 → ∀ res, getCol (enterQueue s col r res) col = { c with queue := c.queue ++ [(r, res)] })
       ∧ (let z := overflow s col r
          let d := getCol z col
          (∀ u ∈ partThreads s r.vf, (getTh s u).st = .running ∨ (getTh s u).st = .parked ∨ (getTh s u).st = .stopped
            ∨ (getTh s u).st = .saved ∨ (getTh s u).st = .populated → (getTh z u).st = .frozen ∧ (getTh z u).fault = r.code)
          ∧ (getVf z r.vf).barred = true ∧ z.mem = s.mem ∧ d.queue = c.queue
          ∧ (c.ovf = 0 → d.ovf = recWord r false 0 ∧ d.ovfn = c.ovfn)
          ∧ (c.ovf ≠ 0 → d.ovf = c.ovf ∧ d.ovfn = min (c.ovfn + 1) (2 ^ 32 - 1))))
     ∧ ∀ a b : FaultRec, a.d5 < 2 ^ 64 → a.d6 < 2 ^ 64 → a.d7 < 2 ^ 64 → b.d5 < 2 ^ 64 → b.d6 < 2 ^ 64 → b.d7 < 2 ^ 64 →
       let m := mergeRec a b
       let core (k : Nat) : Prop := k < 144 ∧ (m.d5 + m.d6 * 2 ^ 64 + m.d7 * 2 ^ 128).testBit k = true
       m.d5 = a.d5 ||| b.d5 ∧ m.d6 = a.d6 ||| b.d6 ∧ m.d7 = a.d7 ||| b.d7 ∧ m.mer = min a.mer b.mer ∧ m.ops = a.ops ++ b.ops
       ∧ (m.merged = true ↔ a.merged = true ∨ b.merged = true ∨ ∃ j k, j ≠ k ∧ core j ∧ core k)
       ∧ m = { a with d5 := m.d5, d6 := m.d6, d7 := m.d7, mer := m.mer, ops := m.ops, merged := m.merged })
  ∧ (∀ (s : State) (t : Nat),
       let th := getTh s t
       let r := th.frec
       let others (z : State) : Prop := ∀ u, u ≠ t → getTh z u = getTh s u
       let soon (n : Nat) : Prop := s.mer < n ∧ n ≤ s.mer + 8 ∧ n % 8 = t % 8
       let goes (y : Thread) : Prop :=
         y = { th with
           st := y.st, parks := y.parks, wasParked := [], fault := 0, exiting := th.exiting && r.nextpc == th.pc
           pc := r.nextpc, br := y.br, nextTurn := y.nextTurn, reached := false }
         ∧ s.mer < y.nextTurn ∧ y.nextTurn % 8 = t % 8 ∧ (r.dsl = 0 → y.br = none)
         ∧ (r.dsl ≠ 0 → ∃ rot, y.br = some { tgt := r.tgt, left := r.dsl, rot := rot })
       let c := continueTh s t
       (th.broken = none →
         (th.wasParked = [] → goes (getTh c t) ∧ (getTh c t).st = .running ∧ (getTh c t).parks = []
           ∧ (getTh c t).nextTurn ≤ s.mer + 8 ∧ others c ∧ c.mem = s.mem)
         ∧ (∀ p, th.wasParked = [p] → (∀ d, p ≠ .sync d) → (∀ n, p ≠ .sleep n) →
           goes (getTh c t) ∧ (getTh c t).st = .parked ∧ (getTh c t).parks = [p] ∧ others c ∧ c.mem = s.mem)
         ∧ (∀ d, th.wasParked = [.sync d] → ∃ z : State, goes (getTh z t) ∧ (getTh z t).st = .parked
           ∧ (getTh z t).parks = [.sync d] ∧ others z ∧ c = syncCheck z th.lid d))
       ∧ (let y := getTh (restartTh s t) t
          let k := th.ckpt
          y.pc = (if k.live.stubAt = 0 then k.pc else k.live.stubAt) ∧ (y.stub = true ↔ k.live.stubAt ≠ 0)
          ∧ y.st = .running ∧ y.fault = 0 ∧ soon y.nextTurn
          ∧ (∀ j, 0 < j → j < 32 → rdS y j = mapGet 0 k.sreg j) ∧ (∀ j, 32 ≤ j → rdS y j = rdS th j)
          ∧ (∀ j, j ≠ 0 → rdP y j = mapGet 0 k.preg j)
          ∧ y.lc = k.lc ∧ y.rrb = k.rrb ∧ y.seed = k.seed ∧ y.phase = k.phase ∧ y.cursor = k.cursor ∧ y.fmt = k.fmt
          ∧ y.tiles = k.tiles ∧ y.tbad = k.tbad ∧ y.mq = [] ∧ y.pend = [] ∧ y.br = none ∧ y.parks = [] ∧ y.wasParked = []
          ∧ y.spcnt = 0 ∧ y.fst = th.fst ∧ y.tst = th.tst ∧ y.pres = th.pres ∧ y.inbox = th.inbox
          ∧ y.latA = 0 ∧ y.latB = 0 ∧ y.latC = 0 ∧ y.hist1 = false ∧ y.hist2 = false
          ∧ y.e0 = ((th.popped.filterMap fun e => if e.1 = 0 then some e.2 else none) ++ th.e0).filter (fun e => e.region != th.region)
          ∧ y.e1 = ((th.popped.filterMap fun e => if e.1 = 1 then some e.2 else none) ++ th.e1).filter (fun e => e.region != th.region)
          ∧ y.e2 = ((th.popped.filterMap fun e => if e.1 = 2 then some e.2 else none) ++ th.e2).filter (fun e => e.region != th.region)
          ∧ y.e3 = ((th.popped.filterMap fun e => if e.1 = 3 then some e.2 else none) ++ th.e3).filter (fun e => e.region != th.region)
          ∧ (∀ w q, (w, q) ∈ (restartTh s t).feq → ∀ e ∈ q, e.t ≠ t) ∧ others (restartTh s t) ∧ (restartTh s t).mem = s.mem)
       ∧ (let z := stopTh s t
          let y := getTh z t
          y.st = .frozen ∧ y.fault = 0 ∧ y.frec.code = 0 ∧ y.frec.pc = th.pc ∧ y.frec.nextpc = th.pc ∧ y.wasParked = th.parks
          ∧ y.parks = [] ∧ y.stopAsked = false ∧ (∀ b, th.br = some b → y.frec.dsl = b.left ∧ y.frec.tgt = b.tgt)
          ∧ (th.br = none → y.frec.dsl = 0) ∧ others z ∧ z.mem = s.mem ∧ z.cols = s.cols)
       ∧ ∀ (l code : Nat) (aborted : Bool),
         let x := getLaunch s l
         let z := killLaunch s l code aborted
         (x.done = true ∨ x.killed.isSome = true ∨ x.members = [] → z = s)
         ∧ (x.done = false → x.killed = none → x.members ≠ [] →
           (getLaunch z l).killed = some code ∧ (getLaunch z l).aborted = aborted ∧ z.mem = s.mem
           ∧ (∀ u ∈ x.members, (getTh s u).lid = l → (getTh s u).st ≠ .empty →
             (getTh z u).st = .exited ∧ (getTh z u).parks = [] ∧ (getTh z u).pend = [] ∧ (getTh z u).mq = [])
           ∧ ∀ u, u ∉ x.members ∨ (getTh s u).lid ≠ l → getTh z u = getTh s u))
  ∧ (∀ (s : State) (id : Nat),
       let o := getOp s id
       let s0 := modOp s id fun x => { x with held := none }
       (∀ page, o.held = some page →
         (o.retry = .nop → o.watching = false → replayOp s id = sched s0 s.mer .copyTranslate
           [id, o.pages.findIdx fun g => g.page == page && g.pa.isNone])
         ∧ (o.retry ≠ .nop → replayOp s id = sched (delOp s id) s.mer o.retry o.rargs))
       ∧ (∀ vf sub base len,
         let here (y : Op) : Prop := y.vf = vf ∧ y.sub = sub ∧ ∃ p, y.held = some p ∧ base ≤ p ∧ p < base + len
         let gone (i : Item) : Prop := i.ev = .faultDeadlineExpire ∧ i.args.getD 0 0 = vf ∧ i.args.getD 1 0 = sub
           ∧ base ≤ i.args.getD 2 0 ∧ i.args.getD 2 0 < base + len
         ((∀ e ∈ s.ops, ¬ here e.2) → (replayPages s vf sub base len).ops = s.ops
           ∧ ∀ i, i ∈ (replayPages s vf sub base len).agenda ↔ i ∈ s.agenda ∧ ¬ gone i)
         ∧ (∀ y, s.ops = [(id, y)] → here y → ∃ z : State, z.ops = s.ops ∧ z.mem = s.mem ∧ z.mer = s.mer
           ∧ (∀ i, i ∈ z.agenda ↔ i ∈ s.agenda ∧ ¬ gone i) ∧ replayPages s vf sub base len = replayOp z id))
       ∧ (∀ vf sub page, (∀ e ∈ s.ops, ¬ (e.2.vf = vf ∧ e.2.sub = sub ∧ e.2.held = some page)) →
         (failPage s vf sub page).ops = s.ops ∧ (failPage s vf sub page).threads = s.threads)
       ∧ (∀ vf sub page y, s.ops = [(id, y)] → y.vf = vf → y.sub = sub → y.held = some page →
         ∃ z : State, z.ops = s.ops ∧ z.mem = s.mem ∧ z.mer = s.mer ∧ z.threads = s.threads ∧ failPage s vf sub page = unfixable z id)
       ∧ (∀ t l, o.thread = some t → o.lid = some l → o.node = none → o.kind ≠ .engine → (getLaunch s l).killed = none →
         let out : Prop := ∀ u ∈ (getLaunch s l).members, (getTh s u).lid = l ∧ (getTh s u).st = .exited
         (¬ out → unfixable s id = dropOp (killLaunch s0 l 0x20 false) id)
         ∧ (out → ∃ r : FaultRec, unfixable s id = sendRec (stopOp s0 id) (opCol o) r
           ∧ r.code = 0x25 ∧ r.cause = o.opc ∧ r.fatal = true ∧ r.heal = .orphan l id))
       ∧ (∀ g n, o.thread = none → o.node = some (g, n) → n ≠ 0xFFFF → o.kind ≠ .engine →
         unfixable s id = nodeFail (delOp s0 id) g n 6 0x20)
       ∧ (o.thread = none → o.kind = .engine → ∃ z : State, unfixable s id = sched z s.mer .engineRecordComplete [id]
         ∧ (getOp z id).status = 4 ∧ (getOp z id).held = none ∧ z.mem = s.mem))

/-- 01 R34, R35; 15 R344, R348; 17 R383; 19 R399, R401, R402: the nine events of the package as a whole, each of which
completes in every state: WARN and its vector; a hold takes its first cause and stops every partition; the sensors; a cold
reset leaves the reset state but for host memory, flash and a new tree key; a warm one keeps granules and keys; a management
restart ends the commands; a die's firmware restarts, the second time within 1 s as a warm reset; a watchdog expires 100 ms
or 10 ms after its last service. That cleared memory reads 0 (log 20), that MER goes on at a warm reset (log 48) and that a
new tree key is the next number (logs 10 and 48) are the model's own. -/
def Obligations.ResetsAndHoldsTakeEffect : Prop :=
  ∀ s : State,
    let warned := { s with pkg := { s.pkg with warn := true, tdie := argN s 0 } }
    let w := mapGet 0 s.pkg.wdog (argN s 0)
    let holds (i : Instr) (c die : Nat) : Prop := ∃ t : State, exec i s = .next t ∧ t.mem = s.mem ∧ t.threads = s.threads
      ∧ (s.pkg.hold ≠ 0 → t = s)
      ∧ (s.pkg.hold = 0 → t.pkg.hold = c ∧ t.pkg.holdDie = die
        ∧ ∀ e ∈ s.vfs, e.2.layout.slots ≠ 0 → e.2.resident = true → e.2.pre = .none →
          ∃ i ∈ t.agenda, i.cycle = s.mer ∧ i.ev = .preemptionRequest ∧ i.args = [e.1, 3])
    exec .thermalWarn s = .next (if s.pkg.warn then warned else raiseMsix warned 0 2)
    ∧ holds .thermalTrip 1 (argN s 0) ∧ holds .coolantFlowLoss 2 0 ∧ holds .linkDeliveryFailure 3 0
    ∧ (∃ t : State, exec .sensorRefresh s = .next t ∧ t.mem = s.mem ∧ t.threads = s.threads
      ∧ t.agenda = s.agenda ++ [{ cycle := s.mer + 4000000, seq := s.seq, ev := .sensorRefresh }]
      ∧ (s.pkg.hold ≠ 2 → t.pkg.pwr.toNat / 2 ^ 16 % 2 ^ 16 ≤ 640 → t.pkg.pwr.toNat % 2 ^ 16 ≤ 6000))
    ∧ (∃ t : State, exec .coldReset s = .next t ∧ t.mer = 0 ∧ t.threads = [] ∧ t.vfs = [] ∧ t.granules = [] ∧ t.launches = []
      ∧ t.keys = State.reset.keys ∧ t.pkg.geuth = bootTable s ∧ t.pkg.recovery = !bootOk s
      ∧ (bootOk s = true → t.scrubs = State.reset.scrubs ∧ t.pkg.treeKey = s.pkg.treeKey + 1)
      ∧ (bootOk s = false → t.scrubs = [] ∧ t.pkg.treeKey = s.pkg.treeKey)
      ∧ (Inv s → ∀ a, rdByte t.mem a = if hostBase ≤ a ∧ a < 2 ^ 100 then rdByte s.mem a else 0))
    ∧ (∃ t : State, exec .warmReset s = .next t ∧ t.mer = s.mer ∧ t.threads = [] ∧ t.launches = [] ∧ t.graphs = []
      ∧ t.granules = s.granules ∧ t.keys = s.keys ∧ (bootOk s = false → t.vfs = [] ∧ t.pkg.recovery = true))
    ∧ (argN s 1 = 0 → ∃ t : State, exec .managementRestart s = .next t ∧ t.pkg.cmdq = [] ∧ t.pkg.journal = [] ∧ t.pkg.agreed = []
      ∧ ∀ f ∈ s.pkg.cmdq, (getVf t f).cmdRun = false)
    ∧ (argN s 1 = 0 → s.pkg.cmdq = [] → s.pkg.journal = [] → s.pkg.teardowns = [] →
      ∃ t : State, exec .managementRestart s = .next t ∧ t.mem = s.mem ∧ t.threads = s.threads
        ∧ t.pkg = { s.pkg with agreed := [], table := [] })
    ∧ (let s1 := { s with agenda := s.agenda.filter fun (i : Item) => !(i.ev == Instr.managementRestart && i.args == []) }
       (argN s 1 = 1 → exec .managementRestart s = .next (sched s1 (s.mer + 400000000) .managementRestart []))
       ∧ (2 ≤ argN s 1 → exec .managementRestart s = .next s1))
    ∧ (let l := [argN s 0, 0, argN s 2]
       let s1 := { s with agenda := s.agenda.filter fun (i : Item) => !(i.ev == Instr.dieFirmwareRestart && i.args == l) }
       (argN s 1 = 0 → exec .dieFirmwareRestart s
         = .next (if w ≠ 0 ∧ s.mer < w + 4000000000 then warmReset s1 else reloadDie s1 (argN s 0)))
       ∧ (argN s 1 = 1 → exec .dieFirmwareRestart s = .next (sched s1 (s.mer + 40000000) .dieFirmwareRestart l))
       ∧ (2 ≤ argN s 1 → exec .dieFirmwareRestart s = .next s1))
    ∧ (∀ vf,
      let u := raiseMsix (modVf s vf fun x => { x with tstop := true }) vf 2
      let all : Prop := ∀ e ∈ u.vfs, e.2.layout.slots ≠ 0 → e.2.tstop = true
      (getVf u vf).tstop = true
      ∧ (s.pkg.hold ≠ 0 → s.pkg.trip = false → all → stopVf s vf = raiseMsix { u with pkg := { u.pkg with
          trip := true, tcause := s.pkg.hold, tdie := if s.pkg.hold = 1 then s.pkg.holdDie else s.pkg.tdie } } 0 2)
      ∧ (s.pkg.hold = 0 ∨ s.pkg.trip = true ∨ ¬ all → stopVf s vf = u))
    ∧ ∀ die,
      let z := reloadDie s die
      (s.graphs = [] → s.pkg.teardowns = [] →
        z.threads = s.threads.filter (fun e => !(dieOf e.1 == die && isFirmware s die (coreOf e.1)))
        ∧ z.mem = s.mem ∧ z.cols = s.cols)
      ∧ ∀ g x, s.graphs = [(g, x)] → s.pkg.teardowns = [] → x.failed = false → (∀ e ∈ s.ops, e.2.node = none) →
        ((∀ n ∈ x.nodes, n.die ≠ die) → z.graphs = s.graphs)
        ∧ ((∃ n ∈ x.nodes, n.die = die) →
          ((∃ n ∈ x.nodes, n.st = .running ∧ n.ty = 1) → ∃ y, z.graphs = [(g, y)] ∧ y.failed = true ∧ y.status = 10 ∧ y.fcode = 0
            ∧ y.nodes = x.nodes.map fun n => if n.st = .running ∧ n.ty ≠ 1 then { n with st := .done } else n)
          ∧ ((∀ n ∈ x.nodes, ¬ (n.st = .running ∧ n.ty = 1)) → x.started = true → x.recs = 0 → z.graphs = []
            ∧ (x.cpladdr ≠ 0 → x.mute = false → (getVf s x.vf).tstop = false → linkCut s x.vf = false →
              z.mem = wrMem s.mem (hostAddr (qPasid (getQ s x.vf x.q).cfg) x.cpladdr) 16
                (x.cplval + 10 * 2 ^ 64 + 0xFFFF * 2 ^ 80))))

/-- 17 R372, R383; 11 R270; 16 R353; 19 R401: after a cold reset and boot no context holds a thread, no function a layout,
every granule is DIRTY, no key slot but 0 is in use, the engines run over the whole range of their dies. That every byte
reads 0 is the model's own (log 20). -/
def Obligations.ResetState : Prop :=
  let s := State.reset
  s.mer = 0 ∧ s.launches = [] ∧ s.graphs = [] ∧ s.ops = [] ∧ s.msgs = []
  ∧ (∀ t, (getTh s t).st = .empty) ∧ (∀ v, (getVf s v).layout = {} ∧ (getVf s v).resident = false ∧ (getVf s v).locked = false)
  ∧ (∀ pa, granuleOf s pa = .dirty) ∧ (∀ k, k ≠ 0 → (keySlot s k).st = 0) ∧ (keySlot s 0).st = 1
  ∧ (∀ j, j < 8 → mapGet {} s.scrubs j
      = { lo := j / 2 * 2 ^ 39, hi := j / 2 * 2 ^ 39 + 2 ^ 37, next := j / 2 * 2 ^ 39 + j % 2 * 4096, st := 1 })
  ∧ (∀ g, (getGate s g).active = false) ∧ s.pkg.tcause = 0 ∧ s.pkg.inDom = false
  ∧ (∀ a, rdByte s.mem a = 0) ∧ Inv s

/-- The model's own invariant, 07 R185 and 00 R9: whatever step does, the one memory of the package stays in its canonical
form: addresses strictly rising, and no listed byte equal to what an unlisted one reads as. -/
def Obligations.MemoryStaysCanonical : Prop := ∀ s t : State, Inv s → step s = .next t → Inv t

/-- 02 R36, R39, R41, R67: decoding the bytes of an encoded bundle gives it back, for every well-formed bundle with every
operand at every value that its encoding admits, and the word of one well-formed slot instruction decodes to that
instruction. -/
def Obligations.DecodeOfEncode : Prop :=
  (∀ b : Bundle, b.wellFormed = true → decode (bytesOfNat 32 (encodeBundle b)) = .ok b)
  ∧ ∀ (i : Instr) (n : Nat), wellFormed i = true → (opcodeOf i).isSome = true → decodeTableWord n (encode i) = some i

/-- 02 R36, R39, 04 R105: words written out from the encodings: the EXTR of R105's example, and a VADD, an MZERO, an LD and
a SEND alone in their bundles decode to those instructions; an unassigned opcode and a reserved header bit are rejected. -/
def Obligations.WrittenWordsDecode : Prop :=
  decodeTableWord 256 0x2D0C400012C8000000000000000000000000000000000000000000000000
      = some (.extr { d := 3, a := 4, fn := 0x12C8 })
  ∧ decodeTableWord 256 0x11461C02080000000000000000000000000000000000000
      = some (.vadd { d := 5, a := 6, b := 7, p := 1, ty := 2 })
  ∧ decodeTableWord 256 0x92000000000000000000000000000000000 = some (.mzero { acc := 1 })
  ∧ decodeTableWord 256 0x12447FFFFF8000000000000 = some (.ldL { d := 9, a := 4, sz := 3, imm := 0x1FFFFF8 })
  ∧ decodeTableWord 256 0x100C340401F = some (.send { a := 12, b := 13, p := 2, idx := 31 })
  ∧ decodeTableWord 256 0 = some .nop
  ∧ decodeTableWord 256 0xFF0000000000000000000000000000000000000000000000000000000000 = none
  ∧ decodeTableWord 256 (2 ^ 240) = none

/-- 07 R185: the local space of a partition on a core: different words lie at different places, inside the core's 256 KiB,
and two partitions with no slot in common never name the same word; word w lies at row w / 8k of its bank. Where the array
of a core stands is the model's choice (log 1). -/
def Obligations.LocalSpacesAreDisjoint : Prop :=
  ∀ (s : State) (u v die core x y : Nat), core < 256 → 8 * x < localSize s u → 8 * y < localSize s v →
    (u = v → localWord s u die core x = localWord s v die core y → x = y)
    ∧ ((∀ k, k < 8 → ¬ (maskHas (slotsOf s u) k = true ∧ maskHas (slotsOf s v) k = true)) →
      localWord s u die core x ≠ localWord s v die core y)
    ∧ scratchBase die core ≤ 8 * localWord s u die core x
    ∧ 8 * localWord s u die core x + 8 ≤ scratchBase die core + 2 ^ 18
    ∧ ∀ q : List Nat, q.Pairwise (· < ·) → (∀ k, k ∈ q ↔ k < 8 ∧ maskHas (slotsOf s u) k = true) →
      localSize s u = 32768 * q.length
      ∧ let j := x % (8 * q.length)
        8 * localWord s u die core x
          = scratchBase die core + (8 * q.getD (j / 8) 0 + j % 8) * 4096 + x / (8 * q.length) * 8
end

