-- ==== Sys2Proof/Laws/State.lean ====
section
/-! SUPPORT. The laws of maps and of the named operations over State: what each reads as after an update, and one lemma per field
that an update leaves alone. -/

namespace Sys2Proof.Machine

variable {α : Type}

@[simp] theorem mapGet_nil (d : α) (i : Nat) : mapGet d [] i = d := rfl

/-- A key reads as what was listed at it. -/
@[simp] theorem mapGet_mapPut_self (d : α) (m : Map α) (i : Nat) (v : α) : mapGet d (mapPut m i v) i = v := by
  induction m with
  | nil => simp [mapPut, mapGet]
  | cons e t ih =>
    obtain ⟨k, x⟩ := e
    by_cases h : i = k
    · simp [mapPut, mapGet, h]
    · by_cases h2 : i < k
      · simp [mapPut, mapGet, h, h2]
      · simp [mapPut, mapGet, h, h2, ih]

/-- Any other key reads as before. -/
theorem mapGet_mapPut_ne (d : α) (m : Map α) {i j : Nat} (v : α) (hj : j ≠ i) :
    mapGet d (mapPut m i v) j = mapGet d m j := by
  induction m with
  | nil => simp [mapPut, mapGet, hj]
  | cons e t ih =>
    obtain ⟨k, x⟩ := e
    by_cases h : i = k
    · subst h; simp [mapPut, mapGet, hj]
    · by_cases h2 : i < k
      · have h3 : j < i → ¬ (j = k) ∧ j < k := by omega
        by_cases h4 : j < i
        · simp [mapPut, mapGet, h, h2, hj, h4, h3 h4]
        · simp [mapPut, mapGet, h, h2, hj, h4]
      · simp only [mapPut, mapGet, h, h2, if_false]
        simp only [ih]

@[simp] theorem mapGet_mapSet_self [DecidableEq α] (d : α) (m : Map α) (i : Nat) (v : α) :
    mapGet d (mapSet d m i v) i = v := by
  unfold mapSet; split <;> simp_all

theorem mapGet_mapSet_ne [DecidableEq α] (d e : α) (m : Map α) {i j : Nat} (v : α) (hj : j ≠ i) :
    mapGet d (mapSet e m i v) j = mapGet d m j := by
  unfold mapSet; split
  · rfl
  · exact mapGet_mapPut_ne d m v hj

/-- Making a key read as it does changes nothing. -/
@[simp] theorem mapSet_mapGet [DecidableEq α] (d : α) (m : Map α) (i : Nat) : mapSet d m i (mapGet d m i) = m := by
  simp [mapSet]

@[simp] theorem getTh_putTh (s : State) (t : Nat) (x : Thread) : getTh (putTh s t x) t = x := by simp [getTh, putTh]
theorem getTh_putTh_ne (s : State) {t u : Nat} (x : Thread) (h : u ≠ t) : getTh (putTh s t x) u = getTh s u := by
  simp [getTh, putTh, mapGet_mapSet_ne _ _ _ _ h]
@[simp] theorem putTh_getTh (s : State) (t : Nat) : putTh s t (getTh s t) = s := by simp [getTh, putTh]
@[simp] theorem getTh_modTh (s : State) (t : Nat) (f : Thread → Thread) : getTh (modTh s t f) t = f (getTh s t) := by
  simp [modTh]
theorem getTh_modTh_ne (s : State) {t u : Nat} (f : Thread → Thread) (h : u ≠ t) : getTh (modTh s t f) u = getTh s u := by
  simp [modTh, getTh_putTh_ne _ _ h]
@[simp] theorem curTh_modCur (s : State) (f : Thread → Thread) : curTh (modCur s f) = f (curTh s) := by
  simp [curTh, modCur, modTh, getTh, putTh]
theorem getTh_modCur_ne (s : State) {u : Nat} (f : Thread → Thread) (h : u ≠ s.cur) : getTh (modCur s f) u = getTh s u :=
  getTh_modTh_ne s f h
@[simp] theorem getVf_modVf (s : State) (v : Nat) (f : Vf → Vf) : getVf (modVf s v f) v = f (getVf s v) := by
  simp [getVf, modVf]
theorem getVf_modVf_ne (s : State) {v u : Nat} (f : Vf → Vf) (h : u ≠ v) : getVf (modVf s v f) u = getVf s u := by
  simp [getVf, modVf, mapGet_mapSet_ne _ _ _ _ h]
@[simp] theorem getLaunch_modLaunch (s : State) (l : Nat) (f : Launch → Launch) :
    getLaunch (modLaunch s l f) l = f (getLaunch s l) := by simp [getLaunch, modLaunch]
theorem getLaunch_modLaunch_ne (s : State) {l u : Nat} (f : Launch → Launch) (h : u ≠ l) :
    getLaunch (modLaunch s l f) u = getLaunch s u := by simp [getLaunch, modLaunch, mapGet_mapSet_ne _ _ _ _ h]
@[simp] theorem getOp_modOp (s : State) (o : Nat) (f : Op → Op) : getOp (modOp s o f) o = f (getOp s o) := by
  simp [getOp, modOp]
theorem getOp_modOp_ne (s : State) {o u : Nat} (f : Op → Op) (h : u ≠ o) : getOp (modOp s o f) u = getOp s u := by
  simp [getOp, modOp, mapGet_mapSet_ne _ _ _ _ h]
@[simp] theorem getCol_modCol (s : State) (c : Nat) (f : Collector → Collector) :
    getCol (modCol s c f) c = f (getCol s c) := by simp [getCol, modCol]
theorem getCol_modCol_ne (s : State) {c u : Nat} (f : Collector → Collector) (h : u ≠ c) :
    getCol (modCol s c f) u = getCol s u := by simp [getCol, modCol, mapGet_mapSet_ne _ _ _ _ h]
@[simp] theorem getGraph_modGraph (s : State) (g : Nat) (f : Graph → Graph) :
    getGraph (modGraph s g f) g = f (getGraph s g) := by simp [getGraph, modGraph]
theorem getGraph_modGraph_ne (s : State) {g u : Nat} (f : Graph → Graph) (h : u ≠ g) :
    getGraph (modGraph s g f) u = getGraph s u := by simp [getGraph, modGraph, mapGet_mapSet_ne _ _ _ _ h]
@[simp] theorem poisoned_setPoison (s : State) (w : Nat) (b : Bool) : poisoned (setPoison s w b) w = b := by
  simp [poisoned, setPoison]
theorem poisoned_setPoison_ne (s : State) {w u : Nat} (b : Bool) (h : u ≠ w) :
    poisoned (setPoison s w b) u = poisoned s u := by simp [poisoned, setPoison, mapGet_mapSet_ne _ _ _ _ h]

@[simp] theorem putTh_mer (s : State) (t : Nat) (x : Thread) : (putTh s t x).mer = s.mer := rfl
@[simp] theorem putTh_cur (s : State) (t : Nat) (x : Thread) : (putTh s t x).cur = s.cur := rfl
@[simp] theorem putTh_args (s : State) (t : Nat) (x : Thread) : (putTh s t x).args = s.args := rfl
@[simp] theorem putTh_free (s : State) (t : Nat) (x : Thread) : (putTh s t x).free = s.free := rfl
@[simp] theorem putTh_seq (s : State) (t : Nat) (x : Thread) : (putTh s t x).seq = s.seq := rfl
@[simp] theorem putTh_agenda (s : State) (t : Nat) (x : Thread) : (putTh s t x).agenda = s.agenda := rfl
@[simp] theorem putTh_inputs (s : State) (t : Nat) (x : Thread) : (putTh s t x).inputs = s.inputs := rfl
@[simp] theorem putTh_mem (s : State) (t : Nat) (x : Thread) : (putTh s t x).mem = s.mem := rfl
@[simp] theorem putTh_poison (s : State) (t : Nat) (x : Thread) : (putTh s t x).poison = s.poison := rfl
@[simp] theorem putTh_flips (s : State) (t : Nat) (x : Thread) : (putTh s t x).flips = s.flips := rfl
@[simp] theorem putTh_empties (s : State) (t : Nat) (x : Thread) : (putTh s t x).empties = s.empties := rfl
@[simp] theorem putTh_shadows (s : State) (t : Nat) (x : Thread) : (putTh s t x).shadows = s.shadows := rfl
@[simp] theorem putTh_feq (s : State) (t : Nat) (x : Thread) : (putTh s t x).feq = s.feq := rfl
@[simp] theorem putTh_accesses (s : State) (t : Nat) (x : Thread) : (putTh s t x).accesses = s.accesses := rfl
@[simp] theorem putTh_wacts (s : State) (t : Nat) (x : Thread) : (putTh s t x).wacts = s.wacts := rfl
@[simp] theorem putTh_lines (s : State) (t : Nat) (x : Thread) : (putTh s t x).lines = s.lines := rfl
@[simp] theorem putTh_tree (s : State) (t : Nat) (x : Thread) : (putTh s t x).tree = s.tree := rfl
@[simp] theorem putTh_cached (s : State) (t : Nat) (x : Thread) : (putTh s t x).cached = s.cached := rfl
@[simp] theorem putTh_granules (s : State) (t : Nat) (x : Thread) : (putTh s t x).granules = s.granules := rfl
@[simp] theorem putTh_keys (s : State) (t : Nat) (x : Thread) : (putTh s t x).keys = s.keys := rfl
@[simp] theorem putTh_admits (s : State) (t : Nat) (x : Thread) : (putTh s t x).admits = s.admits := rfl
@[simp] theorem putTh_gates (s : State) (t : Nat) (x : Thread) : (putTh s t x).gates = s.gates := rfl
@[simp] theorem putTh_gviews (s : State) (t : Nat) (x : Thread) : (putTh s t x).gviews = s.gviews := rfl
@[simp] theorem putTh_mirrors (s : State) (t : Nat) (x : Thread) : (putTh s t x).mirrors = s.mirrors := rfl
@[simp] theorem putTh_gwaiters (s : State) (t : Nat) (x : Thread) : (putTh s t x).gwaiters = s.gwaiters := rfl
@[simp] theorem putTh_vfs (s : State) (t : Nat) (x : Thread) : (putTh s t x).vfs = s.vfs := rfl
@[simp] theorem putTh_launches (s : State) (t : Nat) (x : Thread) : (putTh s t x).launches = s.launches := rfl
@[simp] theorem putTh_ops (s : State) (t : Nat) (x : Thread) : (putTh s t x).ops = s.ops := rfl
@[simp] theorem putTh_msgs (s : State) (t : Nat) (x : Thread) : (putTh s t x).msgs = s.msgs := rfl
@[simp] theorem putTh_windows (s : State) (t : Nat) (x : Thread) : (putTh s t x).windows = s.windows := rfl
@[simp] theorem putTh_graphs (s : State) (t : Nat) (x : Thread) : (putTh s t x).graphs = s.graphs := rfl
@[simp] theorem putTh_rings (s : State) (t : Nat) (x : Thread) : (putTh s t x).rings = s.rings := rfl
@[simp] theorem putTh_cols (s : State) (t : Nat) (x : Thread) : (putTh s t x).cols = s.cols := rfl
@[simp] theorem putTh_scrubs (s : State) (t : Nat) (x : Thread) : (putTh s t x).scrubs = s.scrubs := rfl
@[simp] theorem putTh_saved (s : State) (t : Nat) (x : Thread) : (putTh s t x).saved = s.saved := rfl
@[simp] theorem putTh_invs (s : State) (t : Nat) (x : Thread) : (putTh s t x).invs = s.invs := rfl
@[simp] theorem putTh_maskFree (s : State) (t : Nat) (x : Thread) : (putTh s t x).maskFree = s.maskFree := rfl
@[simp] theorem putTh_pkg (s : State) (t : Nat) (x : Thread) : (putTh s t x).pkg = s.pkg := rfl
@[simp] theorem putTh_out (s : State) (t : Nat) (x : Thread) : (putTh s t x).out = s.out := rfl

@[simp] theorem modTh_mer (s : State) (t : Nat) (f : Thread → Thread) : (modTh s t f).mer = s.mer := rfl
@[simp] theorem modTh_cur (s : State) (t : Nat) (f : Thread → Thread) : (modTh s t f).cur = s.cur := rfl
@[simp] theorem modTh_args (s : State) (t : Nat) (f : Thread → Thread) : (modTh s t f).args = s.args := rfl
@[simp] theorem modTh_free (s : State) (t : Nat) (f : Thread → Thread) : (modTh s t f).free = s.free := rfl
@[simp] theorem modTh_seq (s : State) (t : Nat) (f : Thread → Thread) : (modTh s t f).seq = s.seq := rfl
@[simp] theorem modTh_agenda (s : State) (t : Nat) (f : Thread → Thread) : (modTh s t f).agenda = s.agenda := rfl
@[simp] theorem modTh_inputs (s : State) (t : Nat) (f : Thread → Thread) : (modTh s t f).inputs = s.inputs := rfl
@[simp] theorem modTh_mem (s : State) (t : Nat) (f : Thread → Thread) : (modTh s t f).mem = s.mem := rfl
@[simp] theorem modTh_poison (s : State) (t : Nat) (f : Thread → Thread) : (modTh s t f).poison = s.poison := rfl
@[simp] theorem modTh_flips (s : State) (t : Nat) (f : Thread → Thread) : (modTh s t f).flips = s.flips := rfl
@[simp] theorem modTh_empties (s : State) (t : Nat) (f : Thread → Thread) : (modTh s t f).empties = s.empties := rfl
@[simp] theorem modTh_shadows (s : State) (t : Nat) (f : Thread → Thread) : (modTh s t f).shadows = s.shadows := rfl
@[simp] theorem modTh_feq (s : State) (t : Nat) (f : Thread → Thread) : (modTh s t f).feq = s.feq := rfl
@[simp] theorem modTh_accesses (s : State) (t : Nat) (f : Thread → Thread) : (modTh s t f).accesses = s.accesses := rfl
@[simp] theorem modTh_wacts (s : State) (t : Nat) (f : Thread → Thread) : (modTh s t f).wacts = s.wacts := rfl
@[simp] theorem modTh_lines (s : State) (t : Nat) (f : Thread → Thread) : (modTh s t f).lines = s.lines := rfl
@[simp] theorem modTh_tree (s : State) (t : Nat) (f : Thread → Thread) : (modTh s t f).tree = s.tree := rfl
@[simp] theorem modTh_cached (s : State) (t : Nat) (f : Thread → Thread) : (modTh s t f).cached = s.cached := rfl
@[simp] theorem modTh_granules (s : State) (t : Nat) (f : Thread → Thread) : (modTh s t f).granules = s.granules := rfl
@[simp] theorem modTh_keys (s : State) (t : Nat) (f : Thread → Thread) : (modTh s t f).keys = s.keys := rfl
@[simp] theorem modTh_admits (s : State) (t : Nat) (f : Thread → Thread) : (modTh s t f).admits = s.admits := rfl
@[simp] theorem modTh_gates (s : State) (t : Nat) (f : Thread → Thread) : (modTh s t f).gates = s.gates := rfl
@[simp] theorem modTh_gviews (s : State) (t : Nat) (f : Thread → Thread) : (modTh s t f).gviews = s.gviews := rfl
@[simp] theorem modTh_mirrors (s : State) (t : Nat) (f : Thread → Thread) : (modTh s t f).mirrors = s.mirrors := rfl
@[simp] theorem modTh_gwaiters (s : State) (t : Nat) (f : Thread → Thread) : (modTh s t f).gwaiters = s.gwaiters := rfl
@[simp] theorem modTh_vfs (s : State) (t : Nat) (f : Thread → Thread) : (modTh s t f).vfs = s.vfs := rfl
@[simp] theorem modTh_launches (s : State) (t : Nat) (f : Thread → Thread) : (modTh s t f).launches = s.launches := rfl
@[simp] theorem modTh_ops (s : State) (t : Nat) (f : Thread → Thread) : (modTh s t f).ops = s.ops := rfl
@[simp] theorem modTh_msgs (s : State) (t : Nat) (f : Thread → Thread) : (modTh s t f).msgs = s.msgs := rfl
@[simp] theorem modTh_windows (s : State) (t : Nat) (f : Thread → Thread) : (modTh s t f).windows = s.windows := rfl
@[simp] theorem modTh_graphs (s : State) (t : Nat) (f : Thread → Thread) : (modTh s t f).graphs = s.graphs := rfl
@[simp] theorem modTh_rings (s : State) (t : Nat) (f : Thread → Thread) : (modTh s t f).rings = s.rings := rfl
@[simp] theorem modTh_cols (s : State) (t : Nat) (f : Thread → Thread) : (modTh s t f).cols = s.cols := rfl
@[simp] theorem modTh_scrubs (s : State) (t : Nat) (f : Thread → Thread) : (modTh s t f).scrubs = s.scrubs := rfl
@[simp] theorem modTh_saved (s : State) (t : Nat) (f : Thread → Thread) : (modTh s t f).saved = s.saved := rfl
@[simp] theorem modTh_invs (s : State) (t : Nat) (f : Thread → Thread) : (modTh s t f).invs = s.invs := rfl
@[simp] theorem modTh_maskFree (s : State) (t : Nat) (f : Thread → Thread) : (modTh s t f).maskFree = s.maskFree := rfl
@[simp] theorem modTh_pkg (s : State) (t : Nat) (f : Thread → Thread) : (modTh s t f).pkg = s.pkg := rfl
@[simp] theorem modTh_out (s : State) (t : Nat) (f : Thread → Thread) : (modTh s t f).out = s.out := rfl

@[simp] theorem modCur_mer (s : State) (f : Thread → Thread) : (modCur s f).mer = s.mer := rfl
@[simp] theorem modCur_cur (s : State) (f : Thread → Thread) : (modCur s f).cur = s.cur := rfl
@[simp] theorem modCur_args (s : State) (f : Thread → Thread) : (modCur s f).args = s.args := rfl
@[simp] theorem modCur_free (s : State) (f : Thread → Thread) : (modCur s f).free = s.free := rfl
@[simp] theorem modCur_seq (s : State) (f : Thread → Thread) : (modCur s f).seq = s.seq := rfl
@[simp] theorem modCur_agenda (s : State) (f : Thread → Thread) : (modCur s f).agenda = s.agenda := rfl
@[simp] theorem modCur_inputs (s : State) (f : Thread → Thread) : (modCur s f).inputs = s.inputs := rfl
@[simp] theorem modCur_mem (s : State) (f : Thread → Thread) : (modCur s f).mem = s.mem := rfl
@[simp] theorem modCur_poison (s : State) (f : Thread → Thread) : (modCur s f).poison = s.poison := rfl
@[simp] theorem modCur_flips (s : State) (f : Thread → Thread) : (modCur s f).flips = s.flips := rfl
@[simp] theorem modCur_empties (s : State) (f : Thread → Thread) : (modCur s f).empties = s.empties := rfl
@[simp] theorem modCur_shadows (s : State) (f : Thread → Thread) : (modCur s f).shadows = s.shadows := rfl
@[simp] theorem modCur_feq (s : State) (f : Thread → Thread) : (modCur s f).feq = s.feq := rfl
@[simp] theorem modCur_accesses (s : State) (f : Thread → Thread) : (modCur s f).accesses = s.accesses := rfl
@[simp] theorem modCur_wacts (s : State) (f : Thread → Thread) : (modCur s f).wacts = s.wacts := rfl
@[simp] theorem modCur_lines (s : State) (f : Thread → Thread) : (modCur s f).lines = s.lines := rfl
@[simp] theorem modCur_tree (s : State) (f : Thread → Thread) : (modCur s f).tree = s.tree := rfl
@[simp] theorem modCur_cached (s : State) (f : Thread → Thread) : (modCur s f).cached = s.cached := rfl
@[simp] theorem modCur_granules (s : State) (f : Thread → Thread) : (modCur s f).granules = s.granules := rfl
@[simp] theorem modCur_keys (s : State) (f : Thread → Thread) : (modCur s f).keys = s.keys := rfl
@[simp] theorem modCur_admits (s : State) (f : Thread → Thread) : (modCur s f).admits = s.admits := rfl
@[simp] theorem modCur_gates (s : State) (f : Thread → Thread) : (modCur s f).gates = s.gates := rfl
@[simp] theorem modCur_gviews (s : State) (f : Thread → Thread) : (modCur s f).gviews = s.gviews := rfl
@[simp] theorem modCur_mirrors (s : State) (f : Thread → Thread) : (modCur s f).mirrors = s.mirrors := rfl
@[simp] theorem modCur_gwaiters (s : State) (f : Thread → Thread) : (modCur s f).gwaiters = s.gwaiters := rfl
@[simp] theorem modCur_vfs (s : State) (f : Thread → Thread) : (modCur s f).vfs = s.vfs := rfl
@[simp] theorem modCur_launches (s : State) (f : Thread → Thread) : (modCur s f).launches = s.launches := rfl
@[simp] theorem modCur_ops (s : State) (f : Thread → Thread) : (modCur s f).ops = s.ops := rfl
@[simp] theorem modCur_msgs (s : State) (f : Thread → Thread) : (modCur s f).msgs = s.msgs := rfl
@[simp] theorem modCur_windows (s : State) (f : Thread → Thread) : (modCur s f).windows = s.windows := rfl
@[simp] theorem modCur_graphs (s : State) (f : Thread → Thread) : (modCur s f).graphs = s.graphs := rfl
@[simp] theorem modCur_rings (s : State) (f : Thread → Thread) : (modCur s f).rings = s.rings := rfl
@[simp] theorem modCur_cols (s : State) (f : Thread → Thread) : (modCur s f).cols = s.cols := rfl
@[simp] theorem modCur_scrubs (s : State) (f : Thread → Thread) : (modCur s f).scrubs = s.scrubs := rfl
@[simp] theorem modCur_saved (s : State) (f : Thread → Thread) : (modCur s f).saved = s.saved := rfl
@[simp] theorem modCur_invs (s : State) (f : Thread → Thread) : (modCur s f).invs = s.invs := rfl
@[simp] theorem modCur_maskFree (s : State) (f : Thread → Thread) : (modCur s f).maskFree = s.maskFree := rfl
@[simp] theorem modCur_pkg (s : State) (f : Thread → Thread) : (modCur s f).pkg = s.pkg := rfl
@[simp] theorem modCur_out (s : State) (f : Thread → Thread) : (modCur s f).out = s.out := rfl

@[simp] theorem modVf_mer (s : State) (v : Nat) (f : Vf → Vf) : (modVf s v f).mer = s.mer := rfl
@[simp] theorem modVf_cur (s : State) (v : Nat) (f : Vf → Vf) : (modVf s v f).cur = s.cur := rfl
@[simp] theorem modVf_args (s : State) (v : Nat) (f : Vf → Vf) : (modVf s v f).args = s.args := rfl
@[simp] theorem modVf_free (s : State) (v : Nat) (f : Vf → Vf) : (modVf s v f).free = s.free := rfl
@[simp] theorem modVf_seq (s : State) (v : Nat) (f : Vf → Vf) : (modVf s v f).seq = s.seq := rfl
@[simp] theorem modVf_agenda (s : State) (v : Nat) (f : Vf → Vf) : (modVf s v f).agenda = s.agenda := rfl
@[simp] theorem modVf_inputs (s : State) (v : Nat) (f : Vf → Vf) : (modVf s v f).inputs = s.inputs := rfl
@[simp] theorem modVf_threads (s : State) (v : Nat) (f : Vf → Vf) : (modVf s v f).threads = s.threads := rfl
@[simp] theorem modVf_mem (s : State) (v : Nat) (f : Vf → Vf) : (modVf s v f).mem = s.mem := rfl
@[simp] theorem modVf_poison (s : State) (v : Nat) (f : Vf → Vf) : (modVf s v f).poison = s.poison := rfl
@[simp] theorem modVf_flips (s : State) (v : Nat) (f : Vf → Vf) : (modVf s v f).flips = s.flips := rfl
@[simp] theorem modVf_empties (s : State) (v : Nat) (f : Vf → Vf) : (modVf s v f).empties = s.empties := rfl
@[simp] theorem modVf_shadows (s : State) (v : Nat) (f : Vf → Vf) : (modVf s v f).shadows = s.shadows := rfl
@[simp] theorem modVf_feq (s : State) (v : Nat) (f : Vf → Vf) : (modVf s v f).feq = s.feq := rfl
@[simp] theorem modVf_accesses (s : State) (v : Nat) (f : Vf → Vf) : (modVf s v f).accesses = s.accesses := rfl
@[simp] theorem modVf_wacts (s : State) (v : Nat) (f : Vf → Vf) : (modVf s v f).wacts = s.wacts := rfl
@[simp] theorem modVf_lines (s : State) (v : Nat) (f : Vf → Vf) : (modVf s v f).lines = s.lines := rfl
@[simp] theorem modVf_tree (s : State) (v : Nat) (f : Vf → Vf) : (modVf s v f).tree = s.tree := rfl
@[simp] theorem modVf_cached (s : State) (v : Nat) (f : Vf → Vf) : (modVf s v f).cached = s.cached := rfl
@[simp] theorem modVf_granules (s : State) (v : Nat) (f : Vf → Vf) : (modVf s v f).granules = s.granules := rfl
@[simp] theorem modVf_keys (s : State) (v : Nat) (f : Vf → Vf) : (modVf s v f).keys = s.keys := rfl
@[simp] theorem modVf_admits (s : State) (v : Nat) (f : Vf → Vf) : (modVf s v f).admits = s.admits := rfl
@[simp] theorem modVf_gates (s : State) (v : Nat) (f : Vf → Vf) : (modVf s v f).gates = s.gates := rfl
@[simp] theorem modVf_gviews (s : State) (v : Nat) (f : Vf → Vf) : (modVf s v f).gviews = s.gviews := rfl
@[simp] theorem modVf_mirrors (s : State) (v : Nat) (f : Vf → Vf) : (modVf s v f).mirrors = s.mirrors := rfl
@[simp] theorem modVf_gwaiters (s : State) (v : Nat) (f : Vf → Vf) : (modVf s v f).gwaiters = s.gwaiters := rfl
@[simp] theorem modVf_launches (s : State) (v : Nat) (f : Vf → Vf) : (modVf s v f).launches = s.launches := rfl
@[simp] theorem modVf_ops (s : State) (v : Nat) (f : Vf → Vf) : (modVf s v f).ops = s.ops := rfl
@[simp] theorem modVf_msgs (s : State) (v : Nat) (f : Vf → Vf) : (modVf s v f).msgs = s.msgs := rfl
@[simp] theorem modVf_windows (s : State) (v : Nat) (f : Vf → Vf) : (modVf s v f).windows = s.windows := rfl
@[simp] theorem modVf_graphs (s : State) (v : Nat) (f : Vf → Vf) : (modVf s v f).graphs = s.graphs := rfl
@[simp] theorem modVf_rings (s : State) (v : Nat) (f : Vf → Vf) : (modVf s v f).rings = s.rings := rfl
@[simp] theorem modVf_cols (s : State) (v : Nat) (f : Vf → Vf) : (modVf s v f).cols = s.cols := rfl
@[simp] theorem modVf_scrubs (s : State) (v : Nat) (f : Vf → Vf) : (modVf s v f).scrubs = s.scrubs := rfl
@[simp] theorem modVf_saved (s : State) (v : Nat) (f : Vf → Vf) : (modVf s v f).saved = s.saved := rfl
@[simp] theorem modVf_invs (s : State) (v : Nat) (f : Vf → Vf) : (modVf s v f).invs = s.invs := rfl
@[simp] theorem modVf_maskFree (s : State) (v : Nat) (f : Vf → Vf) : (modVf s v f).maskFree = s.maskFree := rfl
@[simp] theorem modVf_pkg (s : State) (v : Nat) (f : Vf → Vf) : (modVf s v f).pkg = s.pkg := rfl
@[simp] theorem modVf_out (s : State) (v : Nat) (f : Vf → Vf) : (modVf s v f).out = s.out := rfl

@[simp] theorem modLaunch_mer (s : State) (l : Nat) (f : Launch → Launch) : (modLaunch s l f).mer = s.mer := rfl
@[simp] theorem modLaunch_cur (s : State) (l : Nat) (f : Launch → Launch) : (modLaunch s l f).cur = s.cur := rfl
@[simp] theorem modLaunch_args (s : State) (l : Nat) (f : Launch → Launch) : (modLaunch s l f).args = s.args := rfl
@[simp] theorem modLaunch_free (s : State) (l : Nat) (f : Launch → Launch) : (modLaunch s l f).free = s.free := rfl
@[simp] theorem modLaunch_seq (s : State) (l : Nat) (f : Launch → Launch) : (modLaunch s l f).seq = s.seq := rfl
@[simp] theorem modLaunch_agenda (s : State) (l : Nat) (f : Launch → Launch) : (modLaunch s l f).agenda = s.agenda := rfl
@[simp] theorem modLaunch_inputs (s : State) (l : Nat) (f : Launch → Launch) : (modLaunch s l f).inputs = s.inputs := rfl
@[simp] theorem modLaunch_threads (s : State) (l : Nat) (f : Launch → Launch) : (modLaunch s l f).threads = s.threads := rfl
@[simp] theorem modLaunch_mem (s : State) (l : Nat) (f : Launch → Launch) : (modLaunch s l f).mem = s.mem := rfl
@[simp] theorem modLaunch_poison (s : State) (l : Nat) (f : Launch → Launch) : (modLaunch s l f).poison = s.poison := rfl
@[simp] theorem modLaunch_flips (s : State) (l : Nat) (f : Launch → Launch) : (modLaunch s l f).flips = s.flips := rfl
@[simp] theorem modLaunch_empties (s : State) (l : Nat) (f : Launch → Launch) : (modLaunch s l f).empties = s.empties := rfl
@[simp] theorem modLaunch_shadows (s : State) (l : Nat) (f : Launch → Launch) : (modLaunch s l f).shadows = s.shadows := rfl
@[simp] theorem modLaunch_feq (s : State) (l : Nat) (f : Launch → Launch) : (modLaunch s l f).feq = s.feq := rfl
@[simp] theorem modLaunch_accesses (s : State) (l : Nat) (f : Launch → Launch) : (modLaunch s l f).accesses = s.accesses := rfl
@[simp] theorem modLaunch_wacts (s : State) (l : Nat) (f : Launch → Launch) : (modLaunch s l f).wacts = s.wacts := rfl
@[simp] theorem modLaunch_lines (s : State) (l : Nat) (f : Launch → Launch) : (modLaunch s l f).lines = s.lines := rfl
@[simp] theorem modLaunch_tree (s : State) (l : Nat) (f : Launch → Launch) : (modLaunch s l f).tree = s.tree := rfl
@[simp] theorem modLaunch_cached (s : State) (l : Nat) (f : Launch → Launch) : (modLaunch s l f).cached = s.cached := rfl
@[simp] theorem modLaunch_granules (s : State) (l : Nat) (f : Launch → Launch) : (modLaunch s l f).granules = s.granules := rfl
@[simp] theorem modLaunch_keys (s : State) (l : Nat) (f : Launch → Launch) : (modLaunch s l f).keys = s.keys := rfl
@[simp] theorem modLaunch_admits (s : State) (l : Nat) (f : Launch → Launch) : (modLaunch s l f).admits = s.admits := rfl
@[simp] theorem modLaunch_gates (s : State) (l : Nat) (f : Launch → Launch) : (modLaunch s l f).gates = s.gates := rfl
@[simp] theorem modLaunch_gviews (s : State) (l : Nat) (f : Launch → Launch) : (modLaunch s l f).gviews = s.gviews := rfl
@[simp] theorem modLaunch_mirrors (s : State) (l : Nat) (f : Launch → Launch) : (modLaunch s l f).mirrors = s.mirrors := rfl
@[simp] theorem modLaunch_gwaiters (s : State) (l : Nat) (f : Launch → Launch) : (modLaunch s l f).gwaiters = s.gwaiters := rfl
@[simp] theorem modLaunch_vfs (s : State) (l : Nat) (f : Launch → Launch) : (modLaunch s l f).vfs = s.vfs := rfl
@[simp] theorem modLaunch_ops (s : State) (l : Nat) (f : Launch → Launch) : (modLaunch s l f).ops = s.ops := rfl
@[simp] theorem modLaunch_msgs (s : State) (l : Nat) (f : Launch → Launch) : (modLaunch s l f).msgs = s.msgs := rfl
@[simp] theorem modLaunch_windows (s : State) (l : Nat) (f : Launch → Launch) : (modLaunch s l f).windows = s.windows := rfl
@[simp] theorem modLaunch_graphs (s : State) (l : Nat) (f : Launch → Launch) : (modLaunch s l f).graphs = s.graphs := rfl
@[simp] theorem modLaunch_rings (s : State) (l : Nat) (f : Launch → Launch) : (modLaunch s l f).rings = s.rings := rfl
@[simp] theorem modLaunch_cols (s : State) (l : Nat) (f : Launch → Launch) : (modLaunch s l f).cols = s.cols := rfl
@[simp] theorem modLaunch_scrubs (s : State) (l : Nat) (f : Launch → Launch) : (modLaunch s l f).scrubs = s.scrubs := rfl
@[simp] theorem modLaunch_saved (s : State) (l : Nat) (f : Launch → Launch) : (modLaunch s l f).saved = s.saved := rfl
@[simp] theorem modLaunch_invs (s : State) (l : Nat) (f : Launch → Launch) : (modLaunch s l f).invs = s.invs := rfl
@[simp] theorem modLaunch_maskFree (s : State) (l : Nat) (f : Launch → Launch) : (modLaunch s l f).maskFree = s.maskFree := rfl
@[simp] theorem modLaunch_pkg (s : State) (l : Nat) (f : Launch → Launch) : (modLaunch s l f).pkg = s.pkg := rfl
@[simp] theorem modLaunch_out (s : State) (l : Nat) (f : Launch → Launch) : (modLaunch s l f).out = s.out := rfl

@[simp] theorem modOp_mer (s : State) (o : Nat) (f : Op → Op) : (modOp s o f).mer = s.mer := rfl
@[simp] theorem modOp_cur (s : State) (o : Nat) (f : Op → Op) : (modOp s o f).cur = s.cur := rfl
@[simp] theorem modOp_args (s : State) (o : Nat) (f : Op → Op) : (modOp s o f).args = s.args := rfl
@[simp] theorem modOp_free (s : State) (o : Nat) (f : Op → Op) : (modOp s o f).free = s.free := rfl
@[simp] theorem modOp_seq (s : State) (o : Nat) (f : Op → Op) : (modOp s o f).seq = s.seq := rfl
@[simp] theorem modOp_agenda (s : State) (o : Nat) (f : Op → Op) : (modOp s o f).agenda = s.agenda := rfl
@[simp] theorem modOp_inputs (s : State) (o : Nat) (f : Op → Op) : (modOp s o f).inputs = s.inputs := rfl
@[simp] theorem modOp_threads (s : State) (o : Nat) (f : Op → Op) : (modOp s o f).threads = s.threads := rfl
@[simp] theorem modOp_mem (s : State) (o : Nat) (f : Op → Op) : (modOp s o f).mem = s.mem := rfl
@[simp] theorem modOp_poison (s : State) (o : Nat) (f : Op → Op) : (modOp s o f).poison = s.poison := rfl
@[simp] theorem modOp_flips (s : State) (o : Nat) (f : Op → Op) : (modOp s o f).flips = s.flips := rfl
@[simp] theorem modOp_empties (s : State) (o : Nat) (f : Op → Op) : (modOp s o f).empties = s.empties := rfl
@[simp] theorem modOp_shadows (s : State) (o : Nat) (f : Op → Op) : (modOp s o f).shadows = s.shadows := rfl
@[simp] theorem modOp_feq (s : State) (o : Nat) (f : Op → Op) : (modOp s o f).feq = s.feq := rfl
@[simp] theorem modOp_accesses (s : State) (o : Nat) (f : Op → Op) : (modOp s o f).accesses = s.accesses := rfl
@[simp] theorem modOp_wacts (s : State) (o : Nat) (f : Op → Op) : (modOp s o f).wacts = s.wacts := rfl
@[simp] theorem modOp_lines (s : State) (o : Nat) (f : Op → Op) : (modOp s o f).lines = s.lines := rfl
@[simp] theorem modOp_tree (s : State) (o : Nat) (f : Op → Op) : (modOp s o f).tree = s.tree := rfl
@[simp] theorem modOp_cached (s : State) (o : Nat) (f : Op → Op) : (modOp s o f).cached = s.cached := rfl
@[simp] theorem modOp_granules (s : State) (o : Nat) (f : Op → Op) : (modOp s o f).granules = s.granules := rfl
@[simp] theorem modOp_keys (s : State) (o : Nat) (f : Op → Op) : (modOp s o f).keys = s.keys := rfl
@[simp] theorem modOp_admits (s : State) (o : Nat) (f : Op → Op) : (modOp s o f).admits = s.admits := rfl
@[simp] theorem modOp_gates (s : State) (o : Nat) (f : Op → Op) : (modOp s o f).gates = s.gates := rfl
@[simp] theorem modOp_gviews (s : State) (o : Nat) (f : Op → Op) : (modOp s o f).gviews = s.gviews := rfl
@[simp] theorem modOp_mirrors (s : State) (o : Nat) (f : Op → Op) : (modOp s o f).mirrors = s.mirrors := rfl
@[simp] theorem modOp_gwaiters (s : State) (o : Nat) (f : Op → Op) : (modOp s o f).gwaiters = s.gwaiters := rfl
@[simp] theorem modOp_vfs (s : State) (o : Nat) (f : Op → Op) : (modOp s o f).vfs = s.vfs := rfl
@[simp] theorem modOp_launches (s : State) (o : Nat) (f : Op → Op) : (modOp s o f).launches = s.launches := rfl
@[simp] theorem modOp_msgs (s : State) (o : Nat) (f : Op → Op) : (modOp s o f).msgs = s.msgs := rfl
@[simp] theorem modOp_windows (s : State) (o : Nat) (f : Op → Op) : (modOp s o f).windows = s.windows := rfl
@[simp] theorem modOp_graphs (s : State) (o : Nat) (f : Op → Op) : (modOp s o f).graphs = s.graphs := rfl
@[simp] theorem modOp_rings (s : State) (o : Nat) (f : Op → Op) : (modOp s o f).rings = s.rings := rfl
@[simp] theorem modOp_cols (s : State) (o : Nat) (f : Op → Op) : (modOp s o f).cols = s.cols := rfl
@[simp] theorem modOp_scrubs (s : State) (o : Nat) (f : Op → Op) : (modOp s o f).scrubs = s.scrubs := rfl
@[simp] theorem modOp_saved (s : State) (o : Nat) (f : Op → Op) : (modOp s o f).saved = s.saved := rfl
@[simp] theorem modOp_invs (s : State) (o : Nat) (f : Op → Op) : (modOp s o f).invs = s.invs := rfl
@[simp] theorem modOp_maskFree (s : State) (o : Nat) (f : Op → Op) : (modOp s o f).maskFree = s.maskFree := rfl
@[simp] theorem modOp_pkg (s : State) (o : Nat) (f : Op → Op) : (modOp s o f).pkg = s.pkg := rfl
@[simp] theorem modOp_out (s : State) (o : Nat) (f : Op → Op) : (modOp s o f).out = s.out := rfl

@[simp] theorem delOp_mer (s : State) (o : Nat) : (delOp s o).mer = s.mer := rfl
@[simp] theorem delOp_cur (s : State) (o : Nat) : (delOp s o).cur = s.cur := rfl
@[simp] theorem delOp_args (s : State) (o : Nat) : (delOp s o).args = s.args := rfl
@[simp] theorem delOp_free (s : State) (o : Nat) : (delOp s o).free = s.free := rfl
@[simp] theorem delOp_seq (s : State) (o : Nat) : (delOp s o).seq = s.seq := rfl
@[simp] theorem delOp_agenda (s : State) (o : Nat) : (delOp s o).agenda = s.agenda := rfl
@[simp] theorem delOp_inputs (s : State) (o : Nat) : (delOp s o).inputs = s.inputs := rfl
@[simp] theorem delOp_threads (s : State) (o : Nat) : (delOp s o).threads = s.threads := rfl
@[simp] theorem delOp_mem (s : State) (o : Nat) : (delOp s o).mem = s.mem := rfl
@[simp] theorem delOp_poison (s : State) (o : Nat) : (delOp s o).poison = s.poison := rfl
@[simp] theorem delOp_flips (s : State) (o : Nat) : (delOp s o).flips = s.flips := rfl
@[simp] theorem delOp_empties (s : State) (o : Nat) : (delOp s o).empties = s.empties := rfl
@[simp] theorem delOp_shadows (s : State) (o : Nat) : (delOp s o).shadows = s.shadows := rfl
@[simp] theorem delOp_feq (s : State) (o : Nat) : (delOp s o).feq = s.feq := rfl
@[simp] theorem delOp_accesses (s : State) (o : Nat) : (delOp s o).accesses = s.accesses := rfl
@[simp] theorem delOp_wacts (s : State) (o : Nat) : (delOp s o).wacts = s.wacts := rfl
@[simp] theorem delOp_lines (s : State) (o : Nat) : (delOp s o).lines = s.lines := rfl
@[simp] theorem delOp_tree (s : State) (o : Nat) : (delOp s o).tree = s.tree := rfl
@[simp] theorem delOp_cached (s : State) (o : Nat) : (delOp s o).cached = s.cached := rfl
@[simp] theorem delOp_granules (s : State) (o : Nat) : (delOp s o).granules = s.granules := rfl
@[simp] theorem delOp_keys (s : State) (o : Nat) : (delOp s o).keys = s.keys := rfl
@[simp] theorem delOp_admits (s : State) (o : Nat) : (delOp s o).admits = s.admits := rfl
@[simp] theorem delOp_gates (s : State) (o : Nat) : (delOp s o).gates = s.gates := rfl
@[simp] theorem delOp_gviews (s : State) (o : Nat) : (delOp s o).gviews = s.gviews := rfl
@[simp] theorem delOp_mirrors (s : State) (o : Nat) : (delOp s o).mirrors = s.mirrors := rfl
@[simp] theorem delOp_gwaiters (s : State) (o : Nat) : (delOp s o).gwaiters = s.gwaiters := rfl
@[simp] theorem delOp_vfs (s : State) (o : Nat) : (delOp s o).vfs = s.vfs := rfl
@[simp] theorem delOp_launches (s : State) (o : Nat) : (delOp s o).launches = s.launches := rfl
@[simp] theorem delOp_msgs (s : State) (o : Nat) : (delOp s o).msgs = s.msgs := rfl
@[simp] theorem delOp_windows (s : State) (o : Nat) : (delOp s o).windows = s.windows := rfl
@[simp] theorem delOp_graphs (s : State) (o : Nat) : (delOp s o).graphs = s.graphs := rfl
@[simp] theorem delOp_rings (s : State) (o : Nat) : (delOp s o).rings = s.rings := rfl
@[simp] theorem delOp_cols (s : State) (o : Nat) : (delOp s o).cols = s.cols := rfl
@[simp] theorem delOp_scrubs (s : State) (o : Nat) : (delOp s o).scrubs = s.scrubs := rfl
@[simp] theorem delOp_saved (s : State) (o : Nat) : (delOp s o).saved = s.saved := rfl
@[simp] theorem delOp_invs (s : State) (o : Nat) : (delOp s o).invs = s.invs := rfl
@[simp] theorem delOp_maskFree (s : State) (o : Nat) : (delOp s o).maskFree = s.maskFree := rfl
@[simp] theorem delOp_pkg (s : State) (o : Nat) : (delOp s o).pkg = s.pkg := rfl
@[simp] theorem delOp_out (s : State) (o : Nat) : (delOp s o).out = s.out := rfl

@[simp] theorem modCol_mer (s : State) (c : Nat) (f : Collector → Collector) : (modCol s c f).mer = s.mer := rfl
@[simp] theorem modCol_cur (s : State) (c : Nat) (f : Collector → Collector) : (modCol s c f).cur = s.cur := rfl
@[simp] theorem modCol_args (s : State) (c : Nat) (f : Collector → Collector) : (modCol s c f).args = s.args := rfl
@[simp] theorem modCol_free (s : State) (c : Nat) (f : Collector → Collector) : (modCol s c f).free = s.free := rfl
@[simp] theorem modCol_seq (s : State) (c : Nat) (f : Collector → Collector) : (modCol s c f).seq = s.seq := rfl
@[simp] theorem modCol_agenda (s : State) (c : Nat) (f : Collector → Collector) : (modCol s c f).agenda = s.agenda := rfl
@[simp] theorem modCol_inputs (s : State) (c : Nat) (f : Collector → Collector) : (modCol s c f).inputs = s.inputs := rfl
@[simp] theorem modCol_threads (s : State) (c : Nat) (f : Collector → Collector) : (modCol s c f).threads = s.threads := rfl
@[simp] theorem modCol_mem (s : State) (c : Nat) (f : Collector → Collector) : (modCol s c f).mem = s.mem := rfl
@[simp] theorem modCol_poison (s : State) (c : Nat) (f : Collector → Collector) : (modCol s c f).poison = s.poison := rfl
@[simp] theorem modCol_flips (s : State) (c : Nat) (f : Collector → Collector) : (modCol s c f).flips = s.flips := rfl
@[simp] theorem modCol_empties (s : State) (c : Nat) (f : Collector → Collector) : (modCol s c f).empties = s.empties := rfl
@[simp] theorem modCol_shadows (s : State) (c : Nat) (f : Collector → Collector) : (modCol s c f).shadows = s.shadows := rfl
@[simp] theorem modCol_feq (s : State) (c : Nat) (f : Collector → Collector) : (modCol s c f).feq = s.feq := rfl
@[simp] theorem modCol_accesses (s : State) (c : Nat) (f : Collector → Collector) : (modCol s c f).accesses = s.accesses := rfl
@[simp] theorem modCol_wacts (s : State) (c : Nat) (f : Collector → Collector) : (modCol s c f).wacts = s.wacts := rfl
@[simp] theorem modCol_lines (s : State) (c : Nat) (f : Collector → Collector) : (modCol s c f).lines = s.lines := rfl
@[simp] theorem modCol_tree (s : State) (c : Nat) (f : Collector → Collector) : (modCol s c f).tree = s.tree := rfl
@[simp] theorem modCol_cached (s : State) (c : Nat) (f : Collector → Collector) : (modCol s c f).cached = s.cached := rfl
@[simp] theorem modCol_granules (s : State) (c : Nat) (f : Collector → Collector) : (modCol s c f).granules = s.granules := rfl
@[simp] theorem modCol_keys (s : State) (c : Nat) (f : Collector → Collector) : (modCol s c f).keys = s.keys := rfl
@[simp] theorem modCol_admits (s : State) (c : Nat) (f : Collector → Collector) : (modCol s c f).admits = s.admits := rfl
@[simp] theorem modCol_gates (s : State) (c : Nat) (f : Collector → Collector) : (modCol s c f).gates = s.gates := rfl
@[simp] theorem modCol_gviews (s : State) (c : Nat) (f : Collector → Collector) : (modCol s c f).gviews = s.gviews := rfl
@[simp] theorem modCol_mirrors (s : State) (c : Nat) (f : Collector → Collector) : (modCol s c f).mirrors = s.mirrors := rfl
@[simp] theorem modCol_gwaiters (s : State) (c : Nat) (f : Collector → Collector) : (modCol s c f).gwaiters = s.gwaiters := rfl
@[simp] theorem modCol_vfs (s : State) (c : Nat) (f : Collector → Collector) : (modCol s c f).vfs = s.vfs := rfl
@[simp] theorem modCol_launches (s : State) (c : Nat) (f : Collector → Collector) : (modCol s c f).launches = s.launches := rfl
@[simp] theorem modCol_ops (s : State) (c : Nat) (f : Collector → Collector) : (modCol s c f).ops = s.ops := rfl
@[simp] theorem modCol_msgs (s : State) (c : Nat) (f : Collector → Collector) : (modCol s c f).msgs = s.msgs := rfl
@[simp] theorem modCol_windows (s : State) (c : Nat) (f : Collector → Collector) : (modCol s c f).windows = s.windows := rfl
@[simp] theorem modCol_graphs (s : State) (c : Nat) (f : Collector → Collector) : (modCol s c f).graphs = s.graphs := rfl
@[simp] theorem modCol_rings (s : State) (c : Nat) (f : Collector → Collector) : (modCol s c f).rings = s.rings := rfl
@[simp] theorem modCol_scrubs (s : State) (c : Nat) (f : Collector → Collector) : (modCol s c f).scrubs = s.scrubs := rfl
@[simp] theorem modCol_saved (s : State) (c : Nat) (f : Collector → Collector) : (modCol s c f).saved = s.saved := rfl
@[simp] theorem modCol_invs (s : State) (c : Nat) (f : Collector → Collector) : (modCol s c f).invs = s.invs := rfl
@[simp] theorem modCol_maskFree (s : State) (c : Nat) (f : Collector → Collector) : (modCol s c f).maskFree = s.maskFree := rfl
@[simp] theorem modCol_pkg (s : State) (c : Nat) (f : Collector → Collector) : (modCol s c f).pkg = s.pkg := rfl
@[simp] theorem modCol_out (s : State) (c : Nat) (f : Collector → Collector) : (modCol s c f).out = s.out := rfl

@[simp] theorem modGraph_mer (s : State) (g : Nat) (f : Graph → Graph) : (modGraph s g f).mer = s.mer := rfl
@[simp] theorem modGraph_cur (s : State) (g : Nat) (f : Graph → Graph) : (modGraph s g f).cur = s.cur := rfl
@[simp] theorem modGraph_args (s : State) (g : Nat) (f : Graph → Graph) : (modGraph s g f).args = s.args := rfl
@[simp] theorem modGraph_free (s : State) (g : Nat) (f : Graph → Graph) : (modGraph s g f).free = s.free := rfl
@[simp] theorem modGraph_seq (s : State) (g : Nat) (f : Graph → Graph) : (modGraph s g f).seq = s.seq := rfl
@[simp] theorem modGraph_agenda (s : State) (g : Nat) (f : Graph → Graph) : (modGraph s g f).agenda = s.agenda := rfl
@[simp] theorem modGraph_inputs (s : State) (g : Nat) (f : Graph → Graph) : (modGraph s g f).inputs = s.inputs := rfl
@[simp] theorem modGraph_threads (s : State) (g : Nat) (f : Graph → Graph) : (modGraph s g f).threads = s.threads := rfl
@[simp] theorem modGraph_mem (s : State) (g : Nat) (f : Graph → Graph) : (modGraph s g f).mem = s.mem := rfl
@[simp] theorem modGraph_poison (s : State) (g : Nat) (f : Graph → Graph) : (modGraph s g f).poison = s.poison := rfl
@[simp] theorem modGraph_flips (s : State) (g : Nat) (f : Graph → Graph) : (modGraph s g f).flips = s.flips := rfl
@[simp] theorem modGraph_empties (s : State) (g : Nat) (f : Graph → Graph) : (modGraph s g f).empties = s.empties := rfl
@[simp] theorem modGraph_shadows (s : State) (g : Nat) (f : Graph → Graph) : (modGraph s g f).shadows = s.shadows := rfl
@[simp] theorem modGraph_feq (s : State) (g : Nat) (f : Graph → Graph) : (modGraph s g f).feq = s.feq := rfl
@[simp] theorem modGraph_accesses (s : State) (g : Nat) (f : Graph → Graph) : (modGraph s g f).accesses = s.accesses := rfl
@[simp] theorem modGraph_wacts (s : State) (g : Nat) (f : Graph → Graph) : (modGraph s g f).wacts = s.wacts := rfl
@[simp] theorem modGraph_lines (s : State) (g : Nat) (f : Graph → Graph) : (modGraph s g f).lines = s.lines := rfl
@[simp] theorem modGraph_tree (s : State) (g : Nat) (f : Graph → Graph) : (modGraph s g f).tree = s.tree := rfl
@[simp] theorem modGraph_cached (s : State) (g : Nat) (f : Graph → Graph) : (modGraph s g f).cached = s.cached := rfl
@[simp] theorem modGraph_granules (s : State) (g : Nat) (f : Graph → Graph) : (modGraph s g f).granules = s.granules := rfl
@[simp] theorem modGraph_keys (s : State) (g : Nat) (f : Graph → Graph) : (modGraph s g f).keys = s.keys := rfl
@[simp] theorem modGraph_admits (s : State) (g : Nat) (f : Graph → Graph) : (modGraph s g f).admits = s.admits := rfl
@[simp] theorem modGraph_gates (s : State) (g : Nat) (f : Graph → Graph) : (modGraph s g f).gates = s.gates := rfl
@[simp] theorem modGraph_gviews (s : State) (g : Nat) (f : Graph → Graph) : (modGraph s g f).gviews = s.gviews := rfl
@[simp] theorem modGraph_mirrors (s : State) (g : Nat) (f : Graph → Graph) : (modGraph s g f).mirrors = s.mirrors := rfl
@[simp] theorem modGraph_gwaiters (s : State) (g : Nat) (f : Graph → Graph) : (modGraph s g f).gwaiters = s.gwaiters := rfl
@[simp] theorem modGraph_vfs (s : State) (g : Nat) (f : Graph → Graph) : (modGraph s g f).vfs = s.vfs := rfl
@[simp] theorem modGraph_launches (s : State) (g : Nat) (f : Graph → Graph) : (modGraph s g f).launches = s.launches := rfl
@[simp] theorem modGraph_ops (s : State) (g : Nat) (f : Graph → Graph) : (modGraph s g f).ops = s.ops := rfl
@[simp] theorem modGraph_msgs (s : State) (g : Nat) (f : Graph → Graph) : (modGraph s g f).msgs = s.msgs := rfl
@[simp] theorem modGraph_windows (s : State) (g : Nat) (f : Graph → Graph) : (modGraph s g f).windows = s.windows := rfl
@[simp] theorem modGraph_rings (s : State) (g : Nat) (f : Graph → Graph) : (modGraph s g f).rings = s.rings := rfl
@[simp] theorem modGraph_cols (s : State) (g : Nat) (f : Graph → Graph) : (modGraph s g f).cols = s.cols := rfl
@[simp] theorem modGraph_scrubs (s : State) (g : Nat) (f : Graph → Graph) : (modGraph s g f).scrubs = s.scrubs := rfl
@[simp] theorem modGraph_saved (s : State) (g : Nat) (f : Graph → Graph) : (modGraph s g f).saved = s.saved := rfl
@[simp] theorem modGraph_invs (s : State) (g : Nat) (f : Graph → Graph) : (modGraph s g f).invs = s.invs := rfl
@[simp] theorem modGraph_maskFree (s : State) (g : Nat) (f : Graph → Graph) : (modGraph s g f).maskFree = s.maskFree := rfl
@[simp] theorem modGraph_pkg (s : State) (g : Nat) (f : Graph → Graph) : (modGraph s g f).pkg = s.pkg := rfl
@[simp] theorem modGraph_out (s : State) (g : Nat) (f : Graph → Graph) : (modGraph s g f).out = s.out := rfl

@[simp] theorem setPoison_mer (s : State) (w : Nat) (b : Bool) : (setPoison s w b).mer = s.mer := rfl
@[simp] theorem setPoison_cur (s : State) (w : Nat) (b : Bool) : (setPoison s w b).cur = s.cur := rfl
@[simp] theorem setPoison_args (s : State) (w : Nat) (b : Bool) : (setPoison s w b).args = s.args := rfl
@[simp] theorem setPoison_free (s : State) (w : Nat) (b : Bool) : (setPoison s w b).free = s.free := rfl
@[simp] theorem setPoison_seq (s : State) (w : Nat) (b : Bool) : (setPoison s w b).seq = s.seq := rfl
@[simp] theorem setPoison_agenda (s : State) (w : Nat) (b : Bool) : (setPoison s w b).agenda = s.agenda := rfl
@[simp] theorem setPoison_inputs (s : State) (w : Nat) (b : Bool) : (setPoison s w b).inputs = s.inputs := rfl
@[simp] theorem setPoison_threads (s : State) (w : Nat) (b : Bool) : (setPoison s w b).threads = s.threads := rfl
@[simp] theorem setPoison_mem (s : State) (w : Nat) (b : Bool) : (setPoison s w b).mem = s.mem := rfl
@[simp] theorem setPoison_flips (s : State) (w : Nat) (b : Bool) : (setPoison s w b).flips = s.flips := rfl
@[simp] theorem setPoison_empties (s : State) (w : Nat) (b : Bool) : (setPoison s w b).empties = s.empties := rfl
@[simp] theorem setPoison_shadows (s : State) (w : Nat) (b : Bool) : (setPoison s w b).shadows = s.shadows := rfl
@[simp] theorem setPoison_feq (s : State) (w : Nat) (b : Bool) : (setPoison s w b).feq = s.feq := rfl
@[simp] theorem setPoison_accesses (s : State) (w : Nat) (b : Bool) : (setPoison s w b).accesses = s.accesses := rfl
@[simp] theorem setPoison_wacts (s : State) (w : Nat) (b : Bool) : (setPoison s w b).wacts = s.wacts := rfl
@[simp] theorem setPoison_lines (s : State) (w : Nat) (b : Bool) : (setPoison s w b).lines = s.lines := rfl
@[simp] theorem setPoison_tree (s : State) (w : Nat) (b : Bool) : (setPoison s w b).tree = s.tree := rfl
@[simp] theorem setPoison_cached (s : State) (w : Nat) (b : Bool) : (setPoison s w b).cached = s.cached := rfl
@[simp] theorem setPoison_granules (s : State) (w : Nat) (b : Bool) : (setPoison s w b).granules = s.granules := rfl
@[simp] theorem setPoison_keys (s : State) (w : Nat) (b : Bool) : (setPoison s w b).keys = s.keys := rfl
@[simp] theorem setPoison_admits (s : State) (w : Nat) (b : Bool) : (setPoison s w b).admits = s.admits := rfl
@[simp] theorem setPoison_gates (s : State) (w : Nat) (b : Bool) : (setPoison s w b).gates = s.gates := rfl
@[simp] theorem setPoison_gviews (s : State) (w : Nat) (b : Bool) : (setPoison s w b).gviews = s.gviews := rfl
@[simp] theorem setPoison_mirrors (s : State) (w : Nat) (b : Bool) : (setPoison s w b).mirrors = s.mirrors := rfl
@[simp] theorem setPoison_gwaiters (s : State) (w : Nat) (b : Bool) : (setPoison s w b).gwaiters = s.gwaiters := rfl
@[simp] theorem setPoison_vfs (s : State) (w : Nat) (b : Bool) : (setPoison s w b).vfs = s.vfs := rfl
@[simp] theorem setPoison_launches (s : State) (w : Nat) (b : Bool) : (setPoison s w b).launches = s.launches := rfl
@[simp] theorem setPoison_ops (s : State) (w : Nat) (b : Bool) : (setPoison s w b).ops = s.ops := rfl
@[simp] theorem setPoison_msgs (s : State) (w : Nat) (b : Bool) : (setPoison s w b).msgs = s.msgs := rfl
@[simp] theorem setPoison_windows (s : State) (w : Nat) (b : Bool) : (setPoison s w b).windows = s.windows := rfl
@[simp] theorem setPoison_graphs (s : State) (w : Nat) (b : Bool) : (setPoison s w b).graphs = s.graphs := rfl
@[simp] theorem setPoison_rings (s : State) (w : Nat) (b : Bool) : (setPoison s w b).rings = s.rings := rfl
@[simp] theorem setPoison_cols (s : State) (w : Nat) (b : Bool) : (setPoison s w b).cols = s.cols := rfl
@[simp] theorem setPoison_scrubs (s : State) (w : Nat) (b : Bool) : (setPoison s w b).scrubs = s.scrubs := rfl
@[simp] theorem setPoison_saved (s : State) (w : Nat) (b : Bool) : (setPoison s w b).saved = s.saved := rfl
@[simp] theorem setPoison_invs (s : State) (w : Nat) (b : Bool) : (setPoison s w b).invs = s.invs := rfl
@[simp] theorem setPoison_maskFree (s : State) (w : Nat) (b : Bool) : (setPoison s w b).maskFree = s.maskFree := rfl
@[simp] theorem setPoison_pkg (s : State) (w : Nat) (b : Bool) : (setPoison s w b).pkg = s.pkg := rfl
@[simp] theorem setPoison_out (s : State) (w : Nat) (b : Bool) : (setPoison s w b).out = s.out := rfl

@[simp] theorem putWord_mer (s : State) (w v : Nat) (b : Bool) : (putWord s w v b).mer = s.mer := rfl
@[simp] theorem putWord_cur (s : State) (w v : Nat) (b : Bool) : (putWord s w v b).cur = s.cur := rfl
@[simp] theorem putWord_args (s : State) (w v : Nat) (b : Bool) : (putWord s w v b).args = s.args := rfl
@[simp] theorem putWord_free (s : State) (w v : Nat) (b : Bool) : (putWord s w v b).free = s.free := rfl
@[simp] theorem putWord_seq (s : State) (w v : Nat) (b : Bool) : (putWord s w v b).seq = s.seq := rfl
@[simp] theorem putWord_agenda (s : State) (w v : Nat) (b : Bool) : (putWord s w v b).agenda = s.agenda := rfl
@[simp] theorem putWord_inputs (s : State) (w v : Nat) (b : Bool) : (putWord s w v b).inputs = s.inputs := rfl
@[simp] theorem putWord_threads (s : State) (w v : Nat) (b : Bool) : (putWord s w v b).threads = s.threads := rfl
@[simp] theorem putWord_empties (s : State) (w v : Nat) (b : Bool) : (putWord s w v b).empties = s.empties := rfl
@[simp] theorem putWord_shadows (s : State) (w v : Nat) (b : Bool) : (putWord s w v b).shadows = s.shadows := rfl
@[simp] theorem putWord_feq (s : State) (w v : Nat) (b : Bool) : (putWord s w v b).feq = s.feq := rfl
@[simp] theorem putWord_accesses (s : State) (w v : Nat) (b : Bool) : (putWord s w v b).accesses = s.accesses := rfl
@[simp] theorem putWord_wacts (s : State) (w v : Nat) (b : Bool) : (putWord s w v b).wacts = s.wacts := rfl
@[simp] theorem putWord_lines (s : State) (w v : Nat) (b : Bool) : (putWord s w v b).lines = s.lines := rfl
@[simp] theorem putWord_tree (s : State) (w v : Nat) (b : Bool) : (putWord s w v b).tree = s.tree := rfl
@[simp] theorem putWord_cached (s : State) (w v : Nat) (b : Bool) : (putWord s w v b).cached = s.cached := rfl
@[simp] theorem putWord_granules (s : State) (w v : Nat) (b : Bool) : (putWord s w v b).granules = s.granules := rfl
@[simp] theorem putWord_keys (s : State) (w v : Nat) (b : Bool) : (putWord s w v b).keys = s.keys := rfl
@[simp] theorem putWord_admits (s : State) (w v : Nat) (b : Bool) : (putWord s w v b).admits = s.admits := rfl
@[simp] theorem putWord_gates (s : State) (w v : Nat) (b : Bool) : (putWord s w v b).gates = s.gates := rfl
@[simp] theorem putWord_gviews (s : State) (w v : Nat) (b : Bool) : (putWord s w v b).gviews = s.gviews := rfl
@[simp] theorem putWord_mirrors (s : State) (w v : Nat) (b : Bool) : (putWord s w v b).mirrors = s.mirrors := rfl
@[simp] theorem putWord_gwaiters (s : State) (w v : Nat) (b : Bool) : (putWord s w v b).gwaiters = s.gwaiters := rfl
@[simp] theorem putWord_vfs (s : State) (w v : Nat) (b : Bool) : (putWord s w v b).vfs = s.vfs := rfl
@[simp] theorem putWord_launches (s : State) (w v : Nat) (b : Bool) : (putWord s w v b).launches = s.launches := rfl
@[simp] theorem putWord_ops (s : State) (w v : Nat) (b : Bool) : (putWord s w v b).ops = s.ops := rfl
@[simp] theorem putWord_msgs (s : State) (w v : Nat) (b : Bool) : (putWord s w v b).msgs = s.msgs := rfl
@[simp] theorem putWord_windows (s : State) (w v : Nat) (b : Bool) : (putWord s w v b).windows = s.windows := rfl
@[simp] theorem putWord_graphs (s : State) (w v : Nat) (b : Bool) : (putWord s w v b).graphs = s.graphs := rfl
@[simp] theorem putWord_rings (s : State) (w v : Nat) (b : Bool) : (putWord s w v b).rings = s.rings := rfl
@[simp] theorem putWord_cols (s : State) (w v : Nat) (b : Bool) : (putWord s w v b).cols = s.cols := rfl
@[simp] theorem putWord_scrubs (s : State) (w v : Nat) (b : Bool) : (putWord s w v b).scrubs = s.scrubs := rfl
@[simp] theorem putWord_saved (s : State) (w v : Nat) (b : Bool) : (putWord s w v b).saved = s.saved := rfl
@[simp] theorem putWord_invs (s : State) (w v : Nat) (b : Bool) : (putWord s w v b).invs = s.invs := rfl
@[simp] theorem putWord_maskFree (s : State) (w v : Nat) (b : Bool) : (putWord s w v b).maskFree = s.maskFree := rfl
@[simp] theorem putWord_pkg (s : State) (w v : Nat) (b : Bool) : (putWord s w v b).pkg = s.pkg := rfl
@[simp] theorem putWord_out (s : State) (w v : Nat) (b : Bool) : (putWord s w v b).out = s.out := rfl

@[simp] theorem noteAccess_mer (s : State) (a : Access) : (noteAccess s a).mer = s.mer := rfl
@[simp] theorem noteAccess_cur (s : State) (a : Access) : (noteAccess s a).cur = s.cur := rfl
@[simp] theorem noteAccess_args (s : State) (a : Access) : (noteAccess s a).args = s.args := rfl
@[simp] theorem noteAccess_free (s : State) (a : Access) : (noteAccess s a).free = s.free := rfl
@[simp] theorem noteAccess_seq (s : State) (a : Access) : (noteAccess s a).seq = s.seq := rfl
@[simp] theorem noteAccess_agenda (s : State) (a : Access) : (noteAccess s a).agenda = s.agenda := rfl
@[simp] theorem noteAccess_inputs (s : State) (a : Access) : (noteAccess s a).inputs = s.inputs := rfl
@[simp] theorem noteAccess_threads (s : State) (a : Access) : (noteAccess s a).threads = s.threads := rfl
@[simp] theorem noteAccess_mem (s : State) (a : Access) : (noteAccess s a).mem = s.mem := rfl
@[simp] theorem noteAccess_poison (s : State) (a : Access) : (noteAccess s a).poison = s.poison := rfl
@[simp] theorem noteAccess_flips (s : State) (a : Access) : (noteAccess s a).flips = s.flips := rfl
@[simp] theorem noteAccess_empties (s : State) (a : Access) : (noteAccess s a).empties = s.empties := rfl
@[simp] theorem noteAccess_shadows (s : State) (a : Access) : (noteAccess s a).shadows = s.shadows := rfl
@[simp] theorem noteAccess_feq (s : State) (a : Access) : (noteAccess s a).feq = s.feq := rfl
@[simp] theorem noteAccess_wacts (s : State) (a : Access) : (noteAccess s a).wacts = s.wacts := rfl
@[simp] theorem noteAccess_lines (s : State) (a : Access) : (noteAccess s a).lines = s.lines := rfl
@[simp] theorem noteAccess_tree (s : State) (a : Access) : (noteAccess s a).tree = s.tree := rfl
@[simp] theorem noteAccess_cached (s : State) (a : Access) : (noteAccess s a).cached = s.cached := rfl
@[simp] theorem noteAccess_granules (s : State) (a : Access) : (noteAccess s a).granules = s.granules := rfl
@[simp] theorem noteAccess_keys (s : State) (a : Access) : (noteAccess s a).keys = s.keys := rfl
@[simp] theorem noteAccess_admits (s : State) (a : Access) : (noteAccess s a).admits = s.admits := rfl
@[simp] theorem noteAccess_gates (s : State) (a : Access) : (noteAccess s a).gates = s.gates := rfl
@[simp] theorem noteAccess_gviews (s : State) (a : Access) : (noteAccess s a).gviews = s.gviews := rfl
@[simp] theorem noteAccess_mirrors (s : State) (a : Access) : (noteAccess s a).mirrors = s.mirrors := rfl
@[simp] theorem noteAccess_gwaiters (s : State) (a : Access) : (noteAccess s a).gwaiters = s.gwaiters := rfl
@[simp] theorem noteAccess_vfs (s : State) (a : Access) : (noteAccess s a).vfs = s.vfs := rfl
@[simp] theorem noteAccess_launches (s : State) (a : Access) : (noteAccess s a).launches = s.launches := rfl
@[simp] theorem noteAccess_ops (s : State) (a : Access) : (noteAccess s a).ops = s.ops := rfl
@[simp] theorem noteAccess_msgs (s : State) (a : Access) : (noteAccess s a).msgs = s.msgs := rfl
@[simp] theorem noteAccess_windows (s : State) (a : Access) : (noteAccess s a).windows = s.windows := rfl
@[simp] theorem noteAccess_graphs (s : State) (a : Access) : (noteAccess s a).graphs = s.graphs := rfl
@[simp] theorem noteAccess_rings (s : State) (a : Access) : (noteAccess s a).rings = s.rings := rfl
@[simp] theorem noteAccess_cols (s : State) (a : Access) : (noteAccess s a).cols = s.cols := rfl
@[simp] theorem noteAccess_scrubs (s : State) (a : Access) : (noteAccess s a).scrubs = s.scrubs := rfl
@[simp] theorem noteAccess_saved (s : State) (a : Access) : (noteAccess s a).saved = s.saved := rfl
@[simp] theorem noteAccess_invs (s : State) (a : Access) : (noteAccess s a).invs = s.invs := rfl
@[simp] theorem noteAccess_maskFree (s : State) (a : Access) : (noteAccess s a).maskFree = s.maskFree := rfl
@[simp] theorem noteAccess_pkg (s : State) (a : Access) : (noteAccess s a).pkg = s.pkg := rfl
@[simp] theorem noteAccess_out (s : State) (a : Access) : (noteAccess s a).out = s.out := rfl

@[simp] theorem sched_mer (s : State) (c : Nat) (ev : Instr) (l : List Nat) : (sched s c ev l).mer = s.mer := rfl
@[simp] theorem sched_cur (s : State) (c : Nat) (ev : Instr) (l : List Nat) : (sched s c ev l).cur = s.cur := rfl
@[simp] theorem sched_args (s : State) (c : Nat) (ev : Instr) (l : List Nat) : (sched s c ev l).args = s.args := rfl
@[simp] theorem sched_free (s : State) (c : Nat) (ev : Instr) (l : List Nat) : (sched s c ev l).free = s.free := rfl
@[simp] theorem sched_inputs (s : State) (c : Nat) (ev : Instr) (l : List Nat) : (sched s c ev l).inputs = s.inputs := rfl
@[simp] theorem sched_threads (s : State) (c : Nat) (ev : Instr) (l : List Nat) : (sched s c ev l).threads = s.threads := rfl
@[simp] theorem sched_mem (s : State) (c : Nat) (ev : Instr) (l : List Nat) : (sched s c ev l).mem = s.mem := rfl
@[simp] theorem sched_poison (s : State) (c : Nat) (ev : Instr) (l : List Nat) : (sched s c ev l).poison = s.poison := rfl
@[simp] theorem sched_flips (s : State) (c : Nat) (ev : Instr) (l : List Nat) : (sched s c ev l).flips = s.flips := rfl
@[simp] theorem sched_empties (s : State) (c : Nat) (ev : Instr) (l : List Nat) : (sched s c ev l).empties = s.empties := rfl
@[simp] theorem sched_shadows (s : State) (c : Nat) (ev : Instr) (l : List Nat) : (sched s c ev l).shadows = s.shadows := rfl
@[simp] theorem sched_feq (s : State) (c : Nat) (ev : Instr) (l : List Nat) : (sched s c ev l).feq = s.feq := rfl
@[simp] theorem sched_accesses (s : State) (c : Nat) (ev : Instr) (l : List Nat) : (sched s c ev l).accesses = s.accesses := rfl
@[simp] theorem sched_wacts (s : State) (c : Nat) (ev : Instr) (l : List Nat) : (sched s c ev l).wacts = s.wacts := rfl
@[simp] theorem sched_lines (s : State) (c : Nat) (ev : Instr) (l : List Nat) : (sched s c ev l).lines = s.lines := rfl
@[simp] theorem sched_tree (s : State) (c : Nat) (ev : Instr) (l : List Nat) : (sched s c ev l).tree = s.tree := rfl
@[simp] theorem sched_cached (s : State) (c : Nat) (ev : Instr) (l : List Nat) : (sched s c ev l).cached = s.cached := rfl
@[simp] theorem sched_granules (s : State) (c : Nat) (ev : Instr) (l : List Nat) : (sched s c ev l).granules = s.granules := rfl
@[simp] theorem sched_keys (s : State) (c : Nat) (ev : Instr) (l : List Nat) : (sched s c ev l).keys = s.keys := rfl
@[simp] theorem sched_admits (s : State) (c : Nat) (ev : Instr) (l : List Nat) : (sched s c ev l).admits = s.admits := rfl
@[simp] theorem sched_gates (s : State) (c : Nat) (ev : Instr) (l : List Nat) : (sched s c ev l).gates = s.gates := rfl
@[simp] theorem sched_gviews (s : State) (c : Nat) (ev : Instr) (l : List Nat) : (sched s c ev l).gviews = s.gviews := rfl
@[simp] theorem sched_mirrors (s : State) (c : Nat) (ev : Instr) (l : List Nat) : (sched s c ev l).mirrors = s.mirrors := rfl
@[simp] theorem sched_gwaiters (s : State) (c : Nat) (ev : Instr) (l : List Nat) : (sched s c ev l).gwaiters = s.gwaiters := rfl
@[simp] theorem sched_vfs (s : State) (c : Nat) (ev : Instr) (l : List Nat) : (sched s c ev l).vfs = s.vfs := rfl
@[simp] theorem sched_launches (s : State) (c : Nat) (ev : Instr) (l : List Nat) : (sched s c ev l).launches = s.launches := rfl
@[simp] theorem sched_ops (s : State) (c : Nat) (ev : Instr) (l : List Nat) : (sched s c ev l).ops = s.ops := rfl
@[simp] theorem sched_msgs (s : State) (c : Nat) (ev : Instr) (l : List Nat) : (sched s c ev l).msgs = s.msgs := rfl
@[simp] theorem sched_windows (s : State) (c : Nat) (ev : Instr) (l : List Nat) : (sched s c ev l).windows = s.windows := rfl
@[simp] theorem sched_graphs (s : State) (c : Nat) (ev : Instr) (l : List Nat) : (sched s c ev l).graphs = s.graphs := rfl
@[simp] theorem sched_rings (s : State) (c : Nat) (ev : Instr) (l : List Nat) : (sched s c ev l).rings = s.rings := rfl
@[simp] theorem sched_cols (s : State) (c : Nat) (ev : Instr) (l : List Nat) : (sched s c ev l).cols = s.cols := rfl
@[simp] theorem sched_scrubs (s : State) (c : Nat) (ev : Instr) (l : List Nat) : (sched s c ev l).scrubs = s.scrubs := rfl
@[simp] theorem sched_saved (s : State) (c : Nat) (ev : Instr) (l : List Nat) : (sched s c ev l).saved = s.saved := rfl
@[simp] theorem sched_invs (s : State) (c : Nat) (ev : Instr) (l : List Nat) : (sched s c ev l).invs = s.invs := rfl
@[simp] theorem sched_maskFree (s : State) (c : Nat) (ev : Instr) (l : List Nat) : (sched s c ev l).maskFree = s.maskFree := rfl
@[simp] theorem sched_pkg (s : State) (c : Nat) (ev : Instr) (l : List Nat) : (sched s c ev l).pkg = s.pkg := rfl
@[simp] theorem sched_out (s : State) (c : Nat) (ev : Instr) (l : List Nat) : (sched s c ev l).out = s.out := rfl

@[simp] theorem draw_mer (s : State) (v lo hi : Nat) : ((draw s v lo hi).2).mer = s.mer := rfl
@[simp] theorem draw_cur (s : State) (v lo hi : Nat) : ((draw s v lo hi).2).cur = s.cur := rfl
@[simp] theorem draw_args (s : State) (v lo hi : Nat) : ((draw s v lo hi).2).args = s.args := rfl
@[simp] theorem draw_seq (s : State) (v lo hi : Nat) : ((draw s v lo hi).2).seq = s.seq := rfl
@[simp] theorem draw_agenda (s : State) (v lo hi : Nat) : ((draw s v lo hi).2).agenda = s.agenda := rfl
@[simp] theorem draw_inputs (s : State) (v lo hi : Nat) : ((draw s v lo hi).2).inputs = s.inputs := rfl
@[simp] theorem draw_threads (s : State) (v lo hi : Nat) : ((draw s v lo hi).2).threads = s.threads := rfl
@[simp] theorem draw_mem (s : State) (v lo hi : Nat) : ((draw s v lo hi).2).mem = s.mem := rfl
@[simp] theorem draw_poison (s : State) (v lo hi : Nat) : ((draw s v lo hi).2).poison = s.poison := rfl
@[simp] theorem draw_flips (s : State) (v lo hi : Nat) : ((draw s v lo hi).2).flips = s.flips := rfl
@[simp] theorem draw_empties (s : State) (v lo hi : Nat) : ((draw s v lo hi).2).empties = s.empties := rfl
@[simp] theorem draw_shadows (s : State) (v lo hi : Nat) : ((draw s v lo hi).2).shadows = s.shadows := rfl
@[simp] theorem draw_feq (s : State) (v lo hi : Nat) : ((draw s v lo hi).2).feq = s.feq := rfl
@[simp] theorem draw_accesses (s : State) (v lo hi : Nat) : ((draw s v lo hi).2).accesses = s.accesses := rfl
@[simp] theorem draw_wacts (s : State) (v lo hi : Nat) : ((draw s v lo hi).2).wacts = s.wacts := rfl
@[simp] theorem draw_lines (s : State) (v lo hi : Nat) : ((draw s v lo hi).2).lines = s.lines := rfl
@[simp] theorem draw_tree (s : State) (v lo hi : Nat) : ((draw s v lo hi).2).tree = s.tree := rfl
@[simp] theorem draw_cached (s : State) (v lo hi : Nat) : ((draw s v lo hi).2).cached = s.cached := rfl
@[simp] theorem draw_granules (s : State) (v lo hi : Nat) : ((draw s v lo hi).2).granules = s.granules := rfl
@[simp] theorem draw_keys (s : State) (v lo hi : Nat) : ((draw s v lo hi).2).keys = s.keys := rfl
@[simp] theorem draw_admits (s : State) (v lo hi : Nat) : ((draw s v lo hi).2).admits = s.admits := rfl
@[simp] theorem draw_gates (s : State) (v lo hi : Nat) : ((draw s v lo hi).2).gates = s.gates := rfl
@[simp] theorem draw_gviews (s : State) (v lo hi : Nat) : ((draw s v lo hi).2).gviews = s.gviews := rfl
@[simp] theorem draw_mirrors (s : State) (v lo hi : Nat) : ((draw s v lo hi).2).mirrors = s.mirrors := rfl
@[simp] theorem draw_gwaiters (s : State) (v lo hi : Nat) : ((draw s v lo hi).2).gwaiters = s.gwaiters := rfl
@[simp] theorem draw_vfs (s : State) (v lo hi : Nat) : ((draw s v lo hi).2).vfs = s.vfs := rfl
@[simp] theorem draw_launches (s : State) (v lo hi : Nat) : ((draw s v lo hi).2).launches = s.launches := rfl
@[simp] theorem draw_ops (s : State) (v lo hi : Nat) : ((draw s v lo hi).2).ops = s.ops := rfl
@[simp] theorem draw_msgs (s : State) (v lo hi : Nat) : ((draw s v lo hi).2).msgs = s.msgs := rfl
@[simp] theorem draw_windows (s : State) (v lo hi : Nat) : ((draw s v lo hi).2).windows = s.windows := rfl
@[simp] theorem draw_graphs (s : State) (v lo hi : Nat) : ((draw s v lo hi).2).graphs = s.graphs := rfl
@[simp] theorem draw_rings (s : State) (v lo hi : Nat) : ((draw s v lo hi).2).rings = s.rings := rfl
@[simp] theorem draw_cols (s : State) (v lo hi : Nat) : ((draw s v lo hi).2).cols = s.cols := rfl
@[simp] theorem draw_scrubs (s : State) (v lo hi : Nat) : ((draw s v lo hi).2).scrubs = s.scrubs := rfl
@[simp] theorem draw_saved (s : State) (v lo hi : Nat) : ((draw s v lo hi).2).saved = s.saved := rfl
@[simp] theorem draw_invs (s : State) (v lo hi : Nat) : ((draw s v lo hi).2).invs = s.invs := rfl
@[simp] theorem draw_maskFree (s : State) (v lo hi : Nat) : ((draw s v lo hi).2).maskFree = s.maskFree := rfl
@[simp] theorem draw_pkg (s : State) (v lo hi : Nat) : ((draw s v lo hi).2).pkg = s.pkg := rfl
@[simp] theorem draw_out (s : State) (v lo hi : Nat) : ((draw s v lo hi).2).out = s.out := rfl

@[simp] theorem pushPend_mer (s : State) (d : Dest) (v m l : Nat) : (pushPend s d v m l).mer = s.mer := rfl
@[simp] theorem pushPend_cur (s : State) (d : Dest) (v m l : Nat) : (pushPend s d v m l).cur = s.cur := rfl
@[simp] theorem pushPend_args (s : State) (d : Dest) (v m l : Nat) : (pushPend s d v m l).args = s.args := rfl
@[simp] theorem pushPend_free (s : State) (d : Dest) (v m l : Nat) : (pushPend s d v m l).free = s.free := rfl
@[simp] theorem pushPend_agenda (s : State) (d : Dest) (v m l : Nat) : (pushPend s d v m l).agenda = s.agenda := rfl
@[simp] theorem pushPend_inputs (s : State) (d : Dest) (v m l : Nat) : (pushPend s d v m l).inputs = s.inputs := rfl
@[simp] theorem pushPend_mem (s : State) (d : Dest) (v m l : Nat) : (pushPend s d v m l).mem = s.mem := rfl
@[simp] theorem pushPend_poison (s : State) (d : Dest) (v m l : Nat) : (pushPend s d v m l).poison = s.poison := rfl
@[simp] theorem pushPend_flips (s : State) (d : Dest) (v m l : Nat) : (pushPend s d v m l).flips = s.flips := rfl
@[simp] theorem pushPend_empties (s : State) (d : Dest) (v m l : Nat) : (pushPend s d v m l).empties = s.empties := rfl
@[simp] theorem pushPend_shadows (s : State) (d : Dest) (v m l : Nat) : (pushPend s d v m l).shadows = s.shadows := rfl
@[simp] theorem pushPend_feq (s : State) (d : Dest) (v m l : Nat) : (pushPend s d v m l).feq = s.feq := rfl
@[simp] theorem pushPend_accesses (s : State) (d : Dest) (v m l : Nat) : (pushPend s d v m l).accesses = s.accesses := rfl
@[simp] theorem pushPend_wacts (s : State) (d : Dest) (v m l : Nat) : (pushPend s d v m l).wacts = s.wacts := rfl
@[simp] theorem pushPend_lines (s : State) (d : Dest) (v m l : Nat) : (pushPend s d v m l).lines = s.lines := rfl
@[simp] theorem pushPend_tree (s : State) (d : Dest) (v m l : Nat) : (pushPend s d v m l).tree = s.tree := rfl
@[simp] theorem pushPend_cached (s : State) (d : Dest) (v m l : Nat) : (pushPend s d v m l).cached = s.cached := rfl
@[simp] theorem pushPend_granules (s : State) (d : Dest) (v m l : Nat) : (pushPend s d v m l).granules = s.granules := rfl
@[simp] theorem pushPend_keys (s : State) (d : Dest) (v m l : Nat) : (pushPend s d v m l).keys = s.keys := rfl
@[simp] theorem pushPend_admits (s : State) (d : Dest) (v m l : Nat) : (pushPend s d v m l).admits = s.admits := rfl
@[simp] theorem pushPend_gates (s : State) (d : Dest) (v m l : Nat) : (pushPend s d v m l).gates = s.gates := rfl
@[simp] theorem pushPend_gviews (s : State) (d : Dest) (v m l : Nat) : (pushPend s d v m l).gviews = s.gviews := rfl
@[simp] theorem pushPend_mirrors (s : State) (d : Dest) (v m l : Nat) : (pushPend s d v m l).mirrors = s.mirrors := rfl
@[simp] theorem pushPend_gwaiters (s : State) (d : Dest) (v m l : Nat) : (pushPend s d v m l).gwaiters = s.gwaiters := rfl
@[simp] theorem pushPend_vfs (s : State) (d : Dest) (v m l : Nat) : (pushPend s d v m l).vfs = s.vfs := rfl
@[simp] theorem pushPend_launches (s : State) (d : Dest) (v m l : Nat) : (pushPend s d v m l).launches = s.launches := rfl
@[simp] theorem pushPend_ops (s : State) (d : Dest) (v m l : Nat) : (pushPend s d v m l).ops = s.ops := rfl
@[simp] theorem pushPend_msgs (s : State) (d : Dest) (v m l : Nat) : (pushPend s d v m l).msgs = s.msgs := rfl
@[simp] theorem pushPend_windows (s : State) (d : Dest) (v m l : Nat) : (pushPend s d v m l).windows = s.windows := rfl
@[simp] theorem pushPend_graphs (s : State) (d : Dest) (v m l : Nat) : (pushPend s d v m l).graphs = s.graphs := rfl
@[simp] theorem pushPend_rings (s : State) (d : Dest) (v m l : Nat) : (pushPend s d v m l).rings = s.rings := rfl
@[simp] theorem pushPend_cols (s : State) (d : Dest) (v m l : Nat) : (pushPend s d v m l).cols = s.cols := rfl
@[simp] theorem pushPend_scrubs (s : State) (d : Dest) (v m l : Nat) : (pushPend s d v m l).scrubs = s.scrubs := rfl
@[simp] theorem pushPend_saved (s : State) (d : Dest) (v m l : Nat) : (pushPend s d v m l).saved = s.saved := rfl
@[simp] theorem pushPend_invs (s : State) (d : Dest) (v m l : Nat) : (pushPend s d v m l).invs = s.invs := rfl
@[simp] theorem pushPend_maskFree (s : State) (d : Dest) (v m l : Nat) : (pushPend s d v m l).maskFree = s.maskFree := rfl
@[simp] theorem pushPend_pkg (s : State) (d : Dest) (v m l : Nat) : (pushPend s d v m l).pkg = s.pkg := rfl
@[simp] theorem pushPend_out (s : State) (d : Dest) (v m l : Nat) : (pushPend s d v m l).out = s.out := rfl

@[simp] theorem getTh_modVf (s : State) (v : Nat) (f : Vf → Vf) (u : Nat) : getTh (modVf s v f) u = getTh s u := rfl
@[simp] theorem getTh_modLaunch (s : State) (l : Nat) (f : Launch → Launch) (u : Nat) : getTh (modLaunch s l f) u = getTh s u := rfl
@[simp] theorem getTh_modOp (s : State) (o : Nat) (f : Op → Op) (u : Nat) : getTh (modOp s o f) u = getTh s u := rfl
@[simp] theorem getTh_delOp (s : State) (o : Nat) (u : Nat) : getTh (delOp s o) u = getTh s u := rfl
@[simp] theorem getTh_modCol (s : State) (c : Nat) (f : Collector → Collector) (u : Nat) : getTh (modCol s c f) u = getTh s u := rfl
@[simp] theorem getTh_modGraph (s : State) (g : Nat) (f : Graph → Graph) (u : Nat) : getTh (modGraph s g f) u = getTh s u := rfl
@[simp] theorem getTh_setPoison (s : State) (w : Nat) (b : Bool) (u : Nat) : getTh (setPoison s w b) u = getTh s u := rfl
@[simp] theorem getTh_putWord (s : State) (w v : Nat) (b : Bool) (u : Nat) : getTh (putWord s w v b) u = getTh s u := rfl
@[simp] theorem getTh_noteAccess (s : State) (a : Access) (u : Nat) : getTh (noteAccess s a) u = getTh s u := rfl
@[simp] theorem getTh_sched (s : State) (c : Nat) (ev : Instr) (l : List Nat) (u : Nat) : getTh (sched s c ev l) u = getTh s u := rfl
@[simp] theorem getTh_draw (s : State) (v lo hi : Nat) (u : Nat) : getTh (draw s v lo hi).2 u = getTh s u := rfl

@[simp] theorem curTh_modVf (s : State) (v : Nat) (f : Vf → Vf) : curTh (modVf s v f) = curTh s := rfl
@[simp] theorem curTh_modLaunch (s : State) (l : Nat) (f : Launch → Launch) : curTh (modLaunch s l f) = curTh s := rfl
@[simp] theorem curTh_modOp (s : State) (o : Nat) (f : Op → Op) : curTh (modOp s o f) = curTh s := rfl
@[simp] theorem curTh_delOp (s : State) (o : Nat) : curTh (delOp s o) = curTh s := rfl
@[simp] theorem curTh_modCol (s : State) (c : Nat) (f : Collector → Collector) : curTh (modCol s c f) = curTh s := rfl
@[simp] theorem curTh_modGraph (s : State) (g : Nat) (f : Graph → Graph) : curTh (modGraph s g f) = curTh s := rfl
@[simp] theorem curTh_setPoison (s : State) (w : Nat) (b : Bool) : curTh (setPoison s w b) = curTh s := rfl
@[simp] theorem curTh_putWord (s : State) (w v : Nat) (b : Bool) : curTh (putWord s w v b) = curTh s := rfl
@[simp] theorem curTh_noteAccess (s : State) (a : Access) : curTh (noteAccess s a) = curTh s := rfl
@[simp] theorem curTh_sched (s : State) (c : Nat) (ev : Instr) (l : List Nat) : curTh (sched s c ev l) = curTh s := rfl
@[simp] theorem curTh_draw (s : State) (v lo hi : Nat) : curTh (draw s v lo hi).2 = curTh s := rfl

@[simp] theorem getVf_putTh (s : State) (t : Nat) (x : Thread) (u : Nat) : getVf (putTh s t x) u = getVf s u := rfl
@[simp] theorem getVf_modTh (s : State) (t : Nat) (f : Thread → Thread) (u : Nat) : getVf (modTh s t f) u = getVf s u := rfl
@[simp] theorem getVf_modCur (s : State) (f : Thread → Thread) (u : Nat) : getVf (modCur s f) u = getVf s u := rfl
@[simp] theorem getVf_modLaunch (s : State) (l : Nat) (f : Launch → Launch) (u : Nat) : getVf (modLaunch s l f) u = getVf s u := rfl
@[simp] theorem getVf_modOp (s : State) (o : Nat) (f : Op → Op) (u : Nat) : getVf (modOp s o f) u = getVf s u := rfl
@[simp] theorem getVf_delOp (s : State) (o : Nat) (u : Nat) : getVf (delOp s o) u = getVf s u := rfl
@[simp] theorem getVf_modCol (s : State) (c : Nat) (f : Collector → Collector) (u : Nat) : getVf (modCol s c f) u = getVf s u := rfl
@[simp] theorem getVf_modGraph (s : State) (g : Nat) (f : Graph → Graph) (u : Nat) : getVf (modGraph s g f) u = getVf s u := rfl
@[simp] theorem getVf_setPoison (s : State) (w : Nat) (b : Bool) (u : Nat) : getVf (setPoison s w b) u = getVf s u := rfl
@[simp] theorem getVf_putWord (s : State) (w v : Nat) (b : Bool) (u : Nat) : getVf (putWord s w v b) u = getVf s u := rfl
@[simp] theorem getVf_noteAccess (s : State) (a : Access) (u : Nat) : getVf (noteAccess s a) u = getVf s u := rfl
@[simp] theorem getVf_sched (s : State) (c : Nat) (ev : Instr) (l : List Nat) (u : Nat) : getVf (sched s c ev l) u = getVf s u := rfl
@[simp] theorem getVf_draw (s : State) (v lo hi : Nat) (u : Nat) : getVf (draw s v lo hi).2 u = getVf s u := rfl
@[simp] theorem getVf_pushPend (s : State) (d : Dest) (v m l : Nat) (u : Nat) : getVf (pushPend s d v m l) u = getVf s u := rfl

@[simp] theorem getLaunch_putTh (s : State) (t : Nat) (x : Thread) (u : Nat) : getLaunch (putTh s t x) u = getLaunch s u := rfl
@[simp] theorem getLaunch_modTh (s : State) (t : Nat) (f : Thread → Thread) (u : Nat) : getLaunch (modTh s t f) u = getLaunch s u := rfl
@[simp] theorem getLaunch_modCur (s : State) (f : Thread → Thread) (u : Nat) : getLaunch (modCur s f) u = getLaunch s u := rfl
@[simp] theorem getLaunch_modVf (s : State) (v : Nat) (f : Vf → Vf) (u : Nat) : getLaunch (modVf s v f) u = getLaunch s u := rfl
@[simp] theorem getLaunch_modOp (s : State) (o : Nat) (f : Op → Op) (u : Nat) : getLaunch (modOp s o f) u = getLaunch s u := rfl
@[simp] theorem getLaunch_delOp (s : State) (o : Nat) (u : Nat) : getLaunch (delOp s o) u = getLaunch s u := rfl
@[simp] theorem getLaunch_modCol (s : State) (c : Nat) (f : Collector → Collector) (u : Nat) : getLaunch (modCol s c f) u = getLaunch s u := rfl
@[simp] theorem getLaunch_modGraph (s : State) (g : Nat) (f : Graph → Graph) (u : Nat) : getLaunch (modGraph s g f) u = getLaunch s u := rfl
@[simp] theorem getLaunch_setPoison (s : State) (w : Nat) (b : Bool) (u : Nat) : getLaunch (setPoison s w b) u = getLaunch s u := rfl
@[simp] theorem getLaunch_putWord (s : State) (w v : Nat) (b : Bool) (u : Nat) : getLaunch (putWord s w v b) u = getLaunch s u := rfl
@[simp] theorem getLaunch_noteAccess (s : State) (a : Access) (u : Nat) : getLaunch (noteAccess s a) u = getLaunch s u := rfl
@[simp] theorem getLaunch_sched (s : State) (c : Nat) (ev : Instr) (l : List Nat) (u : Nat) : getLaunch (sched s c ev l) u = getLaunch s u := rfl
@[simp] theorem getLaunch_draw (s : State) (v lo hi : Nat) (u : Nat) : getLaunch (draw s v lo hi).2 u = getLaunch s u := rfl
@[simp] theorem getLaunch_pushPend (s : State) (d : Dest) (v m l : Nat) (u : Nat) : getLaunch (pushPend s d v m l) u = getLaunch s u := rfl

@[simp] theorem getOp_putTh (s : State) (t : Nat) (x : Thread) (u : Nat) : getOp (putTh s t x) u = getOp s u := rfl
@[simp] theorem getOp_modTh (s : State) (t : Nat) (f : Thread → Thread) (u : Nat) : getOp (modTh s t f) u = getOp s u := rfl
@[simp] theorem getOp_modCur (s : State) (f : Thread → Thread) (u : Nat) : getOp (modCur s f) u = getOp s u := rfl
@[simp] theorem getOp_modVf (s : State) (v : Nat) (f : Vf → Vf) (u : Nat) : getOp (modVf s v f) u = getOp s u := rfl
@[simp] theorem getOp_modLaunch (s : State) (l : Nat) (f : Launch → Launch) (u : Nat) : getOp (modLaunch s l f) u = getOp s u := rfl
@[simp] theorem getOp_modCol (s : State) (c : Nat) (f : Collector → Collector) (u : Nat) : getOp (modCol s c f) u = getOp s u := rfl
@[simp] theorem getOp_modGraph (s : State) (g : Nat) (f : Graph → Graph) (u : Nat) : getOp (modGraph s g f) u = getOp s u := rfl
@[simp] theorem getOp_setPoison (s : State) (w : Nat) (b : Bool) (u : Nat) : getOp (setPoison s w b) u = getOp s u := rfl
@[simp] theorem getOp_putWord (s : State) (w v : Nat) (b : Bool) (u : Nat) : getOp (putWord s w v b) u = getOp s u := rfl
@[simp] theorem getOp_noteAccess (s : State) (a : Access) (u : Nat) : getOp (noteAccess s a) u = getOp s u := rfl
@[simp] theorem getOp_sched (s : State) (c : Nat) (ev : Instr) (l : List Nat) (u : Nat) : getOp (sched s c ev l) u = getOp s u := rfl
@[simp] theorem getOp_draw (s : State) (v lo hi : Nat) (u : Nat) : getOp (draw s v lo hi).2 u = getOp s u := rfl
@[simp] theorem getOp_pushPend (s : State) (d : Dest) (v m l : Nat) (u : Nat) : getOp (pushPend s d v m l) u = getOp s u := rfl

@[simp] theorem getCol_putTh (s : State) (t : Nat) (x : Thread) (u : Nat) : getCol (putTh s t x) u = getCol s u := rfl
@[simp] theorem getCol_modTh (s : State) (t : Nat) (f : Thread → Thread) (u : Nat) : getCol (modTh s t f) u = getCol s u := rfl
@[simp] theorem getCol_modCur (s : State) (f : Thread → Thread) (u : Nat) : getCol (modCur s f) u = getCol s u := rfl
@[simp] theorem getCol_modVf (s : State) (v : Nat) (f : Vf → Vf) (u : Nat) : getCol (modVf s v f) u = getCol s u := rfl
@[simp] theorem getCol_modLaunch (s : State) (l : Nat) (f : Launch → Launch) (u : Nat) : getCol (modLaunch s l f) u = getCol s u := rfl
@[simp] theorem getCol_modOp (s : State) (o : Nat) (f : Op → Op) (u : Nat) : getCol (modOp s o f) u = getCol s u := rfl
@[simp] theorem getCol_delOp (s : State) (o : Nat) (u : Nat) : getCol (delOp s o) u = getCol s u := rfl
@[simp] theorem getCol_modGraph (s : State) (g : Nat) (f : Graph → Graph) (u : Nat) : getCol (modGraph s g f) u = getCol s u := rfl
@[simp] theorem getCol_setPoison (s : State) (w : Nat) (b : Bool) (u : Nat) : getCol (setPoison s w b) u = getCol s u := rfl
@[simp] theorem getCol_putWord (s : State) (w v : Nat) (b : Bool) (u : Nat) : getCol (putWord s w v b) u = getCol s u := rfl
@[simp] theorem getCol_noteAccess (s : State) (a : Access) (u : Nat) : getCol (noteAccess s a) u = getCol s u := rfl
@[simp] theorem getCol_sched (s : State) (c : Nat) (ev : Instr) (l : List Nat) (u : Nat) : getCol (sched s c ev l) u = getCol s u := rfl
@[simp] theorem getCol_draw (s : State) (v lo hi : Nat) (u : Nat) : getCol (draw s v lo hi).2 u = getCol s u := rfl
@[simp] theorem getCol_pushPend (s : State) (d : Dest) (v m l : Nat) (u : Nat) : getCol (pushPend s d v m l) u = getCol s u := rfl

@[simp] theorem getGraph_putTh (s : State) (t : Nat) (x : Thread) (u : Nat) : getGraph (putTh s t x) u = getGraph s u := rfl
@[simp] theorem getGraph_modTh (s : State) (t : Nat) (f : Thread → Thread) (u : Nat) : getGraph (modTh s t f) u = getGraph s u := rfl
@[simp] theorem getGraph_modCur (s : State) (f : Thread → Thread) (u : Nat) : getGraph (modCur s f) u = getGraph s u := rfl
@[simp] theorem getGraph_modVf (s : State) (v : Nat) (f : Vf → Vf) (u : Nat) : getGraph (modVf s v f) u = getGraph s u := rfl
@[simp] theorem getGraph_modLaunch (s : State) (l : Nat) (f : Launch → Launch) (u : Nat) : getGraph (modLaunch s l f) u = getGraph s u := rfl
@[simp] theorem getGraph_modOp (s : State) (o : Nat) (f : Op → Op) (u : Nat) : getGraph (modOp s o f) u = getGraph s u := rfl
@[simp] theorem getGraph_delOp (s : State) (o : Nat) (u : Nat) : getGraph (delOp s o) u = getGraph s u := rfl
@[simp] theorem getGraph_modCol (s : State) (c : Nat) (f : Collector → Collector) (u : Nat) : getGraph (modCol s c f) u = getGraph s u := rfl
@[simp] theorem getGraph_setPoison (s : State) (w : Nat) (b : Bool) (u : Nat) : getGraph (setPoison s w b) u = getGraph s u := rfl
@[simp] theorem getGraph_putWord (s : State) (w v : Nat) (b : Bool) (u : Nat) : getGraph (putWord s w v b) u = getGraph s u := rfl
@[simp] theorem getGraph_noteAccess (s : State) (a : Access) (u : Nat) : getGraph (noteAccess s a) u = getGraph s u := rfl
@[simp] theorem getGraph_sched (s : State) (c : Nat) (ev : Instr) (l : List Nat) (u : Nat) : getGraph (sched s c ev l) u = getGraph s u := rfl
@[simp] theorem getGraph_draw (s : State) (v lo hi : Nat) (u : Nat) : getGraph (draw s v lo hi).2 u = getGraph s u := rfl
@[simp] theorem getGraph_pushPend (s : State) (d : Dest) (v m l : Nat) (u : Nat) : getGraph (pushPend s d v m l) u = getGraph s u := rfl

@[simp] theorem argN_putTh (s : State) (t : Nat) (x : Thread) (u : Nat) : argN (putTh s t x) u = argN s u := rfl
@[simp] theorem argN_modTh (s : State) (t : Nat) (f : Thread → Thread) (u : Nat) : argN (modTh s t f) u = argN s u := rfl
@[simp] theorem argN_modCur (s : State) (f : Thread → Thread) (u : Nat) : argN (modCur s f) u = argN s u := rfl
@[simp] theorem argN_modVf (s : State) (v : Nat) (f : Vf → Vf) (u : Nat) : argN (modVf s v f) u = argN s u := rfl
@[simp] theorem argN_modLaunch (s : State) (l : Nat) (f : Launch → Launch) (u : Nat) : argN (modLaunch s l f) u = argN s u := rfl
@[simp] theorem argN_modOp (s : State) (o : Nat) (f : Op → Op) (u : Nat) : argN (modOp s o f) u = argN s u := rfl
@[simp] theorem argN_delOp (s : State) (o : Nat) (u : Nat) : argN (delOp s o) u = argN s u := rfl
@[simp] theorem argN_modCol (s : State) (c : Nat) (f : Collector → Collector) (u : Nat) : argN (modCol s c f) u = argN s u := rfl
@[simp] theorem argN_modGraph (s : State) (g : Nat) (f : Graph → Graph) (u : Nat) : argN (modGraph s g f) u = argN s u := rfl
@[simp] theorem argN_setPoison (s : State) (w : Nat) (b : Bool) (u : Nat) : argN (setPoison s w b) u = argN s u := rfl
@[simp] theorem argN_putWord (s : State) (w v : Nat) (b : Bool) (u : Nat) : argN (putWord s w v b) u = argN s u := rfl
@[simp] theorem argN_noteAccess (s : State) (a : Access) (u : Nat) : argN (noteAccess s a) u = argN s u := rfl
@[simp] theorem argN_sched (s : State) (c : Nat) (ev : Instr) (l : List Nat) (u : Nat) : argN (sched s c ev l) u = argN s u := rfl
@[simp] theorem argN_draw (s : State) (v lo hi : Nat) (u : Nat) : argN (draw s v lo hi).2 u = argN s u := rfl
@[simp] theorem argN_pushPend (s : State) (d : Dest) (v m l : Nat) (u : Nat) : argN (pushPend s d v m l) u = argN s u := rfl

@[simp] theorem poisoned_putTh (s : State) (t : Nat) (x : Thread) (u : Nat) : poisoned (putTh s t x) u = poisoned s u := rfl
@[simp] theorem poisoned_modTh (s : State) (t : Nat) (f : Thread → Thread) (u : Nat) : poisoned (modTh s t f) u = poisoned s u := rfl
@[simp] theorem poisoned_modCur (s : State) (f : Thread → Thread) (u : Nat) : poisoned (modCur s f) u = poisoned s u := rfl
@[simp] theorem poisoned_modVf (s : State) (v : Nat) (f : Vf → Vf) (u : Nat) : poisoned (modVf s v f) u = poisoned s u := rfl
@[simp] theorem poisoned_modLaunch (s : State) (l : Nat) (f : Launch → Launch) (u : Nat) : poisoned (modLaunch s l f) u = poisoned s u := rfl
@[simp] theorem poisoned_modOp (s : State) (o : Nat) (f : Op → Op) (u : Nat) : poisoned (modOp s o f) u = poisoned s u := rfl
@[simp] theorem poisoned_delOp (s : State) (o : Nat) (u : Nat) : poisoned (delOp s o) u = poisoned s u := rfl
@[simp] theorem poisoned_modCol (s : State) (c : Nat) (f : Collector → Collector) (u : Nat) : poisoned (modCol s c f) u = poisoned s u := rfl
@[simp] theorem poisoned_modGraph (s : State) (g : Nat) (f : Graph → Graph) (u : Nat) : poisoned (modGraph s g f) u = poisoned s u := rfl
@[simp] theorem poisoned_noteAccess (s : State) (a : Access) (u : Nat) : poisoned (noteAccess s a) u = poisoned s u := rfl
@[simp] theorem poisoned_sched (s : State) (c : Nat) (ev : Instr) (l : List Nat) (u : Nat) : poisoned (sched s c ev l) u = poisoned s u := rfl
@[simp] theorem poisoned_draw (s : State) (v lo hi : Nat) (u : Nat) : poisoned (draw s v lo hi).2 u = poisoned s u := rfl
@[simp] theorem poisoned_pushPend (s : State) (d : Dest) (v m l : Nat) (u : Nat) : poisoned (pushPend s d v m l) u = poisoned s u := rfl

end Sys2Proof.Machine
end

