-- ==== Sys2Proof/Laws/Memory.lean ====
section
/-! SUPPORT. The memory of bytes keeps its canonical form under every operation, and reads as written: a byte written reads back, and
every other byte reads as before. -/

namespace Sys2Proof.Machine

variable {α : Type} [DecidableEq α]

/-- The bound of a canonical map may be lowered. -/
theorem mapWfFrom_mono {d : α} {lo lo' : Nat} {m : Map α} (h : mapWfFrom d lo m = true) (hl : lo' ≤ lo) :
    mapWfFrom d lo' m = true := by
  cases m with
  | nil => rfl
  | cons e t =>
    obtain ⟨k, v⟩ := e
    simp only [mapWfFrom, Bool.and_eq_true, decide_eq_true_eq] at h ⊢
    exact ⟨⟨by omega, h.1.2⟩, h.2⟩

theorem mapPut_wfFrom {d : α} {lo : Nat} {m : Map α} {i : Nat} {v : α} (h : mapWfFrom d lo m = true) (hi : lo ≤ i)
    (hv : v ≠ d) : mapWfFrom d lo (mapPut m i v) = true := by
  induction m generalizing lo with
  | nil => simp [mapPut, mapWfFrom, hi, hv]
  | cons e t ih =>
    obtain ⟨k, x⟩ := e
    simp only [mapWfFrom, Bool.and_eq_true, decide_eq_true_eq] at h
    by_cases h1 : i = k
    · subst h1; simp [mapPut, mapWfFrom, hi, hv, h.2]
    · by_cases h2 : i < k
      · simp only [mapPut, h1, h2, if_true, if_false, mapWfFrom, Bool.and_eq_true, decide_eq_true_eq]
        exact ⟨⟨hi, hv⟩, ⟨⟨by omega, h.1.2⟩, h.2⟩⟩
      · simp only [mapPut, h1, h2, if_false, mapWfFrom, Bool.and_eq_true, decide_eq_true_eq]
        exact ⟨h.1, ih h.2 (by omega)⟩

theorem mapDel_wfFrom {d : α} {lo : Nat} {m : Map α} {i : Nat} (h : mapWfFrom d lo m = true) :
    mapWfFrom d lo (mapDel m i) = true := by
  induction m generalizing lo with
  | nil => rfl
  | cons e t ih =>
    obtain ⟨k, x⟩ := e
    have h0 := h
    simp only [mapWfFrom, Bool.and_eq_true, decide_eq_true_eq] at h
    by_cases h1 : i = k
    · simp only [mapDel, h1, if_true]; exact mapWfFrom_mono h.2 (by omega)
    · by_cases h2 : i < k
      · simp only [mapDel, h1, h2, if_true, if_false]; exact h0
      · simp only [mapDel, h1, h2, if_false, mapWfFrom, Bool.and_eq_true, decide_eq_true_eq]
        exact ⟨h.1, ih h.2⟩

/-- mapStore keeps the canonical form. -/
theorem mapStore_wf {d : α} {m : Map α} (i : Nat) (v : α) (h : mapWf d m = true) : mapWf d (mapStore d m i v) = true := by
  unfold mapStore; split
  · exact mapDel_wfFrom h
  · exact mapPut_wfFrom h (Nat.zero_le _) ‹_›

/-- Dropping entries keeps the canonical form. -/
theorem filter_wfFrom {d : α} {lo : Nat} {m : Map α} (f : Nat × α → Bool) (h : mapWfFrom d lo m = true) :
    mapWfFrom d lo (m.filter f) = true := by
  induction m generalizing lo with
  | nil => rfl
  | cons e t ih =>
    obtain ⟨k, x⟩ := e
    simp only [mapWfFrom, Bool.and_eq_true, decide_eq_true_eq] at h
    by_cases hf : f (k, x) = true
    · simp only [List.filter_cons, hf, if_true, mapWfFrom, Bool.and_eq_true, decide_eq_true_eq]
      exact ⟨h.1, ih h.2⟩
    · simp only [List.filter_cons, hf, Bool.false_eq_true, if_false]
      exact mapWfFrom_mono (ih h.2) (by omega)

/-- Below every listed key a map reads as an unlisted key does. -/
theorem mapGet_below {d : α} {lo i : Nat} {m : Map α} (h : mapWfFrom d lo m = true) (hi : i < lo) : mapGet d m i = d := by
  cases m with
  | nil => rfl
  | cons e t =>
    obtain ⟨k, v⟩ := e
    simp only [mapWfFrom, Bool.and_eq_true, decide_eq_true_eq] at h
    have h1 : i ≠ k := by omega
    have h2 : i < k := by omega
    simp [mapGet, h1, h2]

theorem mapGet_mapDel {d : α} {lo : Nat} {m : Map α} (h : mapWfFrom d lo m = true) (i j : Nat) :
    mapGet d (mapDel m i) j = if j = i then d else mapGet d m j := by
  induction m generalizing lo with
  | nil => simp [mapDel]
  | cons e t ih =>
    obtain ⟨k, x⟩ := e
    simp only [mapWfFrom, Bool.and_eq_true, decide_eq_true_eq] at h
    by_cases h1 : i = k
    · subst h1
      simp only [mapDel, if_true]
      by_cases hj : j = i
      · subst hj; simp [mapGet_below h.2 (Nat.lt_succ_self _)]
      · simp only [hj, if_false, mapGet]
        split
        · exact mapGet_below h.2 (by omega)
        · rfl
    · by_cases h2 : i < k
      · simp only [mapDel, h1, h2, if_true, if_false]
        by_cases hj : j = i
        · subst hj; simp [mapGet, h1, h2]
        · simp [hj]
      · simp only [mapDel, h1, h2, if_false, mapGet]
        by_cases hj : j = i
        · subst hj; simp only [h1, h2, if_false]; simp [ih h.2]
        · simp only [hj, if_false, ih h.2]

/-- What a canonical map reads as after mapStore. -/
theorem mapGet_mapStore {d : α} {m : Map α} (h : mapWf d m = true) (i j : Nat) (v : α) :
    mapGet d (mapStore d m i v) j = if j = i then v else mapGet d m j := by
  unfold mapStore; split
  · subst_vars; exact mapGet_mapDel h i j
  · by_cases hj : j = i
    · subst hj; simp
    · simp [hj, mapGet_mapPut_ne _ _ _ hj]

/-- What a canonical map reads as after dropping entries by their keys. -/
theorem mapGet_filter {d : α} {lo : Nat} {m : Map α} (h : mapWfFrom d lo m = true) (f : Nat → Bool) (j : Nat) :
    mapGet d (m.filter fun e => f e.1) j = if f j = true then mapGet d m j else d := by
  induction m generalizing lo with
  | nil => simp
  | cons e t ih =>
    obtain ⟨k, x⟩ := e
    simp only [mapWfFrom, Bool.and_eq_true, decide_eq_true_eq] at h
    by_cases hk : f k = true
    · simp only [List.filter_cons, hk, if_true, mapGet]
      by_cases hj : j = k
      · subst hj; simp [hk]
      · by_cases hl : j < k
        · simp [hj, hl]
        · simp only [hj, hl, if_false]; exact ih h.2
    · simp only [List.filter_cons, hk, Bool.false_eq_true, if_false, ih h.2, mapGet]
      by_cases hj : j = k
      · subst hj; simp [hk]
      · by_cases hl : j < k
        · simp [hj, hl, mapGet_below h.2 (Nat.lt_succ_of_lt hl)]
        · simp [hj, hl]

/-- A byte written reads back, and every other byte reads as before. -/
theorem rdByte_wrByte {m : Memory} (h : Memory.wf m = true) (a x : Nat) (b : Byte) :
    rdByte (wrByte m a b) x = if x = a then b else rdByte m x := mapGet_mapStore h a x b

theorem wrByte_wf {m : Memory} (a : Nat) (b : Byte) (h : Memory.wf m = true) : Memory.wf (wrByte m a b) = true :=
  mapStore_wf a b h

theorem wrBytes_wf {m : Memory} (a : Nat) (bs : List Byte) (h : Memory.wf m = true) : Memory.wf (wrBytes m a bs) = true := by
  induction bs generalizing m a with
  | nil => exact h
  | cons b t ih => exact ih _ (wrByte_wf a b h)

/-- The writes of a run of bytes keep the canonical form. -/
theorem wrMem_wf {m : Memory} (a n v : Nat) (h : Memory.wf m = true) : Memory.wf (wrMem m a n v) = true := wrBytes_wf _ _ h

/-- What memory reads as after a run of bytes has been written. -/
theorem rdByte_wrBytes {m : Memory} (h : Memory.wf m = true) (a x : Nat) (bs : List Byte) :
    rdByte (wrBytes m a bs) x = if a ≤ x ∧ x < a + bs.length then bs.getD (x - a) 0 else rdByte m x := by
  induction bs generalizing m a with
  | nil => simp [wrBytes] <;> omega
  | cons b t ih =>
    rw [wrBytes, ih (wrByte_wf a b h), rdByte_wrByte h]
    by_cases h1 : x = a
    · subst h1
      have h2 : ¬ (x + 1 ≤ x ∧ x < x + 1 + t.length) := by omega
      simp [h2]
    · by_cases h2 : a + 1 ≤ x ∧ x < a + 1 + t.length
      · obtain ⟨j, rfl⟩ : ∃ j, x = a + 1 + j := ⟨x - (a + 1), by omega⟩
        have h3 : a + 1 + j - a = j + 1 := by omega
        have h4 : a + 1 + j - (a + 1) = j := by omega
        have h5 : a ≤ a + 1 + j ∧ a + 1 + j < a + (b :: t).length := by simp only [List.length_cons]; omega
        rw [if_pos h2, if_pos h5, h3, h4, List.getD_cons_succ]
      · have h5 : ¬ (a ≤ x ∧ x < a + (b :: t).length) := by simp only [List.length_cons]; omega
        simp only [h2, h5, h1, if_false]

theorem length_bytesOfNat (n v : Nat) : (bytesOfNat n v).length = n := by
  induction n generalizing v with
  | zero => rfl
  | succ k ih => simp [bytesOfNat, ih]

theorem getD_bytesOfNat (n v i : Nat) (h : i < n) : (bytesOfNat n v).getD i 0 = BitVec.ofNat 8 (v / 256 ^ i) := by
  induction n generalizing v i with
  | zero => omega
  | succ k ih =>
    cases i with
    | zero => simp [bytesOfNat]
    | succ j =>
      have := ih (v / 256) j (by omega)
      simp only [bytesOfNat, List.getD_cons_succ, this, Nat.div_div_eq_div_mul, Nat.pow_succ, Nat.mul_comm]

/-- What memory reads as after a number has been written in n bytes, little-endian (00 R9). -/
theorem rdByte_wrMem {m : Memory} (h : Memory.wf m = true) (a n v x : Nat) :
    rdByte (wrMem m a n v) x = if a ≤ x ∧ x < a + n then BitVec.ofNat 8 (v / 256 ^ (x - a)) else rdByte m x := by
  rw [wrMem, rdByte_wrBytes h, length_bytesOfNat]
  by_cases h1 : a ≤ x ∧ x < a + n
  · simp only [h1]; rw [getD_bytesOfNat _ _ _ (by omega)]
  · simp only [h1, if_false]

theorem natOfBytes_bytesOfNat (n v : Nat) : natOfBytes (bytesOfNat n v) = v % 256 ^ n := by
  induction n generalizing v with
  | zero => simp [bytesOfNat, natOfBytes, Nat.mod_one]
  | succ k ih =>
    have e : v % 256 ^ (k + 1) = v % 256 + 256 * (v / 256 % 256 ^ k) := by rw [Nat.pow_succ']; exact Nat.mod_mul
    rw [bytesOfNat, natOfBytes, ih, BitVec.toNat_ofNat, e]

/-- Reading the bytes of a run that read as those of a number gives the number. -/
theorem natOfBytes_reads {m : Memory} {n a v : Nat} (h : ∀ i, i < n → rdByte m (a + i) = BitVec.ofNat 8 (v / 256 ^ i)) :
    rdMem m a n = v % 256 ^ n := by
  rw [rdMem, ← natOfBytes_bytesOfNat]
  congr 1
  apply List.ext_getElem?
  intro i
  by_cases hi : i < n
  · have hg := getD_bytesOfNat n v i hi
    have hl : i < (bytesOfNat n v).length := by rw [length_bytesOfNat]; exact hi
    simp only [List.getElem?_map, List.getElem?_range hi, Option.map_some, h i hi]
    rw [List.getElem?_eq_getElem hl]
    simp only [List.getD_eq_getElem?_getD, List.getElem?_eq_getElem hl, Option.getD_some] at hg
    rw [hg]
  · rw [List.getElem?_eq_none (by simp; omega), List.getElem?_eq_none (by rw [length_bytesOfNat]; omega)]

/-- A number written in n bytes reads back. -/
theorem rdMem_wrMem_self {m : Memory} (h : Memory.wf m = true) (a n v : Nat) : rdMem (wrMem m a n v) a n = v % 256 ^ n :=
  natOfBytes_reads fun i hi => by rw [rdByte_wrMem h, if_pos (by omega), Nat.add_sub_cancel_left]

theorem putWord_wf (s : State) (w v : Nat) (bad : Bool) (h : Memory.wf s.mem = true) :
    Memory.wf (putWord s w v bad).mem = true := wrMem_wf _ _ _ h

theorem clearBytes_wf (s : State) (f : Nat → Bool) (h : Memory.wf s.mem = true) : Memory.wf (clearBytes s f).mem = true :=
  filter_wfFrom _ h

/-- Moving entries to other keys gives a canonical map, whatever the entries were. -/
theorem moveKeys_wf (d : α) (m : Map α) (f : Nat → Nat) : mapWf d (moveKeys d m f) = true := by
  have : ∀ (l acc : Map α), mapWf d acc = true → mapWf d (l.foldl (fun a e => mapStore d a (f e.1) e.2) acc) = true := by
    intro l
    induction l with
    | nil => exact fun _ h => h
    | cons e t ih => exact fun acc h => ih _ (mapStore_wf _ _ h)
  exact this m [] rfl

end Sys2Proof.Machine
end

