-- ==== Sys2Proof/Laws/Ops.lean ====
section
/-! SUPPORT. One lemma for each shared operation: all that it can do. -/

namespace Sys2Proof.Machine

/-- A slot instruction issued alone answers with its effect or takes its exception; it never stops. -/
theorem runSlot_cases (e : Eff) (s : State) :
    (∃ t, e s = .ok t ∧ runSlot e s = .next t) ∨ ∃ x, e s = .error x ∧ runSlot e s = .next (raiseTrap s x) := by
  unfold runSlot; split
  · exact .inl ⟨_, ‹_›, rfl⟩
  · exact .inr ⟨_, ‹_›, rfl⟩

theorem runSlot_ok {e : Eff} {s t : State} (h : e s = .ok t) : runSlot e s = .next t := by simp [runSlot, h]
theorem runSlot_error {e : Eff} {s : State} {x : Trap} (h : e s = .error x) : runSlot e s = .next (raiseTrap s x) := by
  simp [runSlot, h]

theorem predEff_on {p : Nat} {s : State} (e : Eff) (h : predOn (curTh s) p = true) : predEff p e s = e s := by
  simp [predEff, h]
theorem predEff_off {p : Nat} {s : State} (e : Eff) (h : predOn (curTh s) p = false) : predEff p e s = .ok s := by
  simp [predEff, h]

/-- A scalar result of form A: on, the value is in flight; off, nothing happens. -/
theorem scalarA_on {o : AOp} {s : State} (lat : Nat) (f : Word → Word → Word → Word) (h : predOn (curTh s) o.p = true) :
    scalarA o lat f s = .ok (pushS s o.d (f (rdS (curTh s) o.a) (rdS (curTh s) o.b) (rdS (curTh s) o.c)) lat) :=
  predEff_on _ h

/-- The claim of a scalar result, from the instruction's one line over scalarA. -/
theorem givesS_scalarA {i : Instr} {s : State} {o : AOp} {lat : Nat} {f : Word → Word → Word → Word} {v : Word}
    (hx : exec i s = runSlot (scalarA o lat f) s) (h : predOn (curTh s) o.p = true)
    (hv : f (rdS (curTh s) o.a) (rdS (curTh s) o.b) (rdS (curTh s) o.c) = v) : givesS i s o.d v lat := by
  rw [givesS, hx, runSlot_ok (scalarA_on lat f h), hv]

/-- The claim of a scalar result, from the instruction's one line over scalarI. -/
theorem givesS_scalarI {i : Instr} {s : State} {o : IOp} {f : Word → Int → Word} {v : Word}
    (hx : exec i s = runSlot (scalarI o f) s) (hv : f (rdS (curTh s) o.a) (simm 28 o.imm) = v) : givesS i s o.d v 1 := by
  rw [givesS, hx, ← hv]; rfl

/-- A thread as it stands depends on the list of threads alone. -/
theorem getTh_congr {s t : State} (h : t.threads = s.threads) (u : Nat) : getTh t u = getTh s u := by simp [getTh, h]
theorem curTh_congr {s t : State} (h : t.threads = s.threads) (hc : t.cur = s.cur) : curTh t = curTh s := by
  simp [curTh, getTh, h, hc]

/-- A result in flight: the list of the issuing thread, and the counter of identifiers. -/
@[simp] theorem curTh_pushPend (s : State) (d : Dest) (v m lat : Nat) :
    curTh (pushPend s d v m lat) = { curTh s with
      pend := insPend (curTh s).pend { due := s.mer + 8 * lat, seq := s.seq, dest := d, val := v, mask := m } } := by
  simp [pushPend, curTh, modCur, modTh, getTh, putTh]
@[simp] theorem pushPend_seq (s : State) (d : Dest) (v m lat : Nat) : (pushPend s d v m lat).seq = s.seq + 1 := rfl
theorem getTh_pushPend_ne (s : State) {u : Nat} (d : Dest) (v m lat : Nat) (h : u ≠ s.cur) :
    getTh (pushPend s d v m lat) u = getTh s u := getTh_modCur_ne { s with seq := s.seq + 1 } _ h

/-- A state is another with its threads and counter replaced when every other field agrees. -/
theorem sameRest_refl (s : State) : sameRest s s := ⟨rfl, fun _ _ => rfl⟩
theorem sameRest_trans {s t u : State} (h : sameRest s t) (k : sameRest t u) : sameRest s u := by
  have hc : t.cur = s.cur := by rw [h.1]
  refine ⟨?_, fun x hx => (k.2 x (hc ▸ hx)).trans (h.2 x hx)⟩
  rw [k.1]; rw [h.1]
theorem sameRest_modCur (s : State) (f : Thread → Thread) : sameRest s (modCur s f) :=
  ⟨rfl, fun _ h => getTh_modCur_ne s f h⟩
theorem sameRest_pushPend (s : State) (d : Dest) (v m lat : Nat) : sameRest s (pushPend s d v m lat) :=
  ⟨rfl, fun _ h => getTh_pushPend_ne s d v m lat h⟩

/-- Entering dated steps changes nothing but the agenda and the counter. -/
theorem foldl_sched (l : List Pend) (s : State) (t : Nat) :
    l.foldl (fun a p => sched a p.due .registerResultLand [t]) s =
      { s with
        seq := (l.foldl (fun a p => sched a p.due .registerResultLand [t]) s).seq
        agenda := (l.foldl (fun a p => sched a p.due .registerResultLand [t]) s).agenda } := by
  induction l generalizing s with
  | nil => rfl
  | cons p q ih => simp only [List.foldl_cons]; rw [ih]; rfl

@[simp] theorem schedLandings_threads (s : State) (t : Nat) : (schedLandings s t).threads = s.threads := by
  unfold schedLandings; rw [foldl_sched]
@[simp] theorem schedLandings_mem (s : State) (t : Nat) : (schedLandings s t).mem = s.mem := by
  unfold schedLandings; rw [foldl_sched]
@[simp] theorem schedLandings_cur (s : State) (t : Nat) : (schedLandings s t).cur = s.cur := by
  unfold schedLandings; rw [foldl_sched]
@[simp] theorem schedLandings_mer (s : State) (t : Nat) : (schedLandings s t).mer = s.mer := by
  unfold schedLandings; rw [foldl_sched]
@[simp] theorem schedLandings_cols (s : State) (t : Nat) : (schedLandings s t).cols = s.cols := by
  unfold schedLandings; rw [foldl_sched]

/-- A thread frozen with its record: the context keeps everything but its state, its code, its record, its parks and
a STOP that it was asked for. -/
def frozenWith (r : FaultRec) (th : Thread) : Thread :=
  { th with st := .frozen, fault := r.code, frec := r, wasParked := th.parks, parks := [], stopAsked := false }

@[simp] theorem freezeTh_threads (s : State) (t : Nat) (r : FaultRec) :
    (freezeTh s t r).threads = (modTh s t (frozenWith r)).threads := by simp [freezeTh]; rfl
@[simp] theorem freezeTh_mem (s : State) (t : Nat) (r : FaultRec) : (freezeTh s t r).mem = s.mem := by simp [freezeTh]
@[simp] theorem freezeTh_cur (s : State) (t : Nat) (r : FaultRec) : (freezeTh s t r).cur = s.cur := by simp [freezeTh]
@[simp] theorem freezeTh_mer (s : State) (t : Nat) (r : FaultRec) : (freezeTh s t r).mer = s.mer := by simp [freezeTh]
@[simp] theorem freezeTh_cols (s : State) (t : Nat) (r : FaultRec) : (freezeTh s t r).cols = s.cols := by simp [freezeTh]

@[simp] theorem sendRec_threads (s : State) (c : Nat) (r : FaultRec) : (sendRec s c r).threads = s.threads := by
  unfold sendRec; split <;> rfl
@[simp] theorem sendRec_mem (s : State) (c : Nat) (r : FaultRec) : (sendRec s c r).mem = s.mem := by
  unfold sendRec; split <;> rfl
@[simp] theorem sendRec_cur (s : State) (c : Nat) (r : FaultRec) : (sendRec s c r).cur = s.cur := by
  unfold sendRec; split <;> rfl
@[simp] theorem sendRec_mer (s : State) (c : Nat) (r : FaultRec) : (sendRec s c r).mer = s.mer := by
  unfold sendRec; split <;> rfl
@[simp] theorem sendRec_vfs (s : State) (c : Nat) (r : FaultRec) : (sendRec s c r).vfs = s.vfs := by
  unfold sendRec; split <;> rfl
/-- A record that is not of an XLATE is the newest packet towards its collector. -/
theorem sendRec_svc (s : State) (c : Nat) (r : FaultRec) (h : r.code ≠ 0x20) :
    (getCol (sendRec s c r) c).svc = (getCol s c).svc ++ [r] := by
  simp [sendRec, sameXlate, h]

/-- The record that an exception at issue makes (R387). -/
def trapRec (s : State) (e : Trap) : FaultRec :=
  recBranch (getTh s s.cur)
    { threadRec s s.cur e.code with
      cause := e.cause, unit := e.unit, pc := (getTh s s.cur).pc, nextpc := (getTh s s.cur).pc, addr := e.addr
      d5 := e.d5, d6 := e.d6, d7 := e.d7, heal := if e.code = 0x08 then .launch (getTh s s.cur).lid 0x08 else .none }

/-- The branch part of a record changes no other part. -/
@[simp] theorem recBranch_code (th : Thread) (r : FaultRec) : (recBranch th r).code = r.code := by
  unfold recBranch; split <;> rfl

/-- Taking an exception at issue, once and for all (R66, R385, R387, R389). -/
theorem raiseTrap_eq (s : State) (e : Trap) :
    raiseTrap s e = sendRec (freezeTh s s.cur (trapRec s e)) (threadCol s.cur) (trapRec s e) := rfl
@[simp] theorem raiseTrap_mem (s : State) (e : Trap) : (raiseTrap s e).mem = s.mem := by simp [raiseTrap_eq]
@[simp] theorem raiseTrap_mer (s : State) (e : Trap) : (raiseTrap s e).mer = s.mer := by simp [raiseTrap_eq]
@[simp] theorem raiseTrap_cur (s : State) (e : Trap) : (raiseTrap s e).cur = s.cur := by simp [raiseTrap_eq]
theorem curTh_raiseTrap (s : State) (e : Trap) : curTh (raiseTrap s e) = frozenWith (trapRec s e) (curTh s) := by
  have h : (raiseTrap s e).threads = (modTh s s.cur (frozenWith (trapRec s e))).threads := by simp [raiseTrap_eq]
  rw [curTh_congr h (by simp)]
  exact curTh_modCur s _
theorem getTh_raiseTrap_ne (s : State) (e : Trap) {u : Nat} (hu : u ≠ s.cur) : getTh (raiseTrap s e) u = getTh s u := by
  have h : (raiseTrap s e).threads = (modTh s s.cur (frozenWith (trapRec s e))).threads := by simp [raiseTrap_eq]
  rw [getTh_congr h]; exact getTh_modTh_ne s _ hu

/-- A park is added to one thread and nothing else changes. -/
@[simp] theorem addPark_mem (s : State) (t : Nat) (p : Park) : (addPark s t p).mem = s.mem := rfl
@[simp] theorem addPark_mer (s : State) (t : Nat) (p : Park) : (addPark s t p).mer = s.mer := rfl
@[simp] theorem addPark_cur (s : State) (t : Nat) (p : Park) : (addPark s t p).cur = s.cur := rfl
theorem getTh_addPark_ne (s : State) {t u : Nat} (p : Park) (h : u ≠ t) : getTh (addPark s t p) u = getTh s u :=
  getTh_modTh_ne s _ h

/-- Results are inserted in the order of their cycles, after those of the same cycle that are older. -/
theorem mem_insPend {l : List Pend} {p q : Pend} : q ∈ insPend l p ↔ q = p ∨ q ∈ l := by
  induction l with
  | nil => simp [insPend]
  | cons x t ih =>
    unfold insPend; split
    · simp
    · simp only [List.mem_cons, ih]
      constructor
      · rintro (h | h | h)
        · exact .inr (.inl h)
        · exact .inl h
        · exact .inr (.inr h)
      · rintro (h | h | h)
        · exact .inr (.inl h)
        · exact .inl h
        · exact .inr (.inr h)

/-- A result due later than all others stands last. -/
theorem insPend_last {l : List Pend} {p : Pend} (h : ∀ q ∈ l, q.due < p.due) : insPend l p = l ++ [p] := by
  induction l with
  | nil => rfl
  | cons x t ih =>
    have hx := h x (by simp)
    have : ¬ (p.due < x.due ∨ p.due = x.due ∧ p.seq < x.seq) := by omega
    simp only [insPend, this, if_false, List.cons_append, ih fun q hq => h q (by simp [hq])]

/-- With nothing due nothing lands. -/
theorem landUpto_none {th : Thread} {c : Nat} (h : ∀ p ∈ th.pend, c < p.due) : landUpto th c = th := by
  cases hp : th.pend with
  | nil => simp [landUpto, hp]; rw [← hp]
  | cons p t =>
    have := h p (by simp [hp])
    have hn : ¬ p.due ≤ c := by omega
    simp [landUpto, hp, hn]; rw [← hp]

/-- s0 reads zero whatever lands. -/
@[simp] theorem rdS_zero (th : Thread) : rdS th 0 = 0 := rfl

/-- The turns of short parks change SPCNT alone. -/
@[simp] theorem countAll_mem (s : State) (a c : Nat) : (countAll s a c).mem = s.mem := rfl
@[simp] theorem countAll_mer (s : State) (a c : Nat) : (countAll s a c).mer = s.mer := rfl
@[simp] theorem countAll_agenda (s : State) (a c : Nat) : (countAll s a c).agenda = s.agenda := rfl
theorem countTurns_eq (k a c : Nat) (th : Thread) : countTurns k a c th = { th with spcnt := (countTurns k a c th).spcnt } := by
  unfold countTurns
  split <;> rfl
theorem countTurns_idle {th : Thread} (k a c : Nat) (h : th.st ≠ .parked) : countTurns k a c th = th := by simp [countTurns, h]

/-- A safe point clears the latches and the damage of their parity alone. -/
theorem clearLatches_eq (th : Thread) :
    clearLatches th = { th with latA := 0, latB := 0, latC := 0, parity := (clearLatches th).parity } := rfl

/-- A command that reads its tile may mark it, and changes nothing else of the thread. -/
theorem seeTile_eq (q : MCmd) (th : Thread) : seeTile q th = { th with tbad := (seeTile q th).tbad } := by
  have h (r : Nat × Nat) (b : Bool) : (if b then setTileBad th q.acc true else th)
      = { th with tbad := (if b then setTileBad th q.acc true else th).tbad } := by cases b <;> rfl
  exact h (tileReads q) _
@[simp] theorem seeTile_tiles (q : MCmd) (th : Thread) : (seeTile q th).tiles = th.tiles := by rw [seeTile_eq]
@[simp] theorem seeTile_mq (q : MCmd) (th : Thread) : (seeTile q th).mq = th.mq := by rw [seeTile_eq]

/-- An event that is to stand once is in the agenda already, or enters it. -/
theorem schedOnce_cases (s : State) (ev : Instr) (id : Nat) :
    schedOnce s ev id = s ∨ schedOnce s ev id = sched s s.mer ev [id] := by
  unfold schedOnce
  split <;> simp

/-- What the host answers: a refusal over a failed stream, else one of two drawn answers. -/
theorem hostAnswer_cut {s : State} {vf : Nat} (h : linkCut s vf = true) : hostAnswer s vf = (1, s) := by simp [hostAnswer, h]
theorem hostAnswer_drawn {s : State} {vf : Nat} (h : linkCut s vf = false) : hostAnswer s vf = draw s vf 0 1 := by
  simp [hostAnswer, h]

/-- A member that is picked keeps its place where its slots are free, and its resume is entered in any case. -/
theorem pickMember_free {s : State} {x : Nat} (c : Nat) (h : slotsFree s x = true) :
    pickMember c s x = sched (modVf s x fun v => { v with picked := true }) c .partitionResume [x] := by simp [pickMember, h]
theorem pickMember_taken {s : State} {x : Nat} (c : Nat) (h : slotsFree s x = false) :
    pickMember c s x = sched s c .partitionResume [x] := by simp [pickMember, h]

/-- A hold freezes a partition that does not run once. -/
theorem freezeStill_cases (s : State) (vf : Nat) : freezeStill s vf = s ∨ freezeStill s vf = stopVf s vf := by
  unfold freezeStill
  split <;> simp

/-- An arrived packet is forgotten, and nothing else of the machine changes. -/
@[simp] theorem sawPacket_mem (s : State) (pa : Nat) : (sawPacket s pa).mem = s.mem := rfl
@[simp] theorem sawPacket_threads (s : State) (pa : Nat) : (sawPacket s pa).threads = s.threads := rfl
@[simp] theorem sawPacket_ops (s : State) (pa : Nat) : (sawPacket s pa).ops = s.ops := rfl
@[simp] theorem sawPacket_agenda (s : State) (pa : Nat) : (sawPacket s pa).agenda = s.agenda := rfl

/-- Over a failed stream firmware reads all ones from host memory and leaves it as it is; over any other it reads and
writes it. -/
theorem hostRead_cut {s : State} {f : Nat} (a n : Nat) (h : linkCut s f = true) :
    hostRead s f a n = 2 ^ (8 * n) - 1 := by simp [hostRead, h]
theorem hostRead_open {s : State} {f : Nat} (a n : Nat) (h : linkCut s f = false) :
    hostRead s f a n = rdMem s.mem (fnHost s f a) n := by simp [hostRead, h]
theorem hostWrite_cut {s : State} {f : Nat} (a n v : Nat) (h : linkCut s f = true) : hostWrite s f a n v = s.mem := by
  simp [hostWrite, h]
theorem hostWrite_open {s : State} {f : Nat} (a n v : Nat) (h : linkCut s f = false) :
    hostWrite s f a n v = wrMem s.mem (fnHost s f a) n v := by simp [hostWrite, h]

/-- Moving on after a bundle changes the counter, the pending branch and the rotation alone. -/
@[simp] theorem moveOn_pc (th : Thread) (n : Nat × Option Branch × Option Branch) : (moveOn th n).pc = n.1 := rfl
@[simp] theorem moveOn_br (th : Thread) (n : Nat × Option Branch × Option Branch) : (moveOn th n).br = n.2.1 := rfl
@[simp] theorem moveOn_sreg (th : Thread) (n : Nat × Option Branch × Option Branch) : (moveOn th n).sreg = th.sreg := rfl
@[simp] theorem moveOn_st (th : Thread) (n : Nat × Option Branch × Option Branch) : (moveOn th n).st = th.st := rfl

/-- A wait begins for a member that is not resident and had no work, and for no other. -/
theorem beginWait_cases (s : State) (vf : Nat) :
    beginWait s vf = s ∨ beginWait s vf = modVf s vf fun v => { v with waitFrom := s.mer } := by
  unfold beginWait
  split <;> simp

/-- The watches of a partition that leaves are taken off their words, and no request is lost. -/
@[simp] theorem dropWatches_mem (s : State) (vf : Nat) : (dropWatches s vf).mem = s.mem := rfl
@[simp] theorem dropWatches_threads (s : State) (vf : Nat) : (dropWatches s vf).threads = s.threads := rfl
theorem dropWatches_keys (s : State) (vf : Nat) : (dropWatches s vf).ops.map (·.1) = s.ops.map (·.1) := by
  simp only [dropWatches, List.map_map]
  refine List.map_congr_left fun e _ => ?_
  simp only [Function.comp]
  split <;> rfl

end Sys2Proof.Machine
end

