-- ==== Sys2Proof/Laws/PerInstr.lean ====
section
/-! SUPPORT. The encoding of each instruction read back by the opcode map: the fields of every form, and the family Encodes with
one lemma per constructor. -/

namespace Sys2Proof

open Sys2Proof.Machine

/-- A field above a lower part is read back. -/
theorem bitsAt_high (lo n x y : Nat) (hy : y < 2 ^ lo) (hx : x < 2 ^ n) : bitsAt (x * 2 ^ lo + y) lo n = x := by
  unfold bitsAt
  rw [Nat.add_comm, Nat.add_mul_div_right _ _ (Nat.two_pow_pos lo), Nat.div_eq_of_lt hy, Nat.zero_add, Nat.mod_eq_of_lt hx]

/-- The fields of form A are those encoded (R39). -/
theorem fieldsA_enc (op : Nat) (o : AOp) (h : o.inWidth = true) : fieldsA (op * 2 ^ 40 + encA o) = o := by
  obtain ⟨d, a, b, c, p, fn⟩ := o
  simp only [AOp.inWidth, Bool.and_eq_true, decide_eq_true_eq] at h
  simp only [fieldsA, encA, bitsAt, AOp.mk.injEq]
  omega

/-- Form A fills the 40 low bits of its slot. -/
theorem encA_lt (o : AOp) (h : o.inWidth = true) : encA o < 2 ^ 40 := by
  obtain ⟨d, a, b, c, p, fn⟩ := o
  simp only [AOp.inWidth, Bool.and_eq_true, decide_eq_true_eq] at h
  simp only [encA]
  omega

/-- The fields of form I are those encoded (R39). -/
theorem fieldsI_enc (op : Nat) (o : IOp) (h : o.inWidth = true) : fieldsI (op * 2 ^ 40 + encI o) = o := by
  obtain ⟨d, a, imm⟩ := o
  simp only [IOp.inWidth, Bool.and_eq_true, decide_eq_true_eq] at h
  simp only [fieldsI, encI, bitsAt, IOp.mk.injEq]
  omega

/-- Form I fills the 40 low bits of its slot. -/
theorem encI_lt (o : IOp) (h : o.inWidth = true) : encI o < 2 ^ 40 := by
  obtain ⟨d, a, imm⟩ := o
  simp only [IOp.inWidth, Bool.and_eq_true, decide_eq_true_eq] at h
  simp only [encI]
  omega

/-- The fields of form K are those encoded (R39). -/
theorem fieldsK_enc (op : Nat) (o : KOp) (h : o.inWidth = true) : fieldsK (op * 2 ^ 40 + encK o) = o := by
  obtain ⟨d, imm⟩ := o
  simp only [KOp.inWidth, Bool.and_eq_true, decide_eq_true_eq] at h
  simp only [fieldsK, encK, bitsAt, KOp.mk.injEq]
  omega

/-- Form K fills the 40 low bits of its slot. -/
theorem encK_lt (o : KOp) (h : o.inWidth = true) : encK o < 2 ^ 40 := by
  obtain ⟨d, imm⟩ := o
  simp only [KOp.inWidth, Bool.and_eq_true, decide_eq_true_eq] at h
  simp only [encK]
  omega

/-- The fields of form J are those encoded (R39). -/
theorem fieldsJ_enc (op : Nat) (o : JOp) (h : o.inWidth = true) : fieldsJ (op * 2 ^ 40 + encJ o) = o := by
  obtain ⟨a, rsv, off⟩ := o
  simp only [JOp.inWidth, Bool.and_eq_true, decide_eq_true_eq] at h
  simp only [fieldsJ, encJ, bitsAt, JOp.mk.injEq]
  omega

/-- Form J fills the 40 low bits of its slot. -/
theorem encJ_lt (o : JOp) (h : o.inWidth = true) : encJ o < 2 ^ 40 := by
  obtain ⟨a, rsv, off⟩ := o
  simp only [JOp.inWidth, Bool.and_eq_true, decide_eq_true_eq] at h
  simp only [encJ]
  omega

/-- The fields of form V are those encoded (R39). -/
theorem fieldsV_enc (op : Nat) (o : VOp) (h : o.inWidth = true) : fieldsV (op * 2 ^ 40 + encV o) = o := by
  obtain ⟨d, a, b, c, p, hold, ty, rm, fn⟩ := o
  simp only [VOp.inWidth, Bool.and_eq_true, decide_eq_true_eq] at h
  simp only [fieldsV, encV, bitsAt, VOp.mk.injEq]
  omega

/-- Form V fills the 40 low bits of its slot. -/
theorem encV_lt (o : VOp) (h : o.inWidth = true) : encV o < 2 ^ 40 := by
  obtain ⟨d, a, b, c, p, hold, ty, rm, fn⟩ := o
  simp only [VOp.inWidth, Bool.and_eq_true, decide_eq_true_eq] at h
  simp only [encV]
  omega

/-- The fields of form M are those encoded (R39). -/
theorem fieldsM_enc (op : Nat) (o : MOp) (h : o.inWidth = true) : fieldsM (op * 2 ^ 40 + encM o) = o := by
  obtain ⟨acc, a, b, n, sa, sb, fl, fn⟩ := o
  simp only [MOp.inWidth, Bool.and_eq_true, decide_eq_true_eq] at h
  simp only [fieldsM, encM, bitsAt, MOp.mk.injEq]
  omega

/-- Form M fills the 40 low bits of its slot. -/
theorem encM_lt (o : MOp) (h : o.inWidth = true) : encM o < 2 ^ 40 := by
  obtain ⟨acc, a, b, n, sa, sb, fl, fn⟩ := o
  simp only [MOp.inWidth, Bool.and_eq_true, decide_eq_true_eq] at h
  simp only [encM]
  omega

/-- The fields of form LA are those encoded (R39). -/
theorem fieldsLA_enc (op : Nat) (o : LAOp) (h : o.inWidth = true) : fieldsLA (op * 2 ^ 40 + encLA o) = o := by
  obtain ⟨d, a, b, c, p, fn, sz⟩ := o
  simp only [LAOp.inWidth, Bool.and_eq_true, decide_eq_true_eq] at h
  simp only [fieldsLA, encLA, bitsAt, LAOp.mk.injEq]
  omega

/-- Form LA fills the 40 low bits of its slot. -/
theorem encLA_lt (o : LAOp) (h : o.inWidth = true) : encLA o < 2 ^ 40 := by
  obtain ⟨d, a, b, c, p, fn, sz⟩ := o
  simp only [LAOp.inWidth, Bool.and_eq_true, decide_eq_true_eq] at h
  simp only [encLA]
  omega

/-- The fields of form LI are those encoded (R39). -/
theorem fieldsLI_enc (op : Nat) (o : LIOp) (h : o.inWidth = true) : fieldsLI (op * 2 ^ 40 + encLI o) = o := by
  obtain ⟨d, a, sz, imm⟩ := o
  simp only [LIOp.inWidth, Bool.and_eq_true, decide_eq_true_eq] at h
  simp only [fieldsLI, encLI, bitsAt, LIOp.mk.injEq]
  omega

/-- Form LI fills the 40 low bits of its slot. -/
theorem encLI_lt (o : LIOp) (h : o.inWidth = true) : encLI o < 2 ^ 40 := by
  obtain ⟨d, a, sz, imm⟩ := o
  simp only [LIOp.inWidth, Bool.and_eq_true, decide_eq_true_eq] at h
  simp only [encLI]
  omega

/-- The fields of form X are those encoded (R39). -/
theorem fieldsX_enc (op : Nat) (o : XOp) (h : o.inWidth = true) : fieldsX (op * 2 ^ 40 + encX o) = o := by
  obtain ⟨d, a, b, c, p, fn, idx⟩ := o
  simp only [XOp.inWidth, Bool.and_eq_true, decide_eq_true_eq] at h
  simp only [fieldsX, encX, bitsAt, XOp.mk.injEq]
  omega

/-- Form X fills the 40 low bits of its slot. -/
theorem encX_lt (o : XOp) (h : o.inWidth = true) : encX o < 2 ^ 40 := by
  obtain ⟨d, a, b, c, p, fn, idx⟩ := o
  simp only [XOp.inWidth, Bool.and_eq_true, decide_eq_true_eq] at h
  simp only [encX]
  omega

end Sys2Proof

namespace Sys2Proof.Laws.Encodes

open Sys2Proof Sys2Proof.Machine

/-- The opcode map reads the slot of an instruction whose fields are in their widths as that instruction. -/
def Statement (i : Instr) : Prop :=
  inWidth i = true → ∀ sl op, opcodeOf i = some (sl, op) → op < 256 ∧ rawSlot sl (encodeSlot i) = some i

theorem bundleIssue : Statement .bundleIssue := fun _ _ _ h => nomatch h
theorem nop : Statement .nop := fun _ _ _ h => nomatch h
theorem add (o : AOp) : Statement (.add o) := by
  intro h sl op ho
  cases ho
  refine ⟨by decide, ?_⟩
  show rawSlot _ (_ * 2 ^ 40 + encA o) = _
  rw [rawSlot, bitsAt_high _ _ _ _ (encA_lt o h) (by decide)]
  exact congrArg (fun x => some (Instr.add x)) (fieldsA_enc _ o h)
theorem sub (o : AOp) : Statement (.sub o) := by
  intro h sl op ho
  cases ho
  refine ⟨by decide, ?_⟩
  show rawSlot _ (_ * 2 ^ 40 + encA o) = _
  rw [rawSlot, bitsAt_high _ _ _ _ (encA_lt o h) (by decide)]
  exact congrArg (fun x => some (Instr.sub x)) (fieldsA_enc _ o h)
theorem andS (o : AOp) : Statement (.andS o) := by
  intro h sl op ho
  cases ho
  refine ⟨by decide, ?_⟩
  show rawSlot _ (_ * 2 ^ 40 + encA o) = _
  rw [rawSlot, bitsAt_high _ _ _ _ (encA_lt o h) (by decide)]
  exact congrArg (fun x => some (Instr.andS x)) (fieldsA_enc _ o h)
theorem orS (o : AOp) : Statement (.orS o) := by
  intro h sl op ho
  cases ho
  refine ⟨by decide, ?_⟩
  show rawSlot _ (_ * 2 ^ 40 + encA o) = _
  rw [rawSlot, bitsAt_high _ _ _ _ (encA_lt o h) (by decide)]
  exact congrArg (fun x => some (Instr.orS x)) (fieldsA_enc _ o h)
theorem xorS (o : AOp) : Statement (.xorS o) := by
  intro h sl op ho
  cases ho
  refine ⟨by decide, ?_⟩
  show rawSlot _ (_ * 2 ^ 40 + encA o) = _
  rw [rawSlot, bitsAt_high _ _ _ _ (encA_lt o h) (by decide)]
  exact congrArg (fun x => some (Instr.xorS x)) (fieldsA_enc _ o h)
theorem andn (o : AOp) : Statement (.andn o) := by
  intro h sl op ho
  cases ho
  refine ⟨by decide, ?_⟩
  show rawSlot _ (_ * 2 ^ 40 + encA o) = _
  rw [rawSlot, bitsAt_high _ _ _ _ (encA_lt o h) (by decide)]
  exact congrArg (fun x => some (Instr.andn x)) (fieldsA_enc _ o h)
theorem shl (o : AOp) : Statement (.shl o) := by
  intro h sl op ho
  cases ho
  refine ⟨by decide, ?_⟩
  show rawSlot _ (_ * 2 ^ 40 + encA o) = _
  rw [rawSlot, bitsAt_high _ _ _ _ (encA_lt o h) (by decide)]
  exact congrArg (fun x => some (Instr.shl x)) (fieldsA_enc _ o h)
theorem shr (o : AOp) : Statement (.shr o) := by
  intro h sl op ho
  cases ho
  refine ⟨by decide, ?_⟩
  show rawSlot _ (_ * 2 ^ 40 + encA o) = _
  rw [rawSlot, bitsAt_high _ _ _ _ (encA_lt o h) (by decide)]
  exact congrArg (fun x => some (Instr.shr x)) (fieldsA_enc _ o h)
theorem sra (o : AOp) : Statement (.sra o) := by
  intro h sl op ho
  cases ho
  refine ⟨by decide, ?_⟩
  show rawSlot _ (_ * 2 ^ 40 + encA o) = _
  rw [rawSlot, bitsAt_high _ _ _ _ (encA_lt o h) (by decide)]
  exact congrArg (fun x => some (Instr.sra x)) (fieldsA_enc _ o h)
theorem rol (o : AOp) : Statement (.rol o) := by
  intro h sl op ho
  cases ho
  refine ⟨by decide, ?_⟩
  show rawSlot _ (_ * 2 ^ 40 + encA o) = _
  rw [rawSlot, bitsAt_high _ _ _ _ (encA_lt o h) (by decide)]
  exact congrArg (fun x => some (Instr.rol x)) (fieldsA_enc _ o h)
theorem mul (o : AOp) : Statement (.mul o) := by
  intro h sl op ho
  cases ho
  refine ⟨by decide, ?_⟩
  show rawSlot _ (_ * 2 ^ 40 + encA o) = _
  rw [rawSlot, bitsAt_high _ _ _ _ (encA_lt o h) (by decide)]
  exact congrArg (fun x => some (Instr.mul x)) (fieldsA_enc _ o h)
theorem mulh (o : AOp) : Statement (.mulh o) := by
  intro h sl op ho
  cases ho
  refine ⟨by decide, ?_⟩
  show rawSlot _ (_ * 2 ^ 40 + encA o) = _
  rw [rawSlot, bitsAt_high _ _ _ _ (encA_lt o h) (by decide)]
  exact congrArg (fun x => some (Instr.mulh x)) (fieldsA_enc _ o h)
theorem mulhn (o : AOp) : Statement (.mulhn o) := by
  intro h sl op ho
  cases ho
  refine ⟨by decide, ?_⟩
  show rawSlot _ (_ * 2 ^ 40 + encA o) = _
  rw [rawSlot, bitsAt_high _ _ _ _ (encA_lt o h) (by decide)]
  exact congrArg (fun x => some (Instr.mulhn x)) (fieldsA_enc _ o h)
theorem div (o : AOp) : Statement (.div o) := by
  intro h sl op ho
  cases ho
  refine ⟨by decide, ?_⟩
  show rawSlot _ (_ * 2 ^ 40 + encA o) = _
  rw [rawSlot, bitsAt_high _ _ _ _ (encA_lt o h) (by decide)]
  exact congrArg (fun x => some (Instr.div x)) (fieldsA_enc _ o h)
theorem divn (o : AOp) : Statement (.divn o) := by
  intro h sl op ho
  cases ho
  refine ⟨by decide, ?_⟩
  show rawSlot _ (_ * 2 ^ 40 + encA o) = _
  rw [rawSlot, bitsAt_high _ _ _ _ (encA_lt o h) (by decide)]
  exact congrArg (fun x => some (Instr.divn x)) (fieldsA_enc _ o h)
theorem rem (o : AOp) : Statement (.rem o) := by
  intro h sl op ho
  cases ho
  refine ⟨by decide, ?_⟩
  show rawSlot _ (_ * 2 ^ 40 + encA o) = _
  rw [rawSlot, bitsAt_high _ _ _ _ (encA_lt o h) (by decide)]
  exact congrArg (fun x => some (Instr.rem x)) (fieldsA_enc _ o h)
theorem remn (o : AOp) : Statement (.remn o) := by
  intro h sl op ho
  cases ho
  refine ⟨by decide, ?_⟩
  show rawSlot _ (_ * 2 ^ 40 + encA o) = _
  rw [rawSlot, bitsAt_high _ _ _ _ (encA_lt o h) (by decide)]
  exact congrArg (fun x => some (Instr.remn x)) (fieldsA_enc _ o h)
theorem minS (o : AOp) : Statement (.minS o) := by
  intro h sl op ho
  cases ho
  refine ⟨by decide, ?_⟩
  show rawSlot _ (_ * 2 ^ 40 + encA o) = _
  rw [rawSlot, bitsAt_high _ _ _ _ (encA_lt o h) (by decide)]
  exact congrArg (fun x => some (Instr.minS x)) (fieldsA_enc _ o h)
theorem maxS (o : AOp) : Statement (.maxS o) := by
  intro h sl op ho
  cases ho
  refine ⟨by decide, ?_⟩
  show rawSlot _ (_ * 2 ^ 40 + encA o) = _
  rw [rawSlot, bitsAt_high _ _ _ _ (encA_lt o h) (by decide)]
  exact congrArg (fun x => some (Instr.maxS x)) (fieldsA_enc _ o h)
theorem minn (o : AOp) : Statement (.minn o) := by
  intro h sl op ho
  cases ho
  refine ⟨by decide, ?_⟩
  show rawSlot _ (_ * 2 ^ 40 + encA o) = _
  rw [rawSlot, bitsAt_high _ _ _ _ (encA_lt o h) (by decide)]
  exact congrArg (fun x => some (Instr.minn x)) (fieldsA_enc _ o h)
theorem maxn (o : AOp) : Statement (.maxn o) := by
  intro h sl op ho
  cases ho
  refine ⟨by decide, ?_⟩
  show rawSlot _ (_ * 2 ^ 40 + encA o) = _
  rw [rawSlot, bitsAt_high _ _ _ _ (encA_lt o h) (by decide)]
  exact congrArg (fun x => some (Instr.maxn x)) (fieldsA_enc _ o h)
theorem cmpeq (o : AOp) : Statement (.cmpeq o) := by
  intro h sl op ho
  cases ho
  refine ⟨by decide, ?_⟩
  show rawSlot _ (_ * 2 ^ 40 + encA o) = _
  rw [rawSlot, bitsAt_high _ _ _ _ (encA_lt o h) (by decide)]
  exact congrArg (fun x => some (Instr.cmpeq x)) (fieldsA_enc _ o h)
theorem cmpne (o : AOp) : Statement (.cmpne o) := by
  intro h sl op ho
  cases ho
  refine ⟨by decide, ?_⟩
  show rawSlot _ (_ * 2 ^ 40 + encA o) = _
  rw [rawSlot, bitsAt_high _ _ _ _ (encA_lt o h) (by decide)]
  exact congrArg (fun x => some (Instr.cmpne x)) (fieldsA_enc _ o h)
theorem cmplt (o : AOp) : Statement (.cmplt o) := by
  intro h sl op ho
  cases ho
  refine ⟨by decide, ?_⟩
  show rawSlot _ (_ * 2 ^ 40 + encA o) = _
  rw [rawSlot, bitsAt_high _ _ _ _ (encA_lt o h) (by decide)]
  exact congrArg (fun x => some (Instr.cmplt x)) (fieldsA_enc _ o h)
theorem cmpltn (o : AOp) : Statement (.cmpltn o) := by
  intro h sl op ho
  cases ho
  refine ⟨by decide, ?_⟩
  show rawSlot _ (_ * 2 ^ 40 + encA o) = _
  rw [rawSlot, bitsAt_high _ _ _ _ (encA_lt o h) (by decide)]
  exact congrArg (fun x => some (Instr.cmpltn x)) (fieldsA_enc _ o h)
theorem sel (o : AOp) : Statement (.sel o) := by
  intro h sl op ho
  cases ho
  refine ⟨by decide, ?_⟩
  show rawSlot _ (_ * 2 ^ 40 + encA o) = _
  rw [rawSlot, bitsAt_high _ _ _ _ (encA_lt o h) (by decide)]
  exact congrArg (fun x => some (Instr.sel x)) (fieldsA_enc _ o h)
theorem clz (o : AOp) : Statement (.clz o) := by
  intro h sl op ho
  cases ho
  refine ⟨by decide, ?_⟩
  show rawSlot _ (_ * 2 ^ 40 + encA o) = _
  rw [rawSlot, bitsAt_high _ _ _ _ (encA_lt o h) (by decide)]
  exact congrArg (fun x => some (Instr.clz x)) (fieldsA_enc _ o h)
theorem ctz (o : AOp) : Statement (.ctz o) := by
  intro h sl op ho
  cases ho
  refine ⟨by decide, ?_⟩
  show rawSlot _ (_ * 2 ^ 40 + encA o) = _
  rw [rawSlot, bitsAt_high _ _ _ _ (encA_lt o h) (by decide)]
  exact congrArg (fun x => some (Instr.ctz x)) (fieldsA_enc _ o h)
theorem popc (o : AOp) : Statement (.popc o) := by
  intro h sl op ho
  cases ho
  refine ⟨by decide, ?_⟩
  show rawSlot _ (_ * 2 ^ 40 + encA o) = _
  rw [rawSlot, bitsAt_high _ _ _ _ (encA_lt o h) (by decide)]
  exact congrArg (fun x => some (Instr.popc x)) (fieldsA_enc _ o h)
theorem addsat (o : AOp) : Statement (.addsat o) := by
  intro h sl op ho
  cases ho
  refine ⟨by decide, ?_⟩
  show rawSlot _ (_ * 2 ^ 40 + encA o) = _
  rw [rawSlot, bitsAt_high _ _ _ _ (encA_lt o h) (by decide)]
  exact congrArg (fun x => some (Instr.addsat x)) (fieldsA_enc _ o h)
theorem subsat (o : AOp) : Statement (.subsat o) := by
  intro h sl op ho
  cases ho
  refine ⟨by decide, ?_⟩
  show rawSlot _ (_ * 2 ^ 40 + encA o) = _
  rw [rawSlot, bitsAt_high _ _ _ _ (encA_lt o h) (by decide)]
  exact congrArg (fun x => some (Instr.subsat x)) (fieldsA_enc _ o h)
theorem addx (o : AOp) : Statement (.addx o) := by
  intro h sl op ho
  cases ho
  refine ⟨by decide, ?_⟩
  show rawSlot _ (_ * 2 ^ 40 + encA o) = _
  rw [rawSlot, bitsAt_high _ _ _ _ (encA_lt o h) (by decide)]
  exact congrArg (fun x => some (Instr.addx x)) (fieldsA_enc _ o h)
theorem addi (o : IOp) : Statement (.addi o) := by
  intro h sl op ho
  cases ho
  refine ⟨by decide, ?_⟩
  show rawSlot _ (_ * 2 ^ 40 + encI o) = _
  rw [rawSlot, bitsAt_high _ _ _ _ (encI_lt o h) (by decide)]
  exact congrArg (fun x => some (Instr.addi x)) (fieldsI_enc _ o h)
theorem andi (o : IOp) : Statement (.andi o) := by
  intro h sl op ho
  cases ho
  refine ⟨by decide, ?_⟩
  show rawSlot _ (_ * 2 ^ 40 + encI o) = _
  rw [rawSlot, bitsAt_high _ _ _ _ (encI_lt o h) (by decide)]
  exact congrArg (fun x => some (Instr.andi x)) (fieldsI_enc _ o h)
theorem ori (o : IOp) : Statement (.ori o) := by
  intro h sl op ho
  cases ho
  refine ⟨by decide, ?_⟩
  show rawSlot _ (_ * 2 ^ 40 + encI o) = _
  rw [rawSlot, bitsAt_high _ _ _ _ (encI_lt o h) (by decide)]
  exact congrArg (fun x => some (Instr.ori x)) (fieldsI_enc _ o h)
theorem xori (o : IOp) : Statement (.xori o) := by
  intro h sl op ho
  cases ho
  refine ⟨by decide, ?_⟩
  show rawSlot _ (_ * 2 ^ 40 + encI o) = _
  rw [rawSlot, bitsAt_high _ _ _ _ (encI_lt o h) (by decide)]
  exact congrArg (fun x => some (Instr.xori x)) (fieldsI_enc _ o h)
theorem shli (o : IOp) : Statement (.shli o) := by
  intro h sl op ho
  cases ho
  refine ⟨by decide, ?_⟩
  show rawSlot _ (_ * 2 ^ 40 + encI o) = _
  rw [rawSlot, bitsAt_high _ _ _ _ (encI_lt o h) (by decide)]
  exact congrArg (fun x => some (Instr.shli x)) (fieldsI_enc _ o h)
theorem shri (o : IOp) : Statement (.shri o) := by
  intro h sl op ho
  cases ho
  refine ⟨by decide, ?_⟩
  show rawSlot _ (_ * 2 ^ 40 + encI o) = _
  rw [rawSlot, bitsAt_high _ _ _ _ (encI_lt o h) (by decide)]
  exact congrArg (fun x => some (Instr.shri x)) (fieldsI_enc _ o h)
theorem srai (o : IOp) : Statement (.srai o) := by
  intro h sl op ho
  cases ho
  refine ⟨by decide, ?_⟩
  show rawSlot _ (_ * 2 ^ 40 + encI o) = _
  rw [rawSlot, bitsAt_high _ _ _ _ (encI_lt o h) (by decide)]
  exact congrArg (fun x => some (Instr.srai x)) (fieldsI_enc _ o h)
theorem cmpeqi (o : IOp) : Statement (.cmpeqi o) := by
  intro h sl op ho
  cases ho
  refine ⟨by decide, ?_⟩
  show rawSlot _ (_ * 2 ^ 40 + encI o) = _
  rw [rawSlot, bitsAt_high _ _ _ _ (encI_lt o h) (by decide)]
  exact congrArg (fun x => some (Instr.cmpeqi x)) (fieldsI_enc _ o h)
theorem cmplti (o : IOp) : Statement (.cmplti o) := by
  intro h sl op ho
  cases ho
  refine ⟨by decide, ?_⟩
  show rawSlot _ (_ * 2 ^ 40 + encI o) = _
  rw [rawSlot, bitsAt_high _ _ _ _ (encI_lt o h) (by decide)]
  exact congrArg (fun x => some (Instr.cmplti x)) (fieldsI_enc _ o h)
theorem muli (o : IOp) : Statement (.muli o) := by
  intro h sl op ho
  cases ho
  refine ⟨by decide, ?_⟩
  show rawSlot _ (_ * 2 ^ 40 + encI o) = _
  rw [rawSlot, bitsAt_high _ _ _ _ (encI_lt o h) (by decide)]
  exact congrArg (fun x => some (Instr.muli x)) (fieldsI_enc _ o h)
theorem liK (o : KOp) : Statement (.liK o) := by
  intro h sl op ho
  cases ho
  refine ⟨by decide, ?_⟩
  show rawSlot _ (_ * 2 ^ 40 + encK o) = _
  rw [rawSlot, bitsAt_high _ _ _ _ (encK_lt o h) (by decide)]
  exact congrArg (fun x => some (Instr.liK x)) (fieldsK_enc _ o h)
theorem lih (o : KOp) : Statement (.lih o) := by
  intro h sl op ho
  cases ho
  refine ⟨by decide, ?_⟩
  show rawSlot _ (_ * 2 ^ 40 + encK o) = _
  rw [rawSlot, bitsAt_high _ _ _ _ (encK_lt o h) (by decide)]
  exact congrArg (fun x => some (Instr.lih x)) (fieldsK_enc _ o h)
theorem extr (o : AOp) : Statement (.extr o) := by
  intro h sl op ho
  cases ho
  refine ⟨by decide, ?_⟩
  show rawSlot _ (_ * 2 ^ 40 + encA o) = _
  rw [rawSlot, bitsAt_high _ _ _ _ (encA_lt o h) (by decide)]
  exact congrArg (fun x => some (Instr.extr x)) (fieldsA_enc _ o h)
theorem insr (o : AOp) : Statement (.insr o) := by
  intro h sl op ho
  cases ho
  refine ⟨by decide, ?_⟩
  show rawSlot _ (_ * 2 ^ 40 + encA o) = _
  rw [rawSlot, bitsAt_high _ _ _ _ (encA_lt o h) (by decide)]
  exact congrArg (fun x => some (Instr.insr x)) (fieldsA_enc _ o h)
theorem rhash (o : AOp) : Statement (.rhash o) := by
  intro h sl op ho
  cases ho
  refine ⟨by decide, ?_⟩
  show rawSlot _ (_ * 2 ^ 40 + encA o) = _
  rw [rawSlot, bitsAt_high _ _ _ _ (encA_lt o h) (by decide)]
  exact congrArg (fun x => some (Instr.rhash x)) (fieldsA_enc _ o h)
theorem movc (o : IOp) : Statement (.movc o) := by
  intro h sl op ho
  cases ho
  refine ⟨by decide, ?_⟩
  show rawSlot _ (_ * 2 ^ 40 + encI o) = _
  rw [rawSlot, bitsAt_high _ _ _ _ (encI_lt o h) (by decide)]
  exact congrArg (fun x => some (Instr.movc x)) (fieldsI_enc _ o h)
theorem movtc (o : IOp) : Statement (.movtc o) := by
  intro h sl op ho
  cases ho
  refine ⟨by decide, ?_⟩
  show rawSlot _ (_ * 2 ^ 40 + encI o) = _
  rw [rawSlot, bitsAt_high _ _ _ _ (encI_lt o h) (by decide)]
  exact congrArg (fun x => some (Instr.movtc x)) (fieldsI_enc _ o h)
theorem br (o : JOp) : Statement (.br o) := by
  intro h sl op ho
  cases ho
  refine ⟨by decide, ?_⟩
  show rawSlot _ (_ * 2 ^ 40 + encJ o) = _
  rw [rawSlot, bitsAt_high _ _ _ _ (encJ_lt o h) (by decide)]
  exact congrArg (fun x => some (Instr.br x)) (fieldsJ_enc _ o h)
theorem bz (o : JOp) : Statement (.bz o) := by
  intro h sl op ho
  cases ho
  refine ⟨by decide, ?_⟩
  show rawSlot _ (_ * 2 ^ 40 + encJ o) = _
  rw [rawSlot, bitsAt_high _ _ _ _ (encJ_lt o h) (by decide)]
  exact congrArg (fun x => some (Instr.bz x)) (fieldsJ_enc _ o h)
theorem bnz (o : JOp) : Statement (.bnz o) := by
  intro h sl op ho
  cases ho
  refine ⟨by decide, ?_⟩
  show rawSlot _ (_ * 2 ^ 40 + encJ o) = _
  rw [rawSlot, bitsAt_high _ _ _ _ (encJ_lt o h) (by decide)]
  exact congrArg (fun x => some (Instr.bnz x)) (fieldsJ_enc _ o h)
theorem bltz (o : JOp) : Statement (.bltz o) := by
  intro h sl op ho
  cases ho
  refine ⟨by decide, ?_⟩
  show rawSlot _ (_ * 2 ^ 40 + encJ o) = _
  rw [rawSlot, bitsAt_high _ _ _ _ (encJ_lt o h) (by decide)]
  exact congrArg (fun x => some (Instr.bltz x)) (fieldsJ_enc _ o h)
theorem bgez (o : JOp) : Statement (.bgez o) := by
  intro h sl op ho
  cases ho
  refine ⟨by decide, ?_⟩
  show rawSlot _ (_ * 2 ^ 40 + encJ o) = _
  rw [rawSlot, bitsAt_high _ _ _ _ (encJ_lt o h) (by decide)]
  exact congrArg (fun x => some (Instr.bgez x)) (fieldsJ_enc _ o h)
theorem jr (o : AOp) : Statement (.jr o) := by
  intro h sl op ho
  cases ho
  refine ⟨by decide, ?_⟩
  show rawSlot _ (_ * 2 ^ 40 + encA o) = _
  rw [rawSlot, bitsAt_high _ _ _ _ (encA_lt o h) (by decide)]
  exact congrArg (fun x => some (Instr.jr x)) (fieldsA_enc _ o h)
theorem call (o : JOp) : Statement (.call o) := by
  intro h sl op ho
  cases ho
  refine ⟨by decide, ?_⟩
  show rawSlot _ (_ * 2 ^ 40 + encJ o) = _
  rw [rawSlot, bitsAt_high _ _ _ _ (encJ_lt o h) (by decide)]
  exact congrArg (fun x => some (Instr.call x)) (fieldsJ_enc _ o h)
theorem ret (o : AOp) : Statement (.ret o) := by
  intro h sl op ho
  cases ho
  refine ⟨by decide, ?_⟩
  show rawSlot _ (_ * 2 ^ 40 + encA o) = _
  rw [rawSlot, bitsAt_high _ _ _ _ (encA_lt o h) (by decide)]
  exact congrArg (fun x => some (Instr.ret x)) (fieldsA_enc _ o h)
theorem loop (o : JOp) : Statement (.loop o) := by
  intro h sl op ho
  cases ho
  refine ⟨by decide, ?_⟩
  show rawSlot _ (_ * 2 ^ 40 + encJ o) = _
  rw [rawSlot, bitsAt_high _ _ _ _ (encJ_lt o h) (by decide)]
  exact congrArg (fun x => some (Instr.loop x)) (fieldsJ_enc _ o h)
theorem loopn (o : JOp) : Statement (.loopn o) := by
  intro h sl op ho
  cases ho
  refine ⟨by decide, ?_⟩
  show rawSlot _ (_ * 2 ^ 40 + encJ o) = _
  rw [rawSlot, bitsAt_high _ _ _ _ (encJ_lt o h) (by decide)]
  exact congrArg (fun x => some (Instr.loopn x)) (fieldsJ_enc _ o h)
theorem syncD (o : IOp) : Statement (.syncD o) := by
  intro h sl op ho
  cases ho
  refine ⟨by decide, ?_⟩
  show rawSlot _ (_ * 2 ^ 40 + encI o) = _
  rw [rawSlot, bitsAt_high _ _ _ _ (encI_lt o h) (by decide)]
  exact congrArg (fun x => some (Instr.syncD x)) (fieldsI_enc _ o h)
theorem sleepu (o : AOp) : Statement (.sleepu o) := by
  intro h sl op ho
  cases ho
  refine ⟨by decide, ?_⟩
  show rawSlot _ (_ * 2 ^ 40 + encA o) = _
  rw [rawSlot, bitsAt_high _ _ _ _ (encA_lt o h) (by decide)]
  exact congrArg (fun x => some (Instr.sleepu x)) (fieldsA_enc _ o h)
theorem sleepuWake : Statement .sleepuWake := fun _ _ _ h => nomatch h
theorem exitT (o : AOp) : Statement (.exitT o) := by
  intro h sl op ho
  cases ho
  refine ⟨by decide, ?_⟩
  show rawSlot _ (_ * 2 ^ 40 + encA o) = _
  rw [rawSlot, bitsAt_high _ _ _ _ (encA_lt o h) (by decide)]
  exact congrArg (fun x => some (Instr.exitT x)) (fieldsA_enc _ o h)
theorem gnext (o : AOp) : Statement (.gnext o) := by
  intro h sl op ho
  cases ho
  refine ⟨by decide, ?_⟩
  show rawSlot _ (_ * 2 ^ 40 + encA o) = _
  rw [rawSlot, bitsAt_high _ _ _ _ (encA_lt o h) (by decide)]
  exact congrArg (fun x => some (Instr.gnext x)) (fieldsA_enc _ o h)
theorem trap (o : IOp) : Statement (.trap o) := by
  intro h sl op ho
  cases ho
  refine ⟨by decide, ?_⟩
  show rawSlot _ (_ * 2 ^ 40 + encI o) = _
  rw [rawSlot, bitsAt_high _ _ _ _ (encI_lt o h) (by decide)]
  exact congrArg (fun x => some (Instr.trap x)) (fieldsI_enc _ o h)
theorem brkpt (o : IOp) : Statement (.brkpt o) := by
  intro h sl op ho
  cases ho
  refine ⟨by decide, ?_⟩
  show rawSlot _ (_ * 2 ^ 40 + encI o) = _
  rw [rawSlot, bitsAt_high _ _ _ _ (encI_lt o h) (by decide)]
  exact congrArg (fun x => some (Instr.brkpt x)) (fieldsI_enc _ o h)
theorem resumeStub (o : AOp) : Statement (.resumeStub o) := by
  intro h sl op ho
  cases ho
  refine ⟨by decide, ?_⟩
  show rawSlot _ (_ * 2 ^ 40 + encA o) = _
  rw [rawSlot, bitsAt_high _ _ _ _ (encA_lt o h) (by decide)]
  exact congrArg (fun x => some (Instr.resumeStub x)) (fieldsA_enc _ o h)
theorem vadd (o : VOp) : Statement (.vadd o) := by
  intro h sl op ho
  cases ho
  refine ⟨by decide, ?_⟩
  show rawSlot _ (_ * 2 ^ 40 + encV o) = _
  rw [rawSlot, bitsAt_high _ _ _ _ (encV_lt o h) (by decide)]
  exact congrArg (fun x => some (Instr.vadd x)) (fieldsV_enc _ o h)
theorem vsub (o : VOp) : Statement (.vsub o) := by
  intro h sl op ho
  cases ho
  refine ⟨by decide, ?_⟩
  show rawSlot _ (_ * 2 ^ 40 + encV o) = _
  rw [rawSlot, bitsAt_high _ _ _ _ (encV_lt o h) (by decide)]
  exact congrArg (fun x => some (Instr.vsub x)) (fieldsV_enc _ o h)
theorem vmul (o : VOp) : Statement (.vmul o) := by
  intro h sl op ho
  cases ho
  refine ⟨by decide, ?_⟩
  show rawSlot _ (_ * 2 ^ 40 + encV o) = _
  rw [rawSlot, bitsAt_high _ _ _ _ (encV_lt o h) (by decide)]
  exact congrArg (fun x => some (Instr.vmul x)) (fieldsV_enc _ o h)
theorem vfma (o : VOp) : Statement (.vfma o) := by
  intro h sl op ho
  cases ho
  refine ⟨by decide, ?_⟩
  show rawSlot _ (_ * 2 ^ 40 + encV o) = _
  rw [rawSlot, bitsAt_high _ _ _ _ (encV_lt o h) (by decide)]
  exact congrArg (fun x => some (Instr.vfma x)) (fieldsV_enc _ o h)
theorem vfnma (o : VOp) : Statement (.vfnma o) := by
  intro h sl op ho
  cases ho
  refine ⟨by decide, ?_⟩
  show rawSlot _ (_ * 2 ^ 40 + encV o) = _
  rw [rawSlot, bitsAt_high _ _ _ _ (encV_lt o h) (by decide)]
  exact congrArg (fun x => some (Instr.vfnma x)) (fieldsV_enc _ o h)
theorem vmin (o : VOp) : Statement (.vmin o) := by
  intro h sl op ho
  cases ho
  refine ⟨by decide, ?_⟩
  show rawSlot _ (_ * 2 ^ 40 + encV o) = _
  rw [rawSlot, bitsAt_high _ _ _ _ (encV_lt o h) (by decide)]
  exact congrArg (fun x => some (Instr.vmin x)) (fieldsV_enc _ o h)
theorem vmax (o : VOp) : Statement (.vmax o) := by
  intro h sl op ho
  cases ho
  refine ⟨by decide, ?_⟩
  show rawSlot _ (_ * 2 ^ 40 + encV o) = _
  rw [rawSlot, bitsAt_high _ _ _ _ (encV_lt o h) (by decide)]
  exact congrArg (fun x => some (Instr.vmax x)) (fieldsV_enc _ o h)
theorem vabs (o : VOp) : Statement (.vabs o) := by
  intro h sl op ho
  cases ho
  refine ⟨by decide, ?_⟩
  show rawSlot _ (_ * 2 ^ 40 + encV o) = _
  rw [rawSlot, bitsAt_high _ _ _ _ (encV_lt o h) (by decide)]
  exact congrArg (fun x => some (Instr.vabs x)) (fieldsV_enc _ o h)
theorem vneg (o : VOp) : Statement (.vneg o) := by
  intro h sl op ho
  cases ho
  refine ⟨by decide, ?_⟩
  show rawSlot _ (_ * 2 ^ 40 + encV o) = _
  rw [rawSlot, bitsAt_high _ _ _ _ (encV_lt o h) (by decide)]
  exact congrArg (fun x => some (Instr.vneg x)) (fieldsV_enc _ o h)
theorem vand (o : VOp) : Statement (.vand o) := by
  intro h sl op ho
  cases ho
  refine ⟨by decide, ?_⟩
  show rawSlot _ (_ * 2 ^ 40 + encV o) = _
  rw [rawSlot, bitsAt_high _ _ _ _ (encV_lt o h) (by decide)]
  exact congrArg (fun x => some (Instr.vand x)) (fieldsV_enc _ o h)
theorem vor (o : VOp) : Statement (.vor o) := by
  intro h sl op ho
  cases ho
  refine ⟨by decide, ?_⟩
  show rawSlot _ (_ * 2 ^ 40 + encV o) = _
  rw [rawSlot, bitsAt_high _ _ _ _ (encV_lt o h) (by decide)]
  exact congrArg (fun x => some (Instr.vor x)) (fieldsV_enc _ o h)
theorem vxor (o : VOp) : Statement (.vxor o) := by
  intro h sl op ho
  cases ho
  refine ⟨by decide, ?_⟩
  show rawSlot _ (_ * 2 ^ 40 + encV o) = _
  rw [rawSlot, bitsAt_high _ _ _ _ (encV_lt o h) (by decide)]
  exact congrArg (fun x => some (Instr.vxor x)) (fieldsV_enc _ o h)
theorem vshl (o : VOp) : Statement (.vshl o) := by
  intro h sl op ho
  cases ho
  refine ⟨by decide, ?_⟩
  show rawSlot _ (_ * 2 ^ 40 + encV o) = _
  rw [rawSlot, bitsAt_high _ _ _ _ (encV_lt o h) (by decide)]
  exact congrArg (fun x => some (Instr.vshl x)) (fieldsV_enc _ o h)
theorem vshr (o : VOp) : Statement (.vshr o) := by
  intro h sl op ho
  cases ho
  refine ⟨by decide, ?_⟩
  show rawSlot _ (_ * 2 ^ 40 + encV o) = _
  rw [rawSlot, bitsAt_high _ _ _ _ (encV_lt o h) (by decide)]
  exact congrArg (fun x => some (Instr.vshr x)) (fieldsV_enc _ o h)
theorem vsra (o : VOp) : Statement (.vsra o) := by
  intro h sl op ho
  cases ho
  refine ⟨by decide, ?_⟩
  show rawSlot _ (_ * 2 ^ 40 + encV o) = _
  rw [rawSlot, bitsAt_high _ _ _ _ (encV_lt o h) (by decide)]
  exact congrArg (fun x => some (Instr.vsra x)) (fieldsV_enc _ o h)
theorem vadds (o : VOp) : Statement (.vadds o) := by
  intro h sl op ho
  cases ho
  refine ⟨by decide, ?_⟩
  show rawSlot _ (_ * 2 ^ 40 + encV o) = _
  rw [rawSlot, bitsAt_high _ _ _ _ (encV_lt o h) (by decide)]
  exact congrArg (fun x => some (Instr.vadds x)) (fieldsV_enc _ o h)
theorem vsubs (o : VOp) : Statement (.vsubs o) := by
  intro h sl op ho
  cases ho
  refine ⟨by decide, ?_⟩
  show rawSlot _ (_ * 2 ^ 40 + encV o) = _
  rw [rawSlot, bitsAt_high _ _ _ _ (encV_lt o h) (by decide)]
  exact congrArg (fun x => some (Instr.vsubs x)) (fieldsV_enc _ o h)
theorem vmulh (o : VOp) : Statement (.vmulh o) := by
  intro h sl op ho
  cases ho
  refine ⟨by decide, ?_⟩
  show rawSlot _ (_ * 2 ^ 40 + encV o) = _
  rw [rawSlot, bitsAt_high _ _ _ _ (encV_lt o h) (by decide)]
  exact congrArg (fun x => some (Instr.vmulh x)) (fieldsV_enc _ o h)
theorem vmulq (o : VOp) : Statement (.vmulq o) := by
  intro h sl op ho
  cases ho
  refine ⟨by decide, ?_⟩
  show rawSlot _ (_ * 2 ^ 40 + encV o) = _
  rw [rawSlot, bitsAt_high _ _ _ _ (encV_lt o h) (by decide)]
  exact congrArg (fun x => some (Instr.vmulq x)) (fieldsV_enc _ o h)
theorem vmacw (o : VOp) : Statement (.vmacw o) := by
  intro h sl op ho
  cases ho
  refine ⟨by decide, ?_⟩
  show rawSlot _ (_ * 2 ^ 40 + encV o) = _
  rw [rawSlot, bitsAt_high _ _ _ _ (encV_lt o h) (by decide)]
  exact congrArg (fun x => some (Instr.vmacw x)) (fieldsV_enc _ o h)
theorem vdot4 (o : VOp) : Statement (.vdot4 o) := by
  intro h sl op ho
  cases ho
  refine ⟨by decide, ?_⟩
  show rawSlot _ (_ * 2 ^ 40 + encV o) = _
  rw [rawSlot, bitsAt_high _ _ _ _ (encV_lt o h) (by decide)]
  exact congrArg (fun x => some (Instr.vdot4 x)) (fieldsV_enc _ o h)
theorem vdiv (o : VOp) : Statement (.vdiv o) := by
  intro h sl op ho
  cases ho
  refine ⟨by decide, ?_⟩
  show rawSlot _ (_ * 2 ^ 40 + encV o) = _
  rw [rawSlot, bitsAt_high _ _ _ _ (encV_lt o h) (by decide)]
  exact congrArg (fun x => some (Instr.vdiv x)) (fieldsV_enc _ o h)
theorem vsqrt (o : VOp) : Statement (.vsqrt o) := by
  intro h sl op ho
  cases ho
  refine ⟨by decide, ?_⟩
  show rawSlot _ (_ * 2 ^ 40 + encV o) = _
  rw [rawSlot, bitsAt_high _ _ _ _ (encV_lt o h) (by decide)]
  exact congrArg (fun x => some (Instr.vsqrt x)) (fieldsV_enc _ o h)
theorem vrcp (o : VOp) : Statement (.vrcp o) := by
  intro h sl op ho
  cases ho
  refine ⟨by decide, ?_⟩
  show rawSlot _ (_ * 2 ^ 40 + encV o) = _
  rw [rawSlot, bitsAt_high _ _ _ _ (encV_lt o h) (by decide)]
  exact congrArg (fun x => some (Instr.vrcp x)) (fieldsV_enc _ o h)
theorem vrsq (o : VOp) : Statement (.vrsq o) := by
  intro h sl op ho
  cases ho
  refine ⟨by decide, ?_⟩
  show rawSlot _ (_ * 2 ^ 40 + encV o) = _
  rw [rawSlot, bitsAt_high _ _ _ _ (encV_lt o h) (by decide)]
  exact congrArg (fun x => some (Instr.vrsq x)) (fieldsV_enc _ o h)
theorem vexp2q (o : VOp) : Statement (.vexp2q o) := by
  intro h sl op ho
  cases ho
  refine ⟨by decide, ?_⟩
  show rawSlot _ (_ * 2 ^ 40 + encV o) = _
  rw [rawSlot, bitsAt_high _ _ _ _ (encV_lt o h) (by decide)]
  exact congrArg (fun x => some (Instr.vexp2q x)) (fieldsV_enc _ o h)
theorem vcvt (o : VOp) : Statement (.vcvt o) := by
  intro h sl op ho
  cases ho
  refine ⟨by decide, ?_⟩
  show rawSlot _ (_ * 2 ^ 40 + encV o) = _
  rw [rawSlot, bitsAt_high _ _ _ _ (encV_lt o h) (by decide)]
  exact congrArg (fun x => some (Instr.vcvt x)) (fieldsV_enc _ o h)
theorem vpack (o : VOp) : Statement (.vpack o) := by
  intro h sl op ho
  cases ho
  refine ⟨by decide, ?_⟩
  show rawSlot _ (_ * 2 ^ 40 + encV o) = _
  rw [rawSlot, bitsAt_high _ _ _ _ (encV_lt o h) (by decide)]
  exact congrArg (fun x => some (Instr.vpack x)) (fieldsV_enc _ o h)
theorem vunpk (o : VOp) : Statement (.vunpk o) := by
  intro h sl op ho
  cases ho
  refine ⟨by decide, ?_⟩
  show rawSlot _ (_ * 2 ^ 40 + encV o) = _
  rw [rawSlot, bitsAt_high _ _ _ _ (encV_lt o h) (by decide)]
  exact congrArg (fun x => some (Instr.vunpk x)) (fieldsV_enc _ o h)
theorem vcmpeq (o : VOp) : Statement (.vcmpeq o) := by
  intro h sl op ho
  cases ho
  refine ⟨by decide, ?_⟩
  show rawSlot _ (_ * 2 ^ 40 + encV o) = _
  rw [rawSlot, bitsAt_high _ _ _ _ (encV_lt o h) (by decide)]
  exact congrArg (fun x => some (Instr.vcmpeq x)) (fieldsV_enc _ o h)
theorem vcmpne (o : VOp) : Statement (.vcmpne o) := by
  intro h sl op ho
  cases ho
  refine ⟨by decide, ?_⟩
  show rawSlot _ (_ * 2 ^ 40 + encV o) = _
  rw [rawSlot, bitsAt_high _ _ _ _ (encV_lt o h) (by decide)]
  exact congrArg (fun x => some (Instr.vcmpne x)) (fieldsV_enc _ o h)
theorem vcmplt (o : VOp) : Statement (.vcmplt o) := by
  intro h sl op ho
  cases ho
  refine ⟨by decide, ?_⟩
  show rawSlot _ (_ * 2 ^ 40 + encV o) = _
  rw [rawSlot, bitsAt_high _ _ _ _ (encV_lt o h) (by decide)]
  exact congrArg (fun x => some (Instr.vcmplt x)) (fieldsV_enc _ o h)
theorem vcmple (o : VOp) : Statement (.vcmple o) := by
  intro h sl op ho
  cases ho
  refine ⟨by decide, ?_⟩
  show rawSlot _ (_ * 2 ^ 40 + encV o) = _
  rw [rawSlot, bitsAt_high _ _ _ _ (encV_lt o h) (by decide)]
  exact congrArg (fun x => some (Instr.vcmple x)) (fieldsV_enc _ o h)
theorem vclass (o : VOp) : Statement (.vclass o) := by
  intro h sl op ho
  cases ho
  refine ⟨by decide, ?_⟩
  show rawSlot _ (_ * 2 ^ 40 + encV o) = _
  rw [rawSlot, bitsAt_high _ _ _ _ (encV_lt o h) (by decide)]
  exact congrArg (fun x => some (Instr.vclass x)) (fieldsV_enc _ o h)
theorem pand (o : VOp) : Statement (.pand o) := by
  intro h sl op ho
  cases ho
  refine ⟨by decide, ?_⟩
  show rawSlot _ (_ * 2 ^ 40 + encV o) = _
  rw [rawSlot, bitsAt_high _ _ _ _ (encV_lt o h) (by decide)]
  exact congrArg (fun x => some (Instr.pand x)) (fieldsV_enc _ o h)
theorem por (o : VOp) : Statement (.por o) := by
  intro h sl op ho
  cases ho
  refine ⟨by decide, ?_⟩
  show rawSlot _ (_ * 2 ^ 40 + encV o) = _
  rw [rawSlot, bitsAt_high _ _ _ _ (encV_lt o h) (by decide)]
  exact congrArg (fun x => some (Instr.por x)) (fieldsV_enc _ o h)
theorem pxor (o : VOp) : Statement (.pxor o) := by
  intro h sl op ho
  cases ho
  refine ⟨by decide, ?_⟩
  show rawSlot _ (_ * 2 ^ 40 + encV o) = _
  rw [rawSlot, bitsAt_high _ _ _ _ (encV_lt o h) (by decide)]
  exact congrArg (fun x => some (Instr.pxor x)) (fieldsV_enc _ o h)
theorem pnot (o : VOp) : Statement (.pnot o) := by
  intro h sl op ho
  cases ho
  refine ⟨by decide, ?_⟩
  show rawSlot _ (_ * 2 ^ 40 + encV o) = _
  rw [rawSlot, bitsAt_high _ _ _ _ (encV_lt o h) (by decide)]
  exact congrArg (fun x => some (Instr.pnot x)) (fieldsV_enc _ o h)
theorem pcnt (o : VOp) : Statement (.pcnt o) := by
  intro h sl op ho
  cases ho
  refine ⟨by decide, ?_⟩
  show rawSlot _ (_ * 2 ^ 40 + encV o) = _
  rw [rawSlot, bitsAt_high _ _ _ _ (encV_lt o h) (by decide)]
  exact congrArg (fun x => some (Instr.pcnt x)) (fieldsV_enc _ o h)
theorem vradd (o : VOp) : Statement (.vradd o) := by
  intro h sl op ho
  cases ho
  refine ⟨by decide, ?_⟩
  show rawSlot _ (_ * 2 ^ 40 + encV o) = _
  rw [rawSlot, bitsAt_high _ _ _ _ (encV_lt o h) (by decide)]
  exact congrArg (fun x => some (Instr.vradd x)) (fieldsV_enc _ o h)
theorem vrmax (o : VOp) : Statement (.vrmax o) := by
  intro h sl op ho
  cases ho
  refine ⟨by decide, ?_⟩
  show rawSlot _ (_ * 2 ^ 40 + encV o) = _
  rw [rawSlot, bitsAt_high _ _ _ _ (encV_lt o h) (by decide)]
  exact congrArg (fun x => some (Instr.vrmax x)) (fieldsV_enc _ o h)
theorem vrmin (o : VOp) : Statement (.vrmin o) := by
  intro h sl op ho
  cases ho
  refine ⟨by decide, ?_⟩
  show rawSlot _ (_ * 2 ^ 40 + encV o) = _
  rw [rawSlot, bitsAt_high _ _ _ _ (encV_lt o h) (by decide)]
  exact congrArg (fun x => some (Instr.vrmin x)) (fieldsV_enc _ o h)
theorem vpsum (o : VOp) : Statement (.vpsum o) := by
  intro h sl op ho
  cases ho
  refine ⟨by decide, ?_⟩
  show rawSlot _ (_ * 2 ^ 40 + encV o) = _
  rw [rawSlot, bitsAt_high _ _ _ _ (encV_lt o h) (by decide)]
  exact congrArg (fun x => some (Instr.vpsum x)) (fieldsV_enc _ o h)
theorem vfind (o : VOp) : Statement (.vfind o) := by
  intro h sl op ho
  cases ho
  refine ⟨by decide, ?_⟩
  show rawSlot _ (_ * 2 ^ 40 + encV o) = _
  rw [rawSlot, bitsAt_high _ _ _ _ (encV_lt o h) (by decide)]
  exact congrArg (fun x => some (Instr.vfind x)) (fieldsV_enc _ o h)
theorem vperm (o : VOp) : Statement (.vperm o) := by
  intro h sl op ho
  cases ho
  refine ⟨by decide, ?_⟩
  show rawSlot _ (_ * 2 ^ 40 + encV o) = _
  rw [rawSlot, bitsAt_high _ _ _ _ (encV_lt o h) (by decide)]
  exact congrArg (fun x => some (Instr.vperm x)) (fieldsV_enc _ o h)
theorem vsplat (o : VOp) : Statement (.vsplat o) := by
  intro h sl op ho
  cases ho
  refine ⟨by decide, ?_⟩
  show rawSlot _ (_ * 2 ^ 40 + encV o) = _
  rw [rawSlot, bitsAt_high _ _ _ _ (encV_lt o h) (by decide)]
  exact congrArg (fun x => some (Instr.vsplat x)) (fieldsV_enc _ o h)
theorem vins (o : VOp) : Statement (.vins o) := by
  intro h sl op ho
  cases ho
  refine ⟨by decide, ?_⟩
  show rawSlot _ (_ * 2 ^ 40 + encV o) = _
  rw [rawSlot, bitsAt_high _ _ _ _ (encV_lt o h) (by decide)]
  exact congrArg (fun x => some (Instr.vins x)) (fieldsV_enc _ o h)
theorem vext (o : VOp) : Statement (.vext o) := by
  intro h sl op ho
  cases ho
  refine ⟨by decide, ?_⟩
  show rawSlot _ (_ * 2 ^ 40 + encV o) = _
  rw [rawSlot, bitsAt_high _ _ _ _ (encV_lt o h) (by decide)]
  exact congrArg (fun x => some (Instr.vext x)) (fieldsV_enc _ o h)
theorem vsel (o : VOp) : Statement (.vsel o) := by
  intro h sl op ho
  cases ho
  refine ⟨by decide, ?_⟩
  show rawSlot _ (_ * 2 ^ 40 + encV o) = _
  rw [rawSlot, bitsAt_high _ _ _ _ (encV_lt o h) (by decide)]
  exact congrArg (fun x => some (Instr.vsel x)) (fieldsV_enc _ o h)
theorem vslide (o : VOp) : Statement (.vslide o) := by
  intro h sl op ho
  cases ho
  refine ⟨by decide, ?_⟩
  show rawSlot _ (_ * 2 ^ 40 + encV o) = _
  rw [rawSlot, bitsAt_high _ _ _ _ (encV_lt o h) (by decide)]
  exact congrArg (fun x => some (Instr.vslide x)) (fieldsV_enc _ o h)
theorem mfmt (o : MOp) : Statement (.mfmt o) := by
  intro h sl op ho
  cases ho
  refine ⟨by decide, ?_⟩
  show rawSlot _ (_ * 2 ^ 40 + encM o) = _
  rw [rawSlot, bitsAt_high _ _ _ _ (encM_lt o h) (by decide)]
  exact congrArg (fun x => some (Instr.mfmt x)) (fieldsM_enc _ o h)
theorem mma (o : MOp) : Statement (.mma o) := by
  intro h sl op ho
  cases ho
  refine ⟨by decide, ?_⟩
  show rawSlot _ (_ * 2 ^ 40 + encM o) = _
  rw [rawSlot, bitsAt_high _ _ _ _ (encM_lt o h) (by decide)]
  exact congrArg (fun x => some (Instr.mma x)) (fieldsM_enc _ o h)
theorem mmaz (o : MOp) : Statement (.mmaz o) := by
  intro h sl op ho
  cases ho
  refine ⟨by decide, ?_⟩
  show rawSlot _ (_ * 2 ^ 40 + encM o) = _
  rw [rawSlot, bitsAt_high _ _ _ _ (encM_lt o h) (by decide)]
  exact congrArg (fun x => some (Instr.mmaz x)) (fieldsM_enc _ o h)
theorem mmas (o : MOp) : Statement (.mmas o) := by
  intro h sl op ho
  cases ho
  refine ⟨by decide, ?_⟩
  show rawSlot _ (_ * 2 ^ 40 + encM o) = _
  rw [rawSlot, bitsAt_high _ _ _ _ (encM_lt o h) (by decide)]
  exact congrArg (fun x => some (Instr.mmas x)) (fieldsM_enc _ o h)
theorem mmasz (o : MOp) : Statement (.mmasz o) := by
  intro h sl op ho
  cases ho
  refine ⟨by decide, ?_⟩
  show rawSlot _ (_ * 2 ^ 40 + encM o) = _
  rw [rawSlot, bitsAt_high _ _ _ _ (encM_lt o h) (by decide)]
  exact congrArg (fun x => some (Instr.mmasz x)) (fieldsM_enc _ o h)
theorem mhad (o : MOp) : Statement (.mhad o) := by
  intro h sl op ho
  cases ho
  refine ⟨by decide, ?_⟩
  show rawSlot _ (_ * 2 ^ 40 + encM o) = _
  rw [rawSlot, bitsAt_high _ _ _ _ (encM_lt o h) (by decide)]
  exact congrArg (fun x => some (Instr.mhad x)) (fieldsM_enc _ o h)
theorem mdrain (o : MOp) : Statement (.mdrain o) := by
  intro h sl op ho
  cases ho
  refine ⟨by decide, ?_⟩
  show rawSlot _ (_ * 2 ^ 40 + encM o) = _
  rw [rawSlot, bitsAt_high _ _ _ _ (encM_lt o h) (by decide)]
  exact congrArg (fun x => some (Instr.mdrain x)) (fieldsM_enc _ o h)
theorem mdrainv (o : MOp) : Statement (.mdrainv o) := by
  intro h sl op ho
  cases ho
  refine ⟨by decide, ?_⟩
  show rawSlot _ (_ * 2 ^ 40 + encM o) = _
  rw [rawSlot, bitsAt_high _ _ _ _ (encM_lt o h) (by decide)]
  exact congrArg (fun x => some (Instr.mdrainv x)) (fieldsM_enc _ o h)
theorem mzero (o : MOp) : Statement (.mzero o) := by
  intro h sl op ho
  cases ho
  refine ⟨by decide, ?_⟩
  show rawSlot _ (_ * 2 ^ 40 + encM o) = _
  rw [rawSlot, bitsAt_high _ _ _ _ (encM_lt o h) (by decide)]
  exact congrArg (fun x => some (Instr.mzero x)) (fieldsM_enc _ o h)
theorem mldacc (o : MOp) : Statement (.mldacc o) := by
  intro h sl op ho
  cases ho
  refine ⟨by decide, ?_⟩
  show rawSlot _ (_ * 2 ^ 40 + encM o) = _
  rw [rawSlot, bitsAt_high _ _ _ _ (encM_lt o h) (by decide)]
  exact congrArg (fun x => some (Instr.mldacc x)) (fieldsM_enc _ o h)
theorem mstacc (o : MOp) : Statement (.mstacc o) := by
  intro h sl op ho
  cases ho
  refine ⟨by decide, ?_⟩
  show rawSlot _ (_ * 2 ^ 40 + encM o) = _
  rw [rawSlot, bitsAt_high _ _ _ _ (encM_lt o h) (by decide)]
  exact congrArg (fun x => some (Instr.mstacc x)) (fieldsM_enc _ o h)
theorem mseed (o : MOp) : Statement (.mseed o) := by
  intro h sl op ho
  cases ho
  refine ⟨by decide, ?_⟩
  show rawSlot _ (_ * 2 ^ 40 + encM o) = _
  rw [rawSlot, bitsAt_high _ _ _ _ (encM_lt o h) (by decide)]
  exact congrArg (fun x => some (Instr.mseed x)) (fieldsM_enc _ o h)
theorem matrixCommandStart : Statement .matrixCommandStart := fun _ _ _ h => nomatch h
theorem matrixCommandComplete : Statement .matrixCommandComplete := fun _ _ _ h => nomatch h
theorem ldL (o : LIOp) : Statement (.ldL o) := by
  intro h sl op ho
  cases ho
  refine ⟨by decide, ?_⟩
  show rawSlot _ (_ * 2 ^ 40 + encLI o) = _
  rw [rawSlot, bitsAt_high _ _ _ _ (encLI_lt o h) (by decide)]
  exact congrArg (fun x => some (Instr.ldL x)) (fieldsLI_enc _ o h)
theorem stL (o : LIOp) : Statement (.stL o) := by
  intro h sl op ho
  cases ho
  refine ⟨by decide, ?_⟩
  show rawSlot _ (_ * 2 ^ 40 + encLI o) = _
  rw [rawSlot, bitsAt_high _ _ _ _ (encLI_lt o h) (by decide)]
  exact congrArg (fun x => some (Instr.stL x)) (fieldsLI_enc _ o h)
theorem vld (o : LIOp) : Statement (.vld o) := by
  intro h sl op ho
  cases ho
  refine ⟨by decide, ?_⟩
  show rawSlot _ (_ * 2 ^ 40 + encLI o) = _
  rw [rawSlot, bitsAt_high _ _ _ _ (encLI_lt o h) (by decide)]
  exact congrArg (fun x => some (Instr.vld x)) (fieldsLI_enc _ o h)
theorem vst (o : LIOp) : Statement (.vst o) := by
  intro h sl op ho
  cases ho
  refine ⟨by decide, ?_⟩
  show rawSlot _ (_ * 2 ^ 40 + encLI o) = _
  rw [rawSlot, bitsAt_high _ _ _ _ (encLI_lt o h) (by decide)]
  exact congrArg (fun x => some (Instr.vst x)) (fieldsLI_enc _ o h)
theorem vlds (o : LAOp) : Statement (.vlds o) := by
  intro h sl op ho
  cases ho
  refine ⟨by decide, ?_⟩
  show rawSlot _ (_ * 2 ^ 40 + encLA o) = _
  rw [rawSlot, bitsAt_high _ _ _ _ (encLA_lt o h) (by decide)]
  exact congrArg (fun x => some (Instr.vlds x)) (fieldsLA_enc _ o h)
theorem vsts (o : LAOp) : Statement (.vsts o) := by
  intro h sl op ho
  cases ho
  refine ⟨by decide, ?_⟩
  show rawSlot _ (_ * 2 ^ 40 + encLA o) = _
  rw [rawSlot, bitsAt_high _ _ _ _ (encLA_lt o h) (by decide)]
  exact congrArg (fun x => some (Instr.vsts x)) (fieldsLA_enc _ o h)
theorem vgath (o : LAOp) : Statement (.vgath o) := by
  intro h sl op ho
  cases ho
  refine ⟨by decide, ?_⟩
  show rawSlot _ (_ * 2 ^ 40 + encLA o) = _
  rw [rawSlot, bitsAt_high _ _ _ _ (encLA_lt o h) (by decide)]
  exact congrArg (fun x => some (Instr.vgath x)) (fieldsLA_enc _ o h)
theorem vscat (o : LAOp) : Statement (.vscat o) := by
  intro h sl op ho
  cases ho
  refine ⟨by decide, ?_⟩
  show rawSlot _ (_ * 2 ^ 40 + encLA o) = _
  rw [rawSlot, bitsAt_high _ _ _ _ (encLA_lt o h) (by decide)]
  exact congrArg (fun x => some (Instr.vscat x)) (fieldsLA_enc _ o h)
theorem pld (o : LIOp) : Statement (.pld o) := by
  intro h sl op ho
  cases ho
  refine ⟨by decide, ?_⟩
  show rawSlot _ (_ * 2 ^ 40 + encLI o) = _
  rw [rawSlot, bitsAt_high _ _ _ _ (encLI_lt o h) (by decide)]
  exact congrArg (fun x => some (Instr.pld x)) (fieldsLI_enc _ o h)
theorem pst (o : LIOp) : Statement (.pst o) := by
  intro h sl op ho
  cases ho
  refine ⟨by decide, ?_⟩
  show rawSlot _ (_ * 2 ^ 40 + encLI o) = _
  rw [rawSlot, bitsAt_high _ _ _ _ (encLI_lt o h) (by decide)]
  exact congrArg (fun x => some (Instr.pst x)) (fieldsLI_enc _ o h)
theorem vldp (o : LIOp) : Statement (.vldp o) := by
  intro h sl op ho
  cases ho
  refine ⟨by decide, ?_⟩
  show rawSlot _ (_ * 2 ^ 40 + encLI o) = _
  rw [rawSlot, bitsAt_high _ _ _ _ (encLI_lt o h) (by decide)]
  exact congrArg (fun x => some (Instr.vldp x)) (fieldsLI_enc _ o h)
theorem peerBankAccess : Statement .peerBankAccess := fun _ _ _ h => nomatch h
theorem ldp (o : LIOp) : Statement (.ldp o) := by
  intro h sl op ho
  cases ho
  refine ⟨by decide, ?_⟩
  show rawSlot _ (_ * 2 ^ 40 + encLI o) = _
  rw [rawSlot, bitsAt_high _ _ _ _ (encLI_lt o h) (by decide)]
  exact congrArg (fun x => some (Instr.ldp x)) (fieldsLI_enc _ o h)
theorem vldw (o : LIOp) : Statement (.vldw o) := by
  intro h sl op ho
  cases ho
  refine ⟨by decide, ?_⟩
  show rawSlot _ (_ * 2 ^ 40 + encLI o) = _
  rw [rawSlot, bitsAt_high _ _ _ _ (encLI_lt o h) (by decide)]
  exact congrArg (fun x => some (Instr.vldw x)) (fieldsLI_enc _ o h)
theorem registerResultLand : Statement .registerResultLand := fun _ _ _ h => nomatch h
theorem atadd (o : LAOp) : Statement (.atadd o) := by
  intro h sl op ho
  cases ho
  refine ⟨by decide, ?_⟩
  show rawSlot _ (_ * 2 ^ 40 + encLA o) = _
  rw [rawSlot, bitsAt_high _ _ _ _ (encLA_lt o h) (by decide)]
  exact congrArg (fun x => some (Instr.atadd x)) (fieldsLA_enc _ o h)
theorem atmin (o : LAOp) : Statement (.atmin o) := by
  intro h sl op ho
  cases ho
  refine ⟨by decide, ?_⟩
  show rawSlot _ (_ * 2 ^ 40 + encLA o) = _
  rw [rawSlot, bitsAt_high _ _ _ _ (encLA_lt o h) (by decide)]
  exact congrArg (fun x => some (Instr.atmin x)) (fieldsLA_enc _ o h)
theorem atmax (o : LAOp) : Statement (.atmax o) := by
  intro h sl op ho
  cases ho
  refine ⟨by decide, ?_⟩
  show rawSlot _ (_ * 2 ^ 40 + encLA o) = _
  rw [rawSlot, bitsAt_high _ _ _ _ (encLA_lt o h) (by decide)]
  exact congrArg (fun x => some (Instr.atmax x)) (fieldsLA_enc _ o h)
theorem atand (o : LAOp) : Statement (.atand o) := by
  intro h sl op ho
  cases ho
  refine ⟨by decide, ?_⟩
  show rawSlot _ (_ * 2 ^ 40 + encLA o) = _
  rw [rawSlot, bitsAt_high _ _ _ _ (encLA_lt o h) (by decide)]
  exact congrArg (fun x => some (Instr.atand x)) (fieldsLA_enc _ o h)
theorem ator (o : LAOp) : Statement (.ator o) := by
  intro h sl op ho
  cases ho
  refine ⟨by decide, ?_⟩
  show rawSlot _ (_ * 2 ^ 40 + encLA o) = _
  rw [rawSlot, bitsAt_high _ _ _ _ (encLA_lt o h) (by decide)]
  exact congrArg (fun x => some (Instr.ator x)) (fieldsLA_enc _ o h)
theorem atxor (o : LAOp) : Statement (.atxor o) := by
  intro h sl op ho
  cases ho
  refine ⟨by decide, ?_⟩
  show rawSlot _ (_ * 2 ^ 40 + encLA o) = _
  rw [rawSlot, bitsAt_high _ _ _ _ (encLA_lt o h) (by decide)]
  exact congrArg (fun x => some (Instr.atxor x)) (fieldsLA_enc _ o h)
theorem atswp (o : LAOp) : Statement (.atswp o) := by
  intro h sl op ho
  cases ho
  refine ⟨by decide, ?_⟩
  show rawSlot _ (_ * 2 ^ 40 + encLA o) = _
  rw [rawSlot, bitsAt_high _ _ _ _ (encLA_lt o h) (by decide)]
  exact congrArg (fun x => some (Instr.atswp x)) (fieldsLA_enc _ o h)
theorem atcas (o : LAOp) : Statement (.atcas o) := by
  intro h sl op ho
  cases ho
  refine ⟨by decide, ?_⟩
  show rawSlot _ (_ * 2 ^ 40 + encLA o) = _
  rw [rawSlot, bitsAt_high _ _ _ _ (encLA_lt o h) (by decide)]
  exact congrArg (fun x => some (Instr.atcas x)) (fieldsLA_enc _ o h)
theorem takeW (o : LAOp) : Statement (.takeW o) := by
  intro h sl op ho
  cases ho
  refine ⟨by decide, ?_⟩
  show rawSlot _ (_ * 2 ^ 40 + encLA o) = _
  rw [rawSlot, bitsAt_high _ _ _ _ (encLA_lt o h) (by decide)]
  exact congrArg (fun x => some (Instr.takeW x)) (fieldsLA_enc _ o h)
theorem putW (o : LAOp) : Statement (.putW o) := by
  intro h sl op ho
  cases ho
  refine ⟨by decide, ?_⟩
  show rawSlot _ (_ * 2 ^ 40 + encLA o) = _
  rw [rawSlot, bitsAt_high _ _ _ _ (encLA_lt o h) (by decide)]
  exact congrArg (fun x => some (Instr.putW x)) (fieldsLA_enc _ o h)
theorem fullq (o : LAOp) : Statement (.fullq o) := by
  intro h sl op ho
  cases ho
  refine ⟨by decide, ?_⟩
  show rawSlot _ (_ * 2 ^ 40 + encLA o) = _
  rw [rawSlot, bitsAt_high _ _ _ _ (encLA_lt o h) (by decide)]
  exact congrArg (fun x => some (Instr.fullq x)) (fieldsLA_enc _ o h)
theorem emptyw (o : LAOp) : Statement (.emptyw o) := by
  intro h sl op ho
  cases ho
  refine ⟨by decide, ?_⟩
  show rawSlot _ (_ * 2 ^ 40 + encLA o) = _
  rw [rawSlot, bitsAt_high _ _ _ _ (encLA_lt o h) (by decide)]
  exact congrArg (fun x => some (Instr.emptyw x)) (fieldsLA_enc _ o h)
theorem cpin (o : LAOp) : Statement (.cpin o) := by
  intro h sl op ho
  cases ho
  refine ⟨by decide, ?_⟩
  show rawSlot _ (_ * 2 ^ 40 + encLA o) = _
  rw [rawSlot, bitsAt_high _ _ _ _ (encLA_lt o h) (by decide)]
  exact congrArg (fun x => some (Instr.cpin x)) (fieldsLA_enc _ o h)
theorem cpout (o : LAOp) : Statement (.cpout o) := by
  intro h sl op ho
  cases ho
  refine ⟨by decide, ?_⟩
  show rawSlot _ (_ * 2 ^ 40 + encLA o) = _
  rw [rawSlot, bitsAt_high _ _ _ _ (encLA_lt o h) (by decide)]
  exact congrArg (fun x => some (Instr.cpout x)) (fieldsLA_enc _ o h)
theorem cpin2 (o : LAOp) : Statement (.cpin2 o) := by
  intro h sl op ho
  cases ho
  refine ⟨by decide, ?_⟩
  show rawSlot _ (_ * 2 ^ 40 + encLA o) = _
  rw [rawSlot, bitsAt_high _ _ _ _ (encLA_lt o h) (by decide)]
  exact congrArg (fun x => some (Instr.cpin2 x)) (fieldsLA_enc _ o h)
theorem cpout2 (o : LAOp) : Statement (.cpout2 o) := by
  intro h sl op ho
  cases ho
  refine ⟨by decide, ?_⟩
  show rawSlot _ (_ * 2 ^ 40 + encLA o) = _
  rw [rawSlot, bitsAt_high _ _ _ _ (encLA_lt o h) (by decide)]
  exact congrArg (fun x => some (Instr.cpout2 x)) (fieldsLA_enc _ o h)
theorem cpw (o : LAOp) : Statement (.cpw o) := by
  intro h sl op ho
  cases ho
  refine ⟨by decide, ?_⟩
  show rawSlot _ (_ * 2 ^ 40 + encLA o) = _
  rw [rawSlot, bitsAt_high _ _ _ _ (encLA_lt o h) (by decide)]
  exact congrArg (fun x => some (Instr.cpw x)) (fieldsLA_enc _ o h)
theorem cpred (o : LAOp) : Statement (.cpred o) := by
  intro h sl op ho
  cases ho
  refine ⟨by decide, ?_⟩
  show rawSlot _ (_ * 2 ^ 40 + encLA o) = _
  rw [rawSlot, bitsAt_high _ _ _ _ (encLA_lt o h) (by decide)]
  exact congrArg (fun x => some (Instr.cpred x)) (fieldsLA_enc _ o h)
theorem cpfill (o : LAOp) : Statement (.cpfill o) := by
  intro h sl op ho
  cases ho
  refine ⟨by decide, ?_⟩
  show rawSlot _ (_ * 2 ^ 40 + encLA o) = _
  rw [rawSlot, bitsAt_high _ _ _ _ (encLA_lt o h) (by decide)]
  exact congrArg (fun x => some (Instr.cpfill x)) (fieldsLA_enc _ o h)
theorem copyTranslate : Statement .copyTranslate := fun _ _ _ h => nomatch h
theorem copyComplete : Statement .copyComplete := fun _ _ _ h => nomatch h
theorem maskq (o : LAOp) : Statement (.maskq o) := by
  intro h sl op ho
  cases ho
  refine ⟨by decide, ?_⟩
  show rawSlot _ (_ * 2 ^ 40 + encLA o) = _
  rw [rawSlot, bitsAt_high _ _ _ _ (encLA_lt o h) (by decide)]
  exact congrArg (fun x => some (Instr.maskq x)) (fieldsLA_enc _ o h)
theorem maskAccept : Statement .maskAccept := fun _ _ _ h => nomatch h
theorem maskComplete : Statement .maskComplete := fun _ _ _ h => nomatch h
theorem fence (o : LAOp) : Statement (.fence o) := by
  intro h sl op ho
  cases ho
  refine ⟨by decide, ?_⟩
  show rawSlot _ (_ * 2 ^ 40 + encLA o) = _
  rw [rawSlot, bitsAt_high _ _ _ _ (encLA_lt o h) (by decide)]
  exact congrArg (fun x => some (Instr.fence x)) (fieldsLA_enc _ o h)
theorem flushsig (o : LAOp) : Statement (.flushsig o) := by
  intro h sl op ho
  cases ho
  refine ⟨by decide, ?_⟩
  show rawSlot _ (_ * 2 ^ 40 + encLA o) = _
  rw [rawSlot, bitsAt_high _ _ _ _ (encLA_lt o h) (by decide)]
  exact congrArg (fun x => some (Instr.flushsig x)) (fieldsLA_enc _ o h)
theorem flushTokenArrive : Statement .flushTokenArrive := fun _ _ _ h => nomatch h
theorem sigset (o : LAOp) : Statement (.sigset o) := by
  intro h sl op ho
  cases ho
  refine ⟨by decide, ?_⟩
  show rawSlot _ (_ * 2 ^ 40 + encLA o) = _
  rw [rawSlot, bitsAt_high _ _ _ _ (encLA_lt o h) (by decide)]
  exact congrArg (fun x => some (Instr.sigset x)) (fieldsLA_enc _ o h)
theorem sigw (o : LAOp) : Statement (.sigw o) := by
  intro h sl op ho
  cases ho
  refine ⟨by decide, ?_⟩
  show rawSlot _ (_ * 2 ^ 40 + encLA o) = _
  rw [rawSlot, bitsAt_high _ _ _ _ (encLA_lt o h) (by decide)]
  exact congrArg (fun x => some (Instr.sigw x)) (fieldsLA_enc _ o h)
theorem epop (o : LAOp) : Statement (.epop o) := by
  intro h sl op ho
  cases ho
  refine ⟨by decide, ?_⟩
  show rawSlot _ (_ * 2 ^ 40 + encLA o) = _
  rw [rawSlot, bitsAt_high _ _ _ _ (encLA_lt o h) (by decide)]
  exact congrArg (fun x => some (Instr.epop x)) (fieldsLA_enc _ o h)
theorem prld (o : LAOp) : Statement (.prld o) := by
  intro h sl op ho
  cases ho
  refine ⟨by decide, ?_⟩
  show rawSlot _ (_ * 2 ^ 40 + encLA o) = _
  rw [rawSlot, bitsAt_high _ _ _ _ (encLA_lt o h) (by decide)]
  exact congrArg (fun x => some (Instr.prld x)) (fieldsLA_enc _ o h)
theorem prst (o : LAOp) : Statement (.prst o) := by
  intro h sl op ho
  cases ho
  refine ⟨by decide, ?_⟩
  show rawSlot _ (_ * 2 ^ 40 + encLA o) = _
  rw [rawSlot, bitsAt_high _ _ _ _ (encLA_lt o h) (by decide)]
  exact congrArg (fun x => some (Instr.prst x)) (fieldsLA_enc _ o h)
theorem winrd (o : LAOp) : Statement (.winrd o) := by
  intro h sl op ho
  cases ho
  refine ⟨by decide, ?_⟩
  show rawSlot _ (_ * 2 ^ 40 + encLA o) = _
  rw [rawSlot, bitsAt_high _ _ _ _ (encLA_lt o h) (by decide)]
  exact congrArg (fun x => some (Instr.winrd x)) (fieldsLA_enc _ o h)
theorem winwr (o : LAOp) : Statement (.winwr o) := by
  intro h sl op ho
  cases ho
  refine ⟨by decide, ?_⟩
  show rawSlot _ (_ * 2 ^ 40 + encLA o) = _
  rw [rawSlot, bitsAt_high _ _ _ _ (encLA_lt o h) (by decide)]
  exact congrArg (fun x => some (Instr.winwr x)) (fieldsLA_enc _ o h)
theorem privilegedReply : Statement .privilegedReply := fun _ _ _ h => nomatch h
theorem privilegedUnreachableTimeout : Statement .privilegedUnreachableTimeout := fun _ _ _ h => nomatch h
theorem send (o : XOp) : Statement (.send o) := by
  intro h sl op ho
  cases ho
  refine ⟨by decide, ?_⟩
  show rawSlot _ (_ * 2 ^ 40 + encX o) = _
  rw [rawSlot, bitsAt_high _ _ _ _ (encX_lt o h) (by decide)]
  exact congrArg (fun x => some (Instr.send x)) (fieldsX_enc _ o h)
theorem mbclr (o : XOp) : Statement (.mbclr o) := by
  intro h sl op ho
  cases ho
  refine ⟨by decide, ?_⟩
  show rawSlot _ (_ * 2 ^ 40 + encX o) = _
  rw [rawSlot, bitsAt_high _ _ _ _ (encX_lt o h) (by decide)]
  exact congrArg (fun x => some (Instr.mbclr x)) (fieldsX_enc _ o h)
theorem messageArrive : Statement .messageArrive := fun _ _ _ h => nomatch h
theorem messageRetry : Statement .messageRetry := fun _ _ _ h => nomatch h
theorem sendWindowReturn : Statement .sendWindowReturn := fun _ _ _ h => nomatch h
theorem gsig (o : XOp) : Statement (.gsig o) := by
  intro h sl op ho
  cases ho
  refine ⟨by decide, ?_⟩
  show rawSlot _ (_ * 2 ^ 40 + encX o) = _
  rw [rawSlot, bitsAt_high _ _ _ _ (encX_lt o h) (by decide)]
  exact congrArg (fun x => some (Instr.gsig x)) (fieldsX_enc _ o h)
theorem gwait (o : XOp) : Statement (.gwait o) := by
  intro h sl op ho
  cases ho
  refine ⟨by decide, ?_⟩
  show rawSlot _ (_ * 2 ^ 40 + encX o) = _
  rw [rawSlot, bitsAt_high _ _ _ _ (encX_lt o h) (by decide)]
  exact congrArg (fun x => some (Instr.gwait x)) (fieldsX_enc _ o h)
theorem gpoll (o : XOp) : Statement (.gpoll o) := by
  intro h sl op ho
  cases ho
  refine ⟨by decide, ?_⟩
  show rawSlot _ (_ * 2 ^ 40 + encX o) = _
  rw [rawSlot, bitsAt_high _ _ _ _ (encX_lt o h) (by decide)]
  exact congrArg (fun x => some (Instr.gpoll x)) (fieldsX_enc _ o h)
theorem gread (o : XOp) : Statement (.gread o) := by
  intro h sl op ho
  cases ho
  refine ⟨by decide, ?_⟩
  show rawSlot _ (_ * 2 ^ 40 + encX o) = _
  rw [rawSlot, bitsAt_high _ _ _ _ (encX_lt o h) (by decide)]
  exact congrArg (fun x => some (Instr.gread x)) (fieldsX_enc _ o h)
theorem greadReturn : Statement .greadReturn := fun _ _ _ h => nomatch h
theorem gateSignalRequest : Statement .gateSignalRequest := fun _ _ _ h => nomatch h
theorem gateTokenAdd : Statement .gateTokenAdd := fun _ _ _ h => nomatch h
theorem gateCounterIncrement : Statement .gateCounterIncrement := fun _ _ _ h => nomatch h
theorem gateMirrorUpdate : Statement .gateMirrorUpdate := fun _ _ _ h => nomatch h
theorem lineRead : Statement .lineRead := fun _ _ _ h => nomatch h
theorem lineWrite : Statement .lineWrite := fun _ _ _ h => nomatch h
theorem flitReceive : Statement .flitReceive := fun _ _ _ h => nomatch h
theorem cxlMemRequest : Statement .cxlMemRequest := fun _ _ _ h => nomatch h
theorem routeLossTimeout : Statement .routeLossTimeout := fun _ _ _ h => nomatch h
theorem kick : Statement .kick := fun _ _ _ h => nomatch h
theorem qcfgWrite : Statement .qcfgWrite := fun _ _ _ h => nomatch h
theorem registerWrite : Statement .registerWrite := fun _ _ _ h => nomatch h
theorem runRec : Statement .runRec := fun _ _ _ h => nomatch h
theorem markRec : Statement .markRec := fun _ _ _ h => nomatch h
theorem pasidInvalidation : Statement .pasidInvalidation := fun _ _ _ h => nomatch h
theorem nodeStart : Statement .nodeStart := fun _ _ _ h => nomatch h
theorem joinNode : Statement .joinNode := fun _ _ _ h => nomatch h
theorem launchNode : Statement .launchNode := fun _ _ _ h => nomatch h
theorem launchPopulate : Statement .launchPopulate := fun _ _ _ h => nomatch h
theorem gangStart : Statement .gangStart := fun _ _ _ h => nomatch h
theorem launchComplete : Statement .launchComplete := fun _ _ _ h => nomatch h
theorem copyNode : Statement .copyNode := fun _ _ _ h => nomatch h
theorem signalNode : Statement .signalNode := fun _ _ _ h => nomatch h
theorem waitNode : Statement .waitNode := fun _ _ _ h => nomatch h
theorem waitNodeTimeout : Statement .waitNodeTimeout := fun _ _ _ h => nomatch h
theorem condNode : Statement .condNode := fun _ _ _ h => nomatch h
theorem loopNode : Statement .loopNode := fun _ _ _ h => nomatch h
theorem collNode : Statement .collNode := fun _ _ _ h => nomatch h
theorem portNode : Statement .portNode := fun _ _ _ h => nomatch h
theorem maskNode : Statement .maskNode := fun _ _ _ h => nomatch h
theorem crossDieEdge : Statement .crossDieEdge := fun _ _ _ h => nomatch h
theorem deterministicDecision : Statement .deterministicDecision := fun _ _ _ h => nomatch h
theorem ringDoorbell : Statement .ringDoorbell := fun _ _ _ h => nomatch h
theorem hostrd : Statement .hostrd := fun _ _ _ h => nomatch h
theorem hostwr : Statement .hostwr := fun _ _ _ h => nomatch h
theorem rdmawr : Statement .rdmawr := fun _ _ _ h => nomatch h
theorem rdmard : Statement .rdmard := fun _ _ _ h => nomatch h
theorem allred : Statement .allred := fun _ _ _ h => nomatch h
theorem redscat : Statement .redscat := fun _ _ _ h => nomatch h
theorem allgath : Statement .allgath := fun _ _ _ h => nomatch h
theorem bcast : Statement .bcast := fun _ _ _ h => nomatch h
theorem engineRecordComplete : Statement .engineRecordComplete := fun _ _ _ h => nomatch h
theorem engineRecordTimeout : Statement .engineRecordTimeout := fun _ _ _ h => nomatch h
theorem layoutCmd : Statement .layoutCmd := fun _ _ _ h => nomatch h
theorem setmode : Statement .setmode := fun _ _ _ h => nomatch h
theorem maprange : Statement .maprange := fun _ _ _ h => nomatch h
theorem mappage : Statement .mappage := fun _ _ _ h => nomatch h
theorem gswitch : Statement .gswitch := fun _ _ _ h => nomatch h
theorem sliceCmd : Statement .sliceCmd := fun _ _ _ h => nomatch h
theorem bindCmd : Statement .bindCmd := fun _ _ _ h => nomatch h
theorem releaseCmd : Statement .releaseCmd := fun _ _ _ h => nomatch h
theorem faultring : Statement .faultring := fun _ _ _ h => nomatch h
theorem keynew : Statement .keynew := fun _ _ _ h => nomatch h
theorem wadmit : Statement .wadmit := fun _ _ _ h => nomatch h
theorem wrevoke : Statement .wrevoke := fun _ _ _ h => nomatch h
theorem gcreate : Statement .gcreate := fun _ _ _ h => nomatch h
theorem gacl : Statement .gacl := fun _ _ _ h => nomatch h
theorem gfree : Statement .gfree := fun _ _ _ h => nomatch h
theorem gview : Statement .gview := fun _ _ _ h => nomatch h
theorem gexport : Statement .gexport := fun _ _ _ h => nomatch h
theorem gimport : Statement .gimport := fun _ _ _ h => nomatch h
theorem domjoin : Statement .domjoin := fun _ _ _ h => nomatch h
theorem domkey : Statement .domkey := fun _ _ _ h => nomatch h
theorem groupset : Statement .groupset := fun _ _ _ h => nomatch h
theorem qpcreate : Statement .qpcreate := fun _ _ _ h => nomatch h
theorem qpdestroy : Statement .qpdestroy := fun _ _ _ h => nomatch h
theorem agreementTimeout : Statement .agreementTimeout := fun _ _ _ h => nomatch h
theorem flashUpdate : Statement .flashUpdate := fun _ _ _ h => nomatch h
theorem featureLock : Statement .featureLock := fun _ _ _ h => nomatch h
theorem lockInterface : Statement .lockInterface := fun _ _ _ h => nomatch h
theorem stopInterface : Statement .stopInterface := fun _ _ _ h => nomatch h
theorem measurements : Statement .measurements := fun _ _ _ h => nomatch h
theorem vendorDefinedRequest : Statement .vendorDefinedRequest := fun _ _ _ h => nomatch h
theorem preemptionRequest : Statement .preemptionRequest := fun _ _ _ h => nomatch h
theorem contextSave : Statement .contextSave := fun _ _ _ h => nomatch h
theorem partitionResume : Statement .partitionResume := fun _ _ _ h => nomatch h
theorem sliceEnd : Statement .sliceEnd := fun _ _ _ h => nomatch h
theorem keyzZeroise : Statement .keyzZeroise := fun _ _ _ h => nomatch h
theorem keyzFree : Statement .keyzFree := fun _ _ _ h => nomatch h
theorem bndreqBind : Statement .bndreqBind := fun _ _ _ h => nomatch h
theorem bndreqRelease : Statement .bndreqRelease := fun _ _ _ h => nomatch h
theorem scrubStart : Statement .scrubStart := fun _ _ _ h => nomatch h
theorem scrubGranule : Statement .scrubGranule := fun _ _ _ h => nomatch h
theorem bzero : Statement .bzero := fun _ _ _ h => nomatch h
theorem chzero : Statement .chzero := fun _ _ _ h => nomatch h
theorem tqpop : Statement .tqpop := fun _ _ _ h => nomatch h
theorem tqovfnClear : Statement .tqovfnClear := fun _ _ _ h => nomatch h
theorem supContinue : Statement .supContinue := fun _ _ _ h => nomatch h
theorem supRestart : Statement .supRestart := fun _ _ _ h => nomatch h
theorem supKill : Statement .supKill := fun _ _ _ h => nomatch h
theorem supStop : Statement .supStop := fun _ _ _ h => nomatch h
theorem badAction : Statement .badAction := fun _ _ _ h => nomatch h
theorem replaypgReplay : Statement .replaypgReplay := fun _ _ _ h => nomatch h
theorem replaypgUnfixable : Statement .replaypgUnfixable := fun _ _ _ h => nomatch h
theorem faultRecordArrive : Statement .faultRecordArrive := fun _ _ _ h => nomatch h
theorem faultDeadlineExpire : Statement .faultDeadlineExpire := fun _ _ _ h => nomatch h
theorem invalidationComplete : Statement .invalidationComplete := fun _ _ _ h => nomatch h
theorem thermalWarn : Statement .thermalWarn := fun _ _ _ h => nomatch h
theorem thermalTrip : Statement .thermalTrip := fun _ _ _ h => nomatch h
theorem coolantFlowLoss : Statement .coolantFlowLoss := fun _ _ _ h => nomatch h
theorem linkDeliveryFailure : Statement .linkDeliveryFailure := fun _ _ _ h => nomatch h
theorem sensorRefresh : Statement .sensorRefresh := fun _ _ _ h => nomatch h
theorem coldReset : Statement .coldReset := fun _ _ _ h => nomatch h
theorem warmReset : Statement .warmReset := fun _ _ _ h => nomatch h
theorem managementRestart : Statement .managementRestart := fun _ _ _ h => nomatch h
theorem dieFirmwareRestart : Statement .dieFirmwareRestart := fun _ _ _ h => nomatch h
theorem functionLevelReset : Statement .functionLevelReset := fun _ _ _ h => nomatch h
theorem replyEntryAvailable : Statement .replyEntryAvailable := fun _ _ _ h => nomatch h
theorem startInterface : Statement .startInterface := fun _ _ _ h => nomatch h
theorem ideMacFailure : Statement .ideMacFailure := fun _ _ _ h => nomatch h
theorem softError : Statement .softError := fun _ _ _ h => nomatch h
theorem memberAgreement : Statement .memberAgreement := fun _ _ _ h => nomatch h
theorem unassignedMailboxOpcode : Statement .unassignedMailboxOpcode := fun _ _ _ h => nomatch h

end Sys2Proof.Laws.Encodes
end

