-- ==== Sys2Proof/Tests/Slice0.lean ====
section
/-! SUPPORT. Tests of this model: words and worked examples of the spec, ill-formed terms, and for every obligation that has
hypotheses the states and operands that meet them (theorems meets_…, one clause of the statement a line). -/

namespace Sys2Proof.Tests

set_option Elab.async false

open Sys2Proof.Machine

/-- A launch of function 1 on core 0 of die 0, of a kernel of 16 bundles. -/
def aLaunch : Launch :=
  { vf := 1, id := 7, klen := 16, sptab := [{}], syncmask := 0x7FFE, ntile := [3, 2], perm := [0, 1], quota := 1, cores := [0]
    members := [0], running := true, wload := true, args := [1, 2, 3, 4, 5, 6, 7, 8] }
/-- Function 1 with slot 0 of die 0 and every feature accepted. -/
def aVf : Vf := { layout := { slots := 1, dies := 1, keyid := 5, crate := 1, wreg := 1 }, resident := true, locked := true, faccept := 0xFFF }
/-- Thread 0 of that launch, in cycle 800. -/
def aState (th : Thread) : State :=
  { State.reset with mer := 800, threads := [(0, { th with vf := 1, lid := 1 })], launches := [(1, aLaunch)], vfs := [(1, aVf)] }
/-- A running thread at bundle 3. -/
def aThread : Thread := { st := .running, pc := 3, cursor := 1, sliceEnd := 4 }
def w1 : State := aState { aThread with sreg := [(1, 5), (2, -3), (31, 9)], lc := 1 }
def w2 : State := aState { aThread with sreg := [(1, 5), (2, -3), (31, 16)], lc := 4, rrb := 3, stub := true, ckpt := { pc := 2 } }
def w3 : State := aState { aThread with sreg := [(1, 900), (2, 808), (31, 16)], lc := 4, rrb := 3, cursor := 4, preg := [(1, 0xFFFE)] }
def w4 : State := { w1 with pkg := { w1.pkg with brkarm := [(0, 1)] } }
def oa : AOp := { d := 4, a := 1, b := 2 }
def ob : AOp := { d := 4, a := 2, b := 1, fn := 0x1FFF }
def o31 : AOp := { d := 4, a := 31 }
def w5 : State := aState { aThread with br := some { tgt := 3, left := 1, rot := none } }
def aVec : Thread := { aThread with vreg := [(1, 0x80000001_7FFFFFFF_00000005), (2, 7)], preg := [(1, 0xFFFF)], sreg := [(1, 5), (2, 0)] }
def v1 : State := aState aVec
def vo (t : Nat) : VOp := { d := 3, a := 1, b := 2, c := 0, p := 1, ty := t, fn := t }
def vf (t u : Nat) : VOp := { d := 3, a := 1, b := 2, c := 0, p := 1, ty := t, fn := u }
/-- Vectors, predicates and matrix. -/
def mth : Thread := { aThread with sreg := [(1, 64), (2, 128), (3, 256), (4, 257), (5, 8), (6, 0x1000), (7, 16), (8, 1)] }
def m1 : State := aState mth
def mo : MOp := { acc := 1, a := 1, b := 2, n := 8, sa := 0, sb := 0, fn := 5 }
def mq4 : State := aState { mth with mq := (List.range 4).map fun i => { id := i, kind := .mzero, acc := 0, m0 := 800, last := 900, f := 932 } }
/-- Local memory, copies, gates. -/
def lth : Thread :=
  { aThread with sreg := [(1, 64), (2, -3), (3, 5), (4, 4096), (5, 128), (6, 0x4000000000100000), (7, 0x4000000000000008), (8, 0x100), (9, 6), (10, 256), (11, 2 ^ 42), (12, 2 ^ 63)]
                 preg := [(1, 0xFFFF)] }
def l1 : State := aState lth
def lword : Nat := localWord l1 1 0 0 8
def putter : Waiter := { t := 8, taker := false, dest := 0, val := 6 }
def taker : Waiter := { t := 8, taker := true, dest := 3, val := 0 }
def lq : State := { l1 with feq := [(lword, [putter])] }
def le : State := { l1 with empties := [(lword, true)] }
def leq : State := { le with feq := [(lword, [taker])] }
def ldesc : State := { l1 with mem := wrMem [] (localAddr l1 1 0 0 128) 16 (2 * 2 ^ 48 + 16 * 2 ^ 24 + 16 + 64 * 2 ^ 64) }
def lrep : State := aState { lth with e0 := [{ val := 9, avail := some 800 }] }
def lmask : State := { l1 with vfs := [(1, { aVf with layout := { aVf.layout with meng := 1 } })] }
def lopen : State :=
  { l1 with seq := 9, ops := [(3, { kind := .copy, opc := 0x20, vf := 1, thread := some 0, lid := some 1, p := 2000, parts := [{ dst := 64 }] })] }
def lgate : State := { l1 with gviews := [(256, { valid := true, index := 3, rights := 7, gen := 1 })], mirrors := [(3, 5)], gates := [(3, { active := true, gen := 1 })] }
def li (a imm sz : Nat) : LIOp := { d := 4, a := a, sz := sz, imm := imm }
def lo (a b c : Nat) : LAOp := { d := 4, a := a, b := b, c := c, sz := 3, p := 0 }
def xo (a b : Nat) : XOp := { d := 4, a := a, b := b, idx := 31 }
/-- The state with the arguments of an event. -/
def ev (s : State) (l : List Nat) : State := { s with args := l }
/-- Thread 0 running the one bundle with bits w. -/
def issues (w : Nat) : State := placeBundle State.reset w
def tSleep : State := ev (aState { aThread with st := .parked, parks := [.sleep 800] }) [0]
def peerOp (opc : Nat) : Op := { kind := .peer, opc := opc, vf := 1, thread := some 0, a := 64, b := 64, size := 8, dest := .s 4, c := 796, p := 800 }
def tPeer (opc : Nat) : State := ev { l1 with seq := 9, ops := [(5, peerOp opc)] } [5, 0]
def tPeerBad : State := { tPeer 9 with poison := [(lword, true)] }
def cmd (k : MKind) : MCmd := { id := 6, kind := k, acc := 1, m0 := 800, last := 800, f := 832, nb := 1 }
def tMat (k : MKind) : State := ev (aState { mth with mq := [cmd k] }) [0, 6]
/-- Function 1 with one range entry over its first MiB and an active key. -/
def dVf : Vf := { aVf with ranges := [(0, { valid := true, keyid := 5, pr := true, pw := true, limit := 2 ^ 20 })] }
def dState : State := { l1 with seq := 9, vfs := [(1, dVf)], keys := [(0, { st := 1 }), (5, { st := 1, owner := 1 })], granules := [(0, .bound 1), (1, .bound 1)] }
def page (a acc : Nat) : PageReq := { page := a, acc := acc }
def known (a acc : Nat) : PageReq := { page := a, acc := acc, pa := some a, key := 5 }
def rqOp (pages : List PageReq) (parts : List Part) : Op := { kind := .copy, opc := 0x21, vf := 1, thread := some 0, lid := some 1, pages := pages, parts := parts }
def rq (o : Op) (l : List Nat) : State := ev { dState with ops := [(3, o)] } l
def rTrans : State := rq (rqOp [page 4096 0] []) [3, 0]
def rXlate : State := rq (rqOp [page (2 ^ 30) 0] []) [3, 0]
def rPerm : State := rq (rqOp [page (2 ^ 57) 0] []) [3, 0]
def rRead : State := rq (rqOp [known 4096 0] [{ src := 4096, srcDev := true }]) [3, 0]
def rDone : State := rq (rqOp [known 4096 1] [{ dst := 4096, put := true, got := true }]) [3]
def rMissed : State := rq (rqOp [known 4096 1] [{ dst := 64 }]) [3]
def rWrite : State := rq (rqOp [known 4096 1] [{ dst := 4096, dstDev := true, got := true, data := 5 }]) [3, 0, 1]
/-- Device memory that holds v at address a. -/
def held (s : State) (a n v : Nat) : State :=
  { s with mem := wrMem s.mem (deviceBase + a) n v
           lines := (List.range ((n + 63) / 64)).foldl (fun m i => mapSet {} m (a / 64 + i) { clean := false, key := 5 }) s.lines }
def header : Nat := 0x4D514B53 + 2 ^ 32 + 1 * 2 ^ 64 + 1 * 2 ^ 96 + 64 * 2 ^ 128 + 1 * 2 ^ 160 + 64 * 2 ^ 192 + 2048 * 2 ^ 256 + 4096 * 2 ^ 320 + 4160 * 2 ^ 384 + 4224 * 2 ^ 448
def maskOp : Op := { kind := .mask, opc := 0x28, vf := 1, thread := some 0, lid := some 1, ty := 64, size := 8192, b := 4096, p := 2 ^ 64 }
def kOk : State := held (rq maskOp [3, 0]) 8192 64 header
def kStop : State := rq { maskOp with size := 2 ^ 30 } [3, 0]
def kEnd : State := rq { maskOp with parts := [{ put := true, got := true }] } [3, 1]
def flushOp (n : Nat) (g : Bool) : Op := { kind := .flush, opc := 0x31, vf := 1, thread := some 0, lid := some 1, n := n, granted := g, b := 64 }
def privOp (opc a b size n : Nat) : Op := { kind := .priv, opc := opc, vf := 0, thread := some 0, a := a, b := b, size := size, n := n, dest := .s 4 }
def rWin (o : Op) : State :=
  { rq o [3, 0] with threads := [(0, { lth with st := .parked, vf := 0, parks := [.priv 3] }), (8, { st := .frozen, sreg := [(2, 77)] })] }
/-- Messages to context 8 of function 1, register 31. -/
def msg (th : Thread) (m : Msg) : State := ev { dState with seq := 9, threads := [(8, th)], msgs := [(4, m)] } [4]
def m0 : Msg := { src := 16, dst := 8, reg := 31, val := 5, vf := 1 }
def full : List Msg := List.replicate 8 m0
def other : List Msg := List.replicate 7 { m0 with reg := 3 }
def saved : Vf := { dVf with pre := .saved 0 }
/-- Gate requests. -/
def gReq : Op := { kind := .gsig, opc := 0x10, vf := 1, thread := some 0, lid := some 1, a := 3, b := 0x100 }
def gOpen : Gate := { active := true, gen := 1, rate := 4000, level := 1, burst := 2, epoch := 7 }
def gate (g : Gate) (o : Op) (l : List Nat) : State := ev { dState with gates := [(3, g)], ops := [(4, o)] } l
/-- Queues and graphs of function 1. -/
def que (q : Queue) (l : List Nat) : State := ev { dState with vfs := [(1, { dVf with queues := [(0, q)] })] } l
def qOn : Nat := 2 ^ 63 + 6 * 2 ^ 16
def graph (g : Graph) (l : List Nat) : State := ev { dState with graphs := [(4, g)] } l
def gr (nd : Node) : Graph := { vf := 1, opc := 1, started := true, nodes := [nd] }
def node (nd : Node) : State := graph (gr nd) [4, 0]
def runs (ty body : Nat) : Node := { ty := ty, body := body, st := .running }
/-- A RUN record whose image holds one JOIN node. -/
def imaged : State := held (held (graph { vf := 1, opc := 1, dva := 4096 } [4]) 4096 64 (0x47525048 + 2 ^ 32 + 2 ^ 48)) 4160 64 (0xFFFFFFFFFFFFFFFF * 2 ^ 64)
def waits (v : Nat) : State :=
  { (held (node { runs 4 (4096 + v * 2 ^ 64) with op := some 6 }) 4096 64 9) with
    ops := [(6, { kind := .nodeWait, vf := 1, node := some (4, 0), b := 4096, size := v, watching := true, pages := [known 4096 0] })], args := [4, 0, 6] }
def waitEnds : State := { waits 9 with ops := [(6, { kind := .nodeWait, granted := true })] }
/-- A launch node, and its launch. -/
def launchRec : Nat := 2 ^ 215 + 2 ^ 359 + 8192 * 2 ^ 448 + 12288 * 2 ^ 384 + 2 ^ 896
def launching : State := held (node { ty := 1, body := 4096, st := .ready }) 4096 192 launchRec
def newLaunch : Launch := { aLaunch with members := [8], cores := [1], running := false, graph := some (4, 0) }
def ready1 : Node := { ty := 1, body := 4096, st := .ready, checked := true, lid := some 2, base := 9000 }
def starting : State := { node ready1 with launches := [(2, newLaunch)], threads := [], args := [4, 0, 9000] }
def gangs (x : Launch) (th : Thread) (l : List Nat) : State :=
  { node { ready1 with st := .running } with launches := [(2, { x with running := true })], threads := [(8, th)], args := l }
/-- Other parts of a state in place of its own. -/
def withVf (s : State) (v : Vf) : State := { s with vfs := mapPut s.vfs 1 v }
def withTh (s : State) (l : Map Thread) : State := { s with threads := l }
def withArgs (s : State) (l : List Nat) : State := { s with args := l }
def blank (s : State) : State := { s with lines := [] }
def withLaunch (s : State) (x : Launch) : State := { s with launches := [(2, x)], threads := [] }
def mirrored : State := { gate gOpen gReq [] with mirrors := [(3, 5)], args := [0, 3, 6, 1] }
def window : State := { msg {} m0 with windows := [(windowKey 0 1 1, 2)], args := [0, 1, 1] }
/-- Links, engines. -/
def linked (l : List Nat) : State := ev { dState with granules := [(0, .clean), (1, .clean), (2, .clean)], scrubs := [] } l
def routed : State := rq (rqOp [{ page := 4096, acc := 0, pa := some (2 ^ 42) }] [{ src := 4096, srcDev := true }]) [3]
def ringVf : Vf := { dVf with layout := { dVf.layout with ceng := 1, peng := 1 } }
def ring (r : Ring) (bell : Nat) : State := held (ev { withVf dState ringVf with rings := [(2, r)] } [2]) 0 64 bell
def engOp (n : Nat) : Op := { kind := .engine, vf := 1, n := n, opc := 0 }
def eng (o : Op) : State := ev { dState with ops := [(3, o)] } [3]
/-- A mailbox that runs a command. -/
def cmdRecOf (opc vf a0 a1 a2 : Nat) : Nat := opc + vf * 2 ^ 16 + a0 * 2 ^ 64 + a1 * 2 ^ 128 + a2 * 2 ^ 192
def runsCmdOn (s : State) (f r : Nat) : State :=
  ev { modVf s f (fun v => { v with cmdRun := true, cmdRec := r }) with pkg := { s.pkg with cmdq := [f] } } [f]
def host (s : State) (a n v : Nat) : State := { s with mem := wrMem s.mem (hostBase + a) n v }
def idle (s : State) : State := { s with launches := [], threads := [], graphs := [] }
def mail (opc a0 a1 a2 : Nat) : State := runsCmdOn (idle dState) 1 (cmdRecOf opc 0 a0 a1 a2)
def pf (opc a0 a1 a2 : Nat) : State := runsCmdOn (idle dState) 0 (cmdRecOf opc 1 a0 a1 a2)
def anEntry : Nat := 2 ^ 242 + 5 * 2 ^ 228 + 2 ^ 223 + (2 ^ 21 + 4096) * 2 ^ 64 + 2 ^ 21 + (2 ^ 48 - 2 ^ 21) * 2 ^ 144
def waiting (s : State) (x : Invalid) : State := ev { s with invs := [(3, x)] } [3]
def unlocked (f : Nat) : Vf := { dVf with locked := false, faccept := f }
def withKey (s : State) (k : Nat) (x : KeySlot) : State := { s with keys := mapPut s.keys k x }
def withGate (s : State) (k : Nat) (x : Gate) : State := { s with gates := mapPut s.gates k x }
def windowKeyed (s : State) : State := withKey s 6 { st := 1, owner := 2, kind := 1 }
def inDomain (s : State) : State := { s with pkg := { s.pkg with inDom := true, members := 1 } }
def kdom (s : State) : State := { s with pkg := { s.pkg with geuth := { s.pkg.geuth with kdom := true } } }
def grouped (s : State) : State := { s with pkg := { s.pkg with groups := [(3, { valid := true, ranks := [(0, 1)] })] } }
def withQp (s : State) (o : Map Op) : State := { s with pkg := { s.pkg with qps := [(3, { vf := 1, desc := 2 ^ 196 })] }, ops := o }
def awaiting (s : State) : State := modVf s 0 fun v => { v with cmdStep := 1 }
def recovering (s : State) : State := { s with pkg := { s.pkg with recovery := true } }
def parted (s : State) (v : Vf) (l : List Nat) : State := ev (withVf s v) l
def layoutBits : Nat := 1 + 2 ^ 8 + 5 * 2 ^ 32 + 2 ^ 48
def clean2 (s : State) : State := { s with granules := (List.range 512).map fun i => (512 + i, .clean), scrubs := [] }
def scrubbing (x : Scrub) (l : List Nat) : State := ev { dState with scrubs := [(0, x)] } l
def collected (c : Collector) (th : Thread) (l : List Nat) : State := ev { withTh l1 [(8, th)] with cols := [(1, c)] } l
def frozenTh : Thread := { st := .frozen, vf := 1, lid := 1, fault := 3, frec := { code := 3 } }
def wdog (n : Nat) : State := ev { dState with mer := 900, pkg := { dState.pkg with wdog := [(0, n)] } } [0]
def sliced : Vf := { dVf with layout := { dVf.layout with mode := 1 }, sliceTill := 800 }
def withVf2 (s : State) (v : Vf) : State := { s with vfs := mapPut s.vfs 2 v, launches := mapPut s.launches 5 { aLaunch with vf := 2 } }
def twoPackages (s : State) : State := { s with pkg := { s.pkg with inDom := true, members := 3 } }
def gated (s : State) (o : Op) : State := { withGate s 3 gOpen with ops := [(4, o)] }
def bound2 (s : State) : State := { s with granules := (List.range 512).map fun i => (512 + i, .bound 1) }
def twoParts : State := withVf2 dState { dVf with layout := { dVf.layout with slots := 2 } }
def quiet : State := { idle dState with agenda := [] }
def invOld : State :=
  waiting { dState with ops := [(2, rqOp [known 4096 0] [{ src := 4096, srcDev := true }])] }
    { vf := 1, sub := 0, base := 4096, len := 4096, what := 0, fn := 1 }
def noScrub (s : State) : State := { s with scrubs := [] }
def aPast : Thread := { aThread with pc := 16 }
def aPopulated : Thread := { aThread with st := .populated }
def dNew : Vf := { dVf with instar := 1 }
def dMask : Vf := { dVf with layout := { dVf.layout with meng := 1 } }
def dOut : Vf := { dVf with pre := .saved 0, resident := false }
def dLate : Vf := { dOut with waitFrom := 5 }
def dStop (why : Nat) : Vf := { dVf with pre := .stopping why }
def dLocked : Vf := { dVf with tdisp := .locked }
def masked (s : State) : State := { s with vfs := [(1, { dVf with layout := { dVf.layout with meng := 1 } })] }
def aHead : MaskHead := { status := 0, cls := 0, base := 0, first := 0, count := 0, header := header, cursor := 0, entry := true, bad := false }
def kHead : State := masked (held (rq { maskOp with head := some aHead } [3, 0]) 8192 64 header)
def gCounted : Op := { gReq with size := 1 }
def aJournal : Journal := { vf := 1, old := dVf.layout, new := { dVf.layout with keyid := 0 }, phase := 1, crc := 0 }
/-- A command of the physical function that has reached step n of its commit. -/
def journaled (s : State) (n : Nat) : State :=
  modVf { s with pkg := { s.pkg with journal := [aJournal] } } 0 fun v => { v with cmdStep := n }
def tearing (s : State) (n : Nat) : State :=
  { s with pkg := { s.pkg with teardowns := [{ vf := 1, key := 6, base := 0, len := 4096, lay := {}, step := n }] } }
def holding (s : State) : State := { s with pkg := { s.pkg with hold := 2 } }
def flipped (s : State) : State := { s with flips := [(3, true)] }
def noQueued (s : State) : State := { s with pkg := { s.pkg with cmdq := [] } }
def savedOut : Vf := { saved with resident := false }
def slicedOut : Vf := { sliced with resident := false }
def eGranted : Op := { engOp 0 with granted := true }
def eJoined : Op := { eGranted with watching := true }
def eEnd : Op := { engOp 0 with complete := true, result := 1 }
def eSignal : Op := { engOp (2 ^ 16) with complete := true, result := 1, parts := [{ performed := true }] }
def eRdma : Op := { engOp (3 * 2 ^ 256) with opc := 3 }
def fatalTh : Thread := { frozenTh with frec := { code := 8, fatal := true } }
def pendingTh : Thread := { frozenTh with pend := [{ due := 900, seq := 1, dest := .s 3, val := 3, mask := 0 }] }
def gListed : Gate := { gOpen with acl := 0x7001 }
def gFifo (id : Nat) : Gate := { gOpen with fifo := [id] }
def gDry : Gate := { gFifo 4 with level := 0 }
def gFree : Gate := { gFifo 4 with rate := 0 }
def gGranted : Op := { gReq with granted := true }
def lof (a b c sz fn : Nat) : LAOp := { lo a b c with sz := sz, fn := fn }
def mo3 : MOp := { mo with a := 0, b := 3 }
def moOdd : MOp := { mo with a := 5 }
def moNone : MOp := { mo with n := 0 }
def moLine : MOp := { mo with n := 3 }
def moMany : MOp := { mo with n := 4 }
def loneLaunch : Launch := { newLaunch with graph := none }
def nowLaunch : Launch := { newLaunch with start := 800 }
/-- States for what this sitting's clauses ask for. -/
def lFull : State := aState { lth with e2 := List.replicate 8 { op := 0 } }
def moOddB : MOp := { mo with b := 5 }
def gwaits (size : Nat) : State :=
  { gate gOpen { gReq with kind := .gwait, size := size } [0, 3, 6, 1] with
    mirrors := [(3, 5)], gwaiters := [4], threads := [(0, { lth with st := .parked, vf := 1, lid := 1, parks := [.gate 4] })] }
def viewed : State :=
  { gate gOpen gCounted [4] with gviews := [(256, { valid := true, index := 3, rights := 7, gen := 1 })] }
def barred (s : State) : State := modVf s 1 fun v => { v with barred := true }
def late (a3 : Nat) (nd : Node) : State := graph (gr nd) [4, 0, nd.base, a3]
def refusing : Vf := { dMask with faccept := 1 }
def ringBad : State := { ring { vf := 1, base := 64 } 1 with poison := [(deviceBase / 8, true)] }
def packets : State :=
  ev { dState with ops := [(3, { rqOp [known 4096 0] [{ src := 4096, srcDev := true }, { src := 4104, srcDev := true },
    { src := 8192, srcDev := true }] with vf := 1 })] } [7, 3, 1]
def damagedLine : State := { linked [0, 4096, 5, 0] with lines := [(64, { clean := false, key := 5, bad := 1 })] }
def dirtyKey : State := { tearing (ev dState [0, 6]) 2 with lines := [(2 ^ 30, { clean := false, key := 6 })] }
def admittedKey : State := { tearing (ev dState [0, 6]) 2 with admits := [(6 * 65536 + 1, 7)] }
def rerun (s : State) : State :=
  { s with pkg := { s.pkg with teardowns := [{ vf := 2, key := 6, base := 0, len := 4096, lay := {}, step := 0, again := true }] } }
def copying : State := { idle (ev dState [1, 1]) with ops := [(3, { kind := .copy, vf := 1, parts := [{ src := 4096, srcDev := true }] })] }
def unbooted : State := { ev dState [0] with pkg := { dState.pkg with copies := [({ rsa := false }, { slh := false })] } }
def hashed : State := ev { dState with pkg := { dState.pkg with spdm := [(7, 5)] } } [7, 0]
def cut : State := ev { dState with pkg := { dState.pkg with ide := [(0, true)] } } [1, 0, 4096, 0, 1]
def flashing : State := recovering (ev dState [0, 1, 2])
/-- States for the clauses on rings, shared and far pages, commits, parity and rotations. -/
def ringGoing : State :=
  { ring { vf := 1, base := 64, taken := 1, seen := 3 } 9 with agenda := [{ cycle := 900, seq := 1, ev := .ringDoorbell, args := [2, 1] }] }
def cutOff (s : State) : State := { s with pkg := { s.pkg with ide := [(4, true)], ideFn := [(1, 5)] } }
def eMoving : Op := { eJoined with parts := [{ dst := 4096, dstDev := true, got := true }] }
def eDeclined : Op := { eSignal with status := 2 }
def mapped (e : RangeEntry) : State := withVf dState { dVf with ranges := [(0, e)], layout := { dVf.layout with vrate := 2 } }
def nearRange : RangeEntry := { valid := true, keyid := 5, pr := true, pw := true, limit := 2 ^ 20 }
def struck : State := withArgs { packets with ops := (packets.ops.map fun e => (e.1, { e.2 with parts := e.2.parts.map fun p => { p with put := true } })) } [7, 3, 1]
def wider : Nat := layoutBits + 2 ^ 9
def moving (r : Nat) : State := runsCmdOn (host dState 64 64 wider) 0 (cmdRecOf 1 1 64 0 0 + r)
/-- A commit that has reached step n, its function in state v. -/
def committing (n : Nat) (v : Vf) : State := withVf (journaled (pf 1 64 0 0) n) v
def committed2 (s : State) : State :=
  { s with pkg := { s.pkg with journal := [{ aJournal with new := { dVf.layout with dies := 3 } }] } }
def savedFor (n : Nat) : Vf := { dOut with pre := .saved n }
def slicedSaved : Vf := { slicedOut with pre := .saved 0 }
def pickedOut : Vf := { slicedSaved with picked := true }
def ordered : State := { imaged with graphs := [(2, { vf := 1, opc := 1, started := true }), (4, { vf := 1, opc := 1, dva := 4096, order := true })] }
def spoilt (k : MKind) (n : Nat) : State := ev (aState { mth with mq := [cmd k], parity := [2048 + n] }) [0, 6]
def switchedOver : State := withVf starting { dVf with cmdRun := true, cmdStep := 1, cmdRec := 5 }
/-- States for the clauses on traps, turns, issue checks, faults, links, graphs and the supervisor. -/
def armed (s : State) : State := { s with pkg := { s.pkg with brkarm := [(0, 1)] } }
def slotted (left : Nat) : State := aState { aThread with br := some { tgt := 9, left := left, rot := none } }
def syncTh (d : Nat) : Thread := { aThread with st := .parked, parks := [.sync d], phase := 15, nextTurn := 700, vf := 1, lid := 1 }
def synced (l : Map Thread) : State := { w1 with threads := l, launches := [(1, { aLaunch with members := [0, 8] })] }
def runTh : Thread := { aThread with nextTurn := 800, tst := 2 ^ 32 * 5 + (2 ^ 32 - 2) }
def busyTh : Thread :=
  { runTh with pend := [{ due := 901, seq := 1, dest := .s 3, val := 3, mask := 0 }], mq := [cmd .mzero], spcnt := 4 }
def leaving (n : Nat) (th : Thread) : State := aState { th with br := some { tgt := n, left := 0, rot := none } }
def checked (m : Nat) : State := { m1 with mer := m }
def access (rd wr rmw : Bool) : Access0 := { n := 8, die := 0, core := 0, cycle := 800, rd := rd, wr := wr, rmw := rmw }
def reserved : State :=
  { m1 with accesses := (List.range 8).map fun b => { core := 0, bank := b, cycle := 800, rmw := true, word := 0, wmask := 0 } }
def raced : State := { l1 with shadows := [(lword, 512 + 16 * 9)], launches := [(1, { aLaunch with race := true })] }
def struckWord : State := { l1 with poison := [(lword, true)] }
def mcmd (b n m f : Nat) : MCmd :=
  { cmd (.mma false false) with m0 := m, last := m, f := f, addrA := 64, addrB := b, nb := n, srcA := 0, srcB := 4 }
def xlate (a d5 : Nat) : FaultRec := { code := 0x20, vf := 1, cause := 0x100, addr := a, d5 := d5, mer := 700 }
def fatal : FaultRec := { code := 8, fatal := true, vf := 1 }
def queued (q : List (FaultRec × Bool)) (i : List FaultRec) (ovf : Nat) : State :=
  collected { queue := q, input := i, ovf := ovf } { aThread with vf := 1, lid := 1 } []
def sixty : List (FaultRec × Bool) := List.replicate 60 ({ code := 3 }, false)
def keptFour : List (FaultRec × Bool) := List.replicate 4 (fatal, true)
def actedOn (th : Thread) : State :=
  { collected {} { th with vf := 1, lid := 1 } [] with feq := [(lword, [putter, { putter with t := 0 }])]
                                                       launches := [(1, { aLaunch with members := [0, 8] })] }
def heldOp : Op :=
  { kind := .copy, opc := 0x21, vf := 1, thread := some 8, lid := some 1, held := some 4096, pages := [page 4096 1] }
def holds (o : Op) (th : Thread) : State := { actedOn th with ops := [(3, o)] }
def graphOn (l : List Node) : State :=
  { ev dState [] with graphs := [(4, { vf := 1, opc := 1, started := true, nodes := l, cpladdr := 4096, cplval := 7 })] }
def onDie (d ty : Nat) (st : NodeSt) : Node := { ty := ty, st := st, die := d }
def failing (s : State) (l : List Nat) : State := { s with pkg := { s.pkg with crcNext := l } }
def cxlCut (l : List Nat) : State := let s := linked l; { s with pkg := { s.pkg with ide := [(4, true)] } }
def looping (d : Bool) (nd : Node) (l : List Nat) : State :=
  graph { vf := 1, opc := 1, started := true, det := d, nodes := [nd, runs 6 0] } l
def wstCopy : Node := { ty := 2, st := .ready, body := 2 ^ 160, base := 9000 }
def detAt (nd : Node) (l : List Nat) : State := graph { gr nd with det := true } l
def e3Full : State := { lgate with threads := [(0, { lth with vf := 1, lid := 1, e3 := List.replicate 8 { op := 0 } })] }
def tstopped (v : Vf) (l : List Nat) : State := parted dState { v with tstop := true } l
/-- The next state of an answer. -/
def after (o : Host.Outcome State Fault Refusal) : State :=
  match o with
  | .next t => t
  | _ => State.reset

/-- An answer that is a next state. -/
def isNext (o : Host.Outcome State Fault Refusal) : Bool :=
  match o with
  | .next _ => true
  | _ => false

theorem next_after {o : Host.Outcome State Fault Refusal} (h : isNext o = true) : o = .next (after o) := by
  cases o with
  | next t => rfl
  | fault f => cases h
  | refused r => cases h

/-- The value of an effect or a decoding that succeeds, and the error of one that does not. -/
def okOf {ε α : Type} (x : Except ε α) : Option α :=
  match x with
  | .ok v => some v
  | .error _ => none
def errOf {ε α : Type} (x : Except ε α) : Option ε :=
  match x with
  | .ok _ => none
  | .error e => some e

theorem ok_of {ε α : Type} {x : Except ε α} {v : α} (h : okOf x = some v) : x = .ok v := by
  cases x with
  | ok w => cases h; rfl
  | error e => cases h

theorem error_of {ε α : Type} {x : Except ε α} {e : ε} (h : errOf x = some e) : x = .error e := by
  cases x with
  | ok w => cases h
  | error w => cases h; rfl

theorem exists_of_isSome {α : Type} {x : Option α} (h : x.isSome = true) : ∃ v, x = some v := Option.isSome_iff_exists.mp h

theorem meets_RegisterInstructionsFrame :
    registerOnly (.add oa) = true ∧ (∃ t, exec (.add oa) w1 = .next t) ∧ registerOnly (.vadd (vo 7)) = true
    ∧ (∃ t, exec (.vadd (vo 7)) v1 = .next t) :=
  ⟨by decide +kernel, ⟨_, next_after (by decide +kernel)⟩, by decide +kernel, ⟨_, next_after (by decide +kernel)⟩⟩

theorem meets_MemoryFrameAtIssue :
    (∃ t, (opcodeOf (.ldL (li 1 0 3))).isSome = true ∧ storesAtIssue (.ldL (li 1 0 3)) = false
      ∧ exec (.ldL (li 1 0 3)) l1 = .next t)
    ∧ Inv l1 ∧ (∀ a ∈ l1.wacts, l1.mer < a.at_) ∧ (∃ t, exec (.stL (li 1 0 3)) l1 = .next t)
    ∧ (∃ t, exec (.vst (li 1 0 4)) l1 = .next t) ∧ (∃ t, exec (.vsts (lo 1 5 0)) l1 = .next t)
    ∧ (∃ t, exec (.vscat (lo 1 5 0)) l1 = .next t) ∧ (∃ t, exec (.takeW (lo 1 5 0)) l1 = .next t)
    ∧ (∃ t, exec (.putW (lo 1 5 0)) le = .next t) ∧ (∃ t, exec (.emptyw (lo 1 5 0)) l1 = .next t) :=
  ⟨⟨_, by decide +kernel, by decide +kernel, next_after (by decide +kernel)⟩, by decide +kernel, by decide +kernel,
    ⟨_, next_after (by decide +kernel)⟩, ⟨_, next_after (by decide +kernel)⟩, ⟨_, next_after (by decide +kernel)⟩,
    ⟨_, next_after (by decide +kernel)⟩, ⟨_, next_after (by decide +kernel)⟩, ⟨_, next_after (by decide +kernel)⟩,
    ⟨_, next_after (by decide +kernel)⟩⟩

theorem meets_MemoryStaysCanonical : Inv (issues 0) ∧ ∃ t, step (issues 0) = .next t :=
  ⟨by decide +kernel, _, next_after (by decide +kernel)⟩

/-- A bundle of one load: its turn, the thread at it and the state in which its slots run. -/
def aLoad : Instr := .ldL { d := 4, a := 1, sz := 3, imm := 4 }
def aTurn : Due := (nextDue (issues (encode aLoad))).getD { cycle := 0, rank := 0, key := 0, pick := .turn 0 }
def atTurn : State :=
  let r := ready (issues (encode aLoad)) aTurn
  modTh { r with cur := 0 } 0 fun th => drainDue (landUpto th r.mer) r.mer

theorem meets_StepIssuesTheDecodedBundle :
    nextDue (issues (encode aLoad)) = some aTurn ∧ (aTurn.pick = .turn 0) ∧ slotidOk 0 = true
    ∧ ((getTh atTurn 0).st = .running ∨ (getTh atTurn 0).st = .parked) ∧ (getTh atTurn 0).exiting = false
    ∧ (getTh atTurn 0).stopAsked = false ∧ (getTh atTurn 0).pc < (getLaunch atTurn (getTh atTurn 0).lid).klen
    ∧ decodeFor atTurn 0 (rdMem atTurn.mem (istoreBase (getTh atTurn 0).lid 0 0 + 32 * (getTh atTurn 0).pc) 32)
        = .ok { sL := aLoad }
    ∧ beforeParks atTurn 0 { sL := aLoad } = [] ∧ dueDeferred (reachBundle atTurn 0 { sL := aLoad }) 0 = none
    ∧ (getTh (reachBundle atTurn 0 { sL := aLoad }) 0).spcnt.toNat < (getLaunch atTurn (getTh atTurn 0).lid).spmax
    ∧ (∃ e, runSlots { sL := aLoad } (reachBundle atTurn 0 { sL := aLoad }) = .error e)
    ∧ (∃ s4, runSlots {} (reachBundle atTurn 0 {}) = .ok s4) := by
  and_intros
  all_goals first
    | decide +kernel
    | exact ok_of (by decide +kernel)
    | exact (exists_of_isSome (x := errOf (runSlots { sL := aLoad } (reachBundle atTurn 0 { sL := aLoad }))) (by decide +kernel)).imp
        fun _ h => error_of h
    | exact (exists_of_isSome (x := okOf (runSlots {} (reachBundle atTurn 0 {}))) (by decide +kernel)).imp fun _ h => ok_of h

theorem meets_RequestEventsTakeEffect_line_write :
    (let s := rWrite
     let o := getOp s 3
     let g := known 4096 1
     let ps := chunkParts o (0, 1)
     let p := ps.headD {}
     let n := ps.foldl (fun m q => m + q.bytes) 0
     argN s 0 ≠ 0 ∧ swapped s o = false ∧ (∀ q ∈ ps, q.got = true) ∧ pageOf o p.dst (writeAcc o) = some g
     ∧ p.performed = false ∧ ((o.kind ≠ .sigset ∧ o.kind ≠ .flush) ∨ earlierOpen s 3 = false)
     ∧ (g.sc && scBlocked s 3) = false ∧ noWay s o (pagePa g p.dst) = false
     ∧ ∃ s2 latent, writeLine s (pagePa g p.dst) g.key n 5 (ps.any (·.bad)) false = .ok s2 latent) := by
  and_intros <;> first | decide +kernel | exact ⟨_, _, rfl⟩

/-- The header of an accepted mask, and the lines it was read from. -/
def headOf (m : MaskRes) : Option (MaskHead × List (Nat × Nat)) :=
  match m with
  | .ok h l => some (h, l)
  | .stop _ _ => none
theorem head_ok {r : MaskRes} (h : (headOf r).isSome = true) : ∃ m l, r = .ok m l := by
  cases r with
  | ok m l => exact ⟨m, l, rfl⟩
  | stop _ _ => cases h
theorem head_stops {r : MaskRes} (h : (headOf r).isSome = false) : ∃ x l, r = .stop x l := by
  cases r with
  | ok _ _ => cases h
  | stop x l => exact ⟨x, l, rfl⟩

theorem meets_MaskEventsAndRepliesTakeEffect_mask :
    (let s := masked kOk
     let o := getOp s (argN s 0)
     hasOp s (argN s 0) = true ∧ o.thread = some 0 ∧ (∃ m l, maskHead s o = .ok m l)
     ∧ maskHas (getVf s o.vf).layout.meng o.n = true)
    ∧ (let s := kStop
       let o := getOp s (argN s 0)
       hasOp s (argN s 0) = true ∧ o.complete = false ∧ o.failed = false ∧ argN s 1 = 0 ∧ swapped s o = false
       ∧ o.head = none ∧ ∃ r l, maskHead s o = .stop r l) := by
  and_intros <;> first | decide +kernel | exact head_ok (by decide +kernel) | exact head_stops (by decide +kernel)

theorem meets_LinkEventsTakeEffect_write :
    (let s := linked [1, 4096, 5, 0, 7]
     maskHas (foffer s) 10 = true ∧ paOk s 0 4096 = true ∧ closedGranule s 4096 = false ∧ argN s 0 ≠ 0
     ∧ ∃ s1 l, writeLine s 4096 (argN s 2) 64 (argN s 4) (argN s 3 == 1) false = .ok s1 l) := by
  and_intros <;> first | decide +kernel | exact ⟨_, _, rfl⟩

/-- Branches that end before the turn, and in it. -/
def taken : Branch := { tgt := 5, left := 1, rot := some 4 }
def coming : Branch := { taken with left := 2 }

theorem meets_EndOfTurn :
    (curTh w1).exiting = false ∧ (curTh w1).trapNow = none ∧ (curTh w1).st = .running ∧ w1.mer % 8 = w1.cur % 8
    ∧ (curTh w1).nextTurn ≤ w1.mer + 8 ∧ taken.left ≤ 1 ∧ taken.tgt ≠ (getLaunch w1 (curTh w1).lid).klen
    ∧ 1 < coming.left ∧ (curTh w1).br = none ∧ (curTh w5).br.isSome = true ∧ (curTh w5).st = .running := by
  and_intros <;> decide +kernel

theorem meets_MessageEventsTakeEffect_retry :
    (msg {} m0).msgs.any (fun e => e.1 == argN (msg {} m0) 0) = true ∧ (∀ w, (getVf (msg {} m0) m0.vf).pre ≠ .saved w)
    ∧ ∃ y ∈ validMsgs [m0], y.reg = m0.reg :=
  ⟨by decide +kernel, fun w h => (by cases h), by decide +kernel⟩

theorem meets_OneInstructionBundles :
    (opcodeOf (.add oa)).isSome = true ∧ (∀ o, Instr.add oa ≠ .syncD o)
    ∧ parityBad (curTh w1) (usesOf (.add oa)) (slotOn (curTh w1) (.add oa)) = none
    ∧ (∀ o, Instr.add oa ≠ .trap o) ∧ (∀ o, Instr.add oa ≠ .brkpt o) ∧ (∃ t, slotEff (.add oa) w1 = .ok t)
    ∧ (opcodeOf (.ldL (li 1 4 3))).isSome = true
    ∧ (∃ e, slotEff (.ldL (li 1 4 3)) w1 = .error e)
    ∧ (∃ d, nextDue (issues 0) = some d) ∧ nextDue { quiet with threads := [] } = none :=
  ⟨by decide +kernel, (by intro o h; cases h), by decide +kernel, (by intro o h; cases h), (by intro o h; cases h), ⟨_, rfl⟩,
    by decide +kernel, (exists_of_isSome (x := errOf (slotEff (.ldL (li 1 4 3)) w1)) (by decide +kernel)).imp fun _ h => error_of h,
    exists_of_isSome (by decide +kernel), by decide +kernel⟩

theorem meets_BundleIssueRefusals :
    slotidOk (argN (ev l1 [2 ^ 14]) 0) = false ∧ slotidOk (argN (issues (0xFF * 2 ^ 248)) 0) = true
    ∧ (getTh (issues (0xFF * 2 ^ 248)) 0).st = .running ∧ (getTh (issues (0xFF * 2 ^ 248)) 0).exiting = false
    ∧ (getTh (issues (0xFF * 2 ^ 248)) 0).stopAsked = false
    ∧ (getTh (issues (0xFF * 2 ^ 248)) 0).pc < (getLaunch (issues (0xFF * 2 ^ 248)) (getTh (issues (0xFF * 2 ^ 248)) 0).lid).klen
    ∧ (∃ x, decodeFor (issues (0xFF * 2 ^ 248)) 0 (0xFF * 2 ^ 248) = .error x)
    ∧ bitsAt (0xFF * 2 ^ 248) 254 1 = 1 ∧ (getTh (issues (0xFF * 2 ^ 248)) 0).stub = false
    ∧ (getTh (issues (0xFF * 2 ^ 248)) 0).reached = false
    ∧ (getLaunch (aState aPast) 1).klen ≤ (getTh (aState aPast) 0).pc ∧ (getTh (aState aPast) 0).st = .running := by
  and_intros
  all_goals first
    | decide +kernel
    | exact (exists_of_isSome (x := errOf (decodeFor (issues (0xFF * 2 ^ 248)) 0 (0xFF * 2 ^ 248))) (by decide +kernel)).imp
        fun _ h => error_of h

/-- A GIMPORT of the 96 bytes m at host address 8192. -/
def imports (m : Nat) : State := { pf 0x2D 0 0 8192 with mem := wrMem [] (hostBase + 8192) 96 m }

theorem rd_imports (m : Nat) : rdMem (imports m).mem (hostBase + 8192) 96 = m % 256 ^ 96 := rdMem_wrMem_self rfl _ _ _

theorem host_imports (m : Nat) : fnHost (imports m) 0 8192 = hostBase + 8192 := by
  have e : ∀ p, p = 0 → hostAddr p 8192 = hostBase + 8192 := fun p hp => by subst hp; decide +kernel
  exact e _ rfl

theorem runs_imports (m : Nat) : runsCmd (imports m) 0 0x2D :=
  have h : runsCmd (pf 0x2D 0 0 8192) 0 0x2D := by decide +kernel
  h

theorem offers_imports (m : Nat) : maskHas (foffer (imports m)) 5 = true :=
  have h : maskHas (foffer (pf 0x2D 0 0 8192)) 5 = true := by decide +kernel
  h

/-- The image with ciphertext c and tag t under nonce 0, and its parts. -/
def imageOf (c t : Nat) : Nat := (c + t * 2 ^ 512) * 2 ^ 96
theorem image_nonce (c t : Nat) : imageOf c t % 2 ^ 96 = 0 := Nat.mul_mod_left _ _
theorem image_body {c : Nat} (h : c < 2 ^ 512) (t : Nat) : imageOf c t / 2 ^ 96 % 2 ^ 512 = c := by
  rw [imageOf, Nat.mul_div_cancel _ (Nat.two_pow_pos 96), Nat.add_mul_mod_self_right, Nat.mod_eq_of_lt h]
theorem image_tag {c : Nat} (h : c < 2 ^ 512) (t : Nat) : imageOf c t / 2 ^ 608 = t := by
  rw [show (608 : Nat) = 96 + 512 by rfl, Nat.pow_add, ← Nat.div_div_eq_div_mul, imageOf,
    Nat.mul_div_cancel _ (Nat.two_pow_pos 96), Nat.add_mul_div_right _ _ (Nat.two_pow_pos 512), Nat.div_eq_of_lt h, Nat.zero_add]
theorem image_read {c t : Nat} (h : c < 2 ^ 512) (ht : t ≤ 2 ^ 128) :
    rdMem (imports (imageOf c t)).mem (fnHost (imports (imageOf c t)) 0 8192) 96 = imageOf c t := by
  have big : ((2 : Nat) ^ 512 + 2 ^ 128 * 2 ^ 512) * 2 ^ 96 ≤ 256 ^ 96 := by decide +kernel
  have b : c + t * 2 ^ 512 < 2 ^ 512 + 2 ^ 128 * 2 ^ 512 := Nat.add_lt_add_of_lt_of_le h (Nat.mul_le_mul_right _ ht)
  have lt : imageOf c t < 256 ^ 96 := Nat.lt_of_lt_of_le (Nat.mul_lt_mul_of_pos_right b (Nat.two_pow_pos 96)) big
  rw [host_imports, rd_imports, Nat.mod_eq_of_lt lt]

/-- Host memory may hold a sealed image whose tag is right and whose plain image keeps its reserved bits zero, whatever the
tags and the key stream are, and one whose tag is not right. -/
theorem meets_KeyAndGateCommandsTakeEffect_import :
    (∃ s : State, runsCmd s (argN s 0) 0x2D ∧ argN s 0 = 0 ∧ maskHas (foffer s) 5 = true ∧
      let m := rdMem s.mem (fnHost s 0 (cmdArg s 0 2)) 96
      let plain := sealed (m % 2 ^ 96) (m / 2 ^ 96 % 2 ^ 512)
      m / 2 ^ 608 = sealTag (m % 2 ^ 96) (m / 2 ^ 96 % 2 ^ 512) ∧ bits plain 255 216 = 0 ∧ bits plain 127 96 = 0
      ∧ aclBad (BitVec.ofNat 256 (plain / 2 ^ 256)) = false ∧ (getGate s (bits plain 203 192)).active = false)
    ∧ ∃ s : State, runsCmd s (argN s 0) 0x2D ∧ argN s 0 = 0 ∧ maskHas (foffer s) 5 = true ∧
      let m := rdMem s.mem (fnHost s 0 (cmdArg s 0 2)) 96
      m / 2 ^ 608 % 2 ^ 128 ≠ sealTag (m % 2 ^ 96) (m / 2 ^ 96 % 2 ^ 512) := by
  have hk : (Config.sealStream 0).toNat < 2 ^ 512 := BitVec.isLt _
  have ht : ∀ c, sealTag 0 c < 2 ^ 128 := fun c => BitVec.isLt _
  have hc : ∀ m, cmdArg (imports m) 0 2 = 8192 := fun _ => by
    have h : cmdArg (pf 0x2D 0 0 8192) 0 2 = 8192 := by decide +kernel
    exact h
  refine ⟨⟨imports (imageOf (Config.sealStream 0).toNat (sealTag 0 (Config.sealStream 0).toNat)), runs_imports _, rfl,
    offers_imports _, ?_⟩, ⟨imports (imageOf 0 (sealTag 0 0 + 1)), runs_imports _, rfl, offers_imports _, ?_⟩⟩
  · intro m plain
    have e : m = imageOf (Config.sealStream 0).toNat (sealTag 0 (Config.sealStream 0).toNat) := by
      show rdMem _ (fnHost _ 0 (cmdArg _ 0 2)) 96 = _
      rw [hc, image_read hk (Nat.le_of_lt (ht _))]
    have p : plain = 0 := by
      show sealed (m % 2 ^ 96) (m / 2 ^ 96 % 2 ^ 512) = 0
      rw [e, image_nonce, image_body hk, sealed, Nat.xor_self]
    rw [p, e, image_nonce, image_body hk, image_tag hk]
    exact ⟨rfl, by decide +kernel, by decide +kernel, by decide +kernel, rfl⟩
  · intro m
    have z : (0 : Nat) < 2 ^ 512 := Nat.two_pow_pos 512
    have e : m = imageOf 0 (sealTag 0 0 + 1) := by
      show rdMem _ (fnHost _ 0 (cmdArg _ 0 2)) 96 = _
      rw [hc, image_read z (ht 0)]
    rw [e, image_nonce, image_body z, image_tag z]
    have := ht 0
    omega

/-- Which of its answers a port record gets is not the model's to say: every other premise about one is met by `eGranted`
and `engOp 0`, and the draw gives one of the values that the statement splits on. -/
theorem meets_EngineEventsTakeEffect_draws (s : State) (id vf : Nat) :
    ((draw s vf 0 1).1 = 0 ∨ (draw s vf 0 1).1 = 1)
    ∧ ((rdmaAnswer s id).1 = 0 ∨ (rdmaAnswer s id).1 = 1 ∨ (rdmaAnswer s id).1 = 2) := by
  simp only [rdmaAnswer, draw]
  split
  · exact ⟨by omega, Or.inl rfl⟩
  · exact ⟨by omega, by simp only; omega⟩

theorem meets_PreemptionEventsTakeEffect_resume :
    (let s := parted (idle dState) dOut [1]
     let v := getVf s (argN s 0)
     v.layout.slots ≠ 0 ∧ v.resident = false ∧ v.tstop = false ∧ switching s (argN s 0) = false
     ∧ (∃ why, v.pre = .saved why ∧ why ≠ 1 ∧ why ≠ 2) ∧ v.layout.mode = 0 ∧ slotsFree s (argN s 0) = true
     ∧ keptOut s (argN s 0) = false)
    ∧ (let s := withVf2 (parted (idle dState) dLate [1]) dVf
       let v := getVf s (argN s 0)
       v.layout.slots ≠ 0 ∧ v.resident = false ∧ v.tstop = false ∧ switching s (argN s 0) = false
       ∧ (∃ why, v.pre = .saved why ∧ why ≠ 1 ∧ why ≠ 2) ∧ v.layout.mode = 0 ∧ slotsFree s (argN s 0) = false
     ∧ v.waitFrom ≠ 0) := by
  and_intros <;> first | decide +kernel | exact ⟨0, by decide +kernel, by decide, by decide⟩

theorem meets_LocalSpacesAreDisjoint_slots :
    (8 * 4095 < localSize twoParts 1) ∧ [0].Pairwise (· < ·)
    ∧ ∀ k, k ∈ [0] ↔ k < 8 ∧ maskHas (slotsOf twoParts 1) k = true := by
  refine ⟨by decide +kernel, by decide, fun k => ?_⟩
  have h : ∀ k, k < 8 → (k ∈ [0] ↔ maskHas (slotsOf twoParts 1) k = true) := by decide +kernel
  by_cases hk : k < 8
  · simp only [hk, true_and, h k hk]
  · simp only [hk, false_and, iff_false, List.mem_singleton]
    omega

theorem meets_BundleIssueRefusals_decode :
    (inWidth (.add { d := 33 }) = true ∧ opcodeOf (.add { d := 33 }) = some (.S, 1) ∧ slotCause (.add { d := 33 }) = some 3)
    ∧ (oa.c = 0 ∧ oa.fn = 0) ∧ (({} : IOp).a = 0 ∧ ({} : IOp).d = 0)
    ∧ (({} : VOp).hold = 0 ∧ ({} : VOp).c = 0 ∧ ({} : VOp).fn = 0 ∧ ({} : VOp).b = 0)
    ∧ (({} : LAOp).a = 0 ∧ ({} : LAOp).b = 0 ∧ ({} : LAOp).c = 0 ∧ ({} : LAOp).fn = 0)
    ∧ headerCause w1 0 (2 ^ 240) = some 2 ∧ (bitsAt (2 ^ 254) 240 4 = 0 ∧ bitsAt (2 ^ 254) 254 1 = 1)
    ∧ headerCause w1 0 0 = none
    ∧ checkSlot w1 0 (2 ^ 239) .S [] = .error { place := 1, cause := 1 }
    ∧ checkSlot w1 0 (2 ^ 191) .S [] = .ok .nop ∧ checkSlot w1 0 (2 ^ 191) .V [.nop] = .error { place := 2, cause := 1 }
    ∧ checkSlot w1 0 (2 ^ 143) .V [.nop] = .ok .nop ∧ checkSlot w1 0 (2 ^ 143) .M [.nop, .nop] = .error { place := 3, cause := 1 }
    ∧ checkSlot w1 0 (2 ^ 95) .M [.nop, .nop] = .ok .nop
    ∧ checkSlot w1 0 (2 ^ 95) .L [.nop, .nop, .nop] = .error { place := 4, cause := 1 }
    ∧ checkSlot w1 0 (2 ^ 47) .L [.nop, .nop, .nop] = .ok .nop
    ∧ checkSlot w1 0 (2 ^ 47) .X [.nop, .nop, .nop, .nop] = .error { place := 5, cause := 1 }
    ∧ decodeAt .S (2 ^ 239) = .error { place := 1, cause := 1 } ∧ decodeAt .S 0 = .ok .nop := by
  and_intros
  all_goals first
    | decide +kernel
    | exact error_of (by decide +kernel)
    | exact ok_of (by decide +kernel)

theorem meets_RequestEventsTakeEffect_far :
    (argN (ev dState [0, 4096, 5, 8, 7]) 0 = 0
      ∧ (∃ x part, writeLine (sawPart (ev dState [0, 4096, 5, 8, 7]) (2 ^ 16) 4096 5 8 false) 4096 5 8 7 false false = .ok x part)
      ∧ readLine (ev dState [0, 4096, 5, 8]) 4096 5 8 = .ok 0 false
      ∧ readLine (ev dState [0, 4096, 9, 8]) 4096 9 8 = .key)
    ∧ (let s := rq { rqOp [known 4096 0] [{ src := 4096, srcDev := true }] with held := some 4096 } [3, 0]
       let o := getOp s 3
       argN s 0 ≠ 0 ∧ swapped s o = false ∧ o.held.isSome = true ∧ pageOf o (o.parts.getD 0 {}).src 0 = some (known 4096 0)
       ∧ (o.parts.getD 0 {}).got = false) := by
  and_intros <;> first | decide +kernel | exact ⟨_, _, rfl⟩

theorem meets_MaskEventsAndRepliesTakeEffect_write :
    (let s := noScrub (rq (privOp 0x3D 4096 4096 7 5) [3, 0])
     let o := getOp s 3
     hasOp s 3 = true ∧ o.thread = some 0 ∧ argN s 1 ≠ 1 ∧ o.opc = 0x3D ∧ o.b / 2 ^ 62 = 0 ∧ closedGranule s o.a = false
     ∧ paOk s 0 o.a = true
     ∧ ∃ s2 latent, writeLine (sawPart s (lineKey o o.a) o.a o.n 8 false) o.a o.n 8 o.size false false = .ok s2 latent) := by
  and_intros <;> first | decide +kernel | exact ⟨_, _, rfl⟩

theorem meets_GateEventsTakeEffect_arrivals :
    (let s := gate gOpen gGranted [4, 1]; hasOp s (argN s 0) = true ∧ argN s 1 = 1)
    ∧ (let s := gwaits 6
       let w := getOp s 4
       let m := max (mirror s (argN s 0) (argN s 1)) (argN s 2)
       (getGate s (argN s 1)).gen = argN s 3 ∧ s.gwaiters = [4] ∧ hasOp s 4 = true ∧ w.kind = .gwait ∧ w.thread = some 0
       ∧ w.lid = some (getTh s 0).lid ∧ isSaved 0 = false ∧ w.die = argN s 0 ∧ w.a = argN s 1 ∧ w.size ≤ m ∧ w.watching = false
       ∧ (getTh s 0).st = .parked ∧ (getTh s 0).parks = [.gate 4] ∧ (getTh s 0).exiting = false)
    ∧ (let s := gwaits 7
       let m := max (mirror s (argN s 0) (argN s 1)) (argN s 2)
       (getGate s (argN s 1)).gen = argN s 3 ∧ s.gwaiters = [4] ∧ m < (getOp s 4).size)
    ∧ (let s := viewed
       let o := getOp s 4
       hasOp s 4 = true ∧ o.complete = false ∧ (∀ k ∈ o.after, hasOp s k = false) ∧ (getGate s o.a).active = true
       ∧ (getGate s o.a).gen = o.size
       ∧ ∃ e ∈ s.gviews, e.2.valid = true ∧ e.2.index = o.a ∧ maskHas (diesOf s (e.1 / 256)) 0 = true) := by
  and_intros <;> decide +kernel

theorem meets_LayoutCommandsTakeEffect_checks :
    (let s := parted (pf 1 64 0 0) dLocked [0]; runsCmd s 0 1 ∧ namesVf s ∧ (getVf s 0).cmdStep = 0 ∧ pfLocked s 0 1 = true)
    ∧ (let s := host (pf 1 64 0 0) 64 64 (2 ^ 13)
       runsCmd s 0 1 ∧ namesVf s ∧ (getVf s 0).cmdStep = 0 ∧ pfLocked s 0 1 = false
       ∧ layoutReserved (rdMem s.mem (fnHost s 0 (cmdArg s 0 0)) 64) = true)
    ∧ (let s := withVf2 (host (pf 1 64 0 0) 64 64 layoutBits) dVf
       let new := layoutOf (rdMem s.mem (fnHost s 0 (cmdArg s 0 0)) 64)
       runsCmd s 0 1 ∧ namesVf s ∧ (getVf s 0).cmdStep = 0 ∧ pfLocked s 0 1 = false
       ∧ layoutReserved (rdMem s.mem (fnHost s 0 (cmdArg s 0 0)) 64) = false ∧ layoutBad s 1 new = false
       ∧ layoutFull s 1 new = true)
    ∧ ∀ r, r = 0 ∨ r = 2 ^ 8 →
       let s := moving r
       let new := layoutOf (rdMem s.mem (fnHost s 0 (cmdArg s 0 0)) 64)
       runsCmd s 0 1 ∧ namesVf s ∧ (getVf s 0).cmdStep = 0 ∧ pfLocked s 0 1 = false
       ∧ layoutReserved (rdMem s.mem (fnHost s 0 (cmdArg s 0 0)) 64) = false ∧ layoutBad s 1 new = false
       ∧ layoutFull s 1 new = false ∧ busyVf s 1 = true ∧ new.dies ≠ (getVf s 1).layout.dies
       ∧ cmdEvict s 0 = decide (r = 2 ^ 8) := by
  and_intros
  any_goals decide +kernel
  rintro r (rfl | rfl) <;> decide +kernel

theorem meets_LayoutCommandsTakeEffect_steps :
    (∀ v ∈ [dStop 1, dVf, { dVf with resident := false }, dOut], ∀ n ∈ [1, 2],
      let s := committing n v
      runsCmd s 0 1 ∧ namesVf s ∧ s.pkg.journal.find? (fun y => y.vf == cmdVf s 0) = some aJournal
      ∧ (getVf s 0).cmdStep = n ∧ (getVf s 1).pre = v.pre ∧ (getVf s 1).resident = v.resident)
    ∧ slotsIn aJournal.old = slotsIn aJournal.new ∧ aJournal.old.dies = aJournal.new.dies
    ∧ (let s := committed2 (committing 1 dOut)
       ∃ j, s.pkg.journal.find? (fun y => y.vf == cmdVf s 0) = some j ∧ j.old.dies ≠ j.new.dies) := by
  and_intros <;> first | decide +kernel | exact ⟨_, by decide +kernel, by decide +kernel⟩

theorem meets_LoopCopyMaskAndDecisions_switching :
    (let s := switchedOver
     let x := getGraph s (argN s 0)
     s.graphs.any (fun y => y.1 == argN s 0) = true ∧ x.failed = false ∧ (nodeOf x 0).base = argN s 2
     ∧ (nodeOf x 0).st = .ready ∧ (nodeOf x 0).ty = 1 ∧ (nodeOf x 0).lid = some 2 ∧ (getVf s x.vf).resident = true
     ∧ (getVf s x.vf).barred = false ∧ switching s x.vf = true) := by
  and_intros <;> decide +kernel

/-- WellFormed (R36, R39, R41 to R47, R60, R113 to R115, R139, R207, R208): a term that each check refuses. -/
def illFormed : List Instr :=
  [.add { d := 64 }, .add { fn := 8192 }, .addi { imm := 2 ^ 28 }, .liK { imm := 2 ^ 34 }, .br { off := 2 ^ 24 },
   .bz { a := 1, rsv := 1024 }, .vadd { ty := 16 }, .vadd { hold := 8 }, .mma { fl := 8 }, .mzero { acc := 8 }, .ldL { imm := 2 ^ 25 },
   .cpin { fn := 1024 }, .send { idx := 32 }, .send { fn := 256 },
   .add { d := 32 }, .add { c := 1 }, .add { fn := 1 }, .addsat { fn := 2 }, .addx { fn := 8 }, .insr { fn := 4096 },
   .jr { d := 1 }, .shli { imm := 64 }, .movc { imm := 13 }, .movtc { imm := 0 }, .movtc { imm := 7 }, .syncD { imm := 16 },
   .trap { imm := 65536 }, .lih { imm := 2 ^ 30 }, .br { a := 1 }, .bz { rsv := 1 },
   .vadd { d := 48 }, .vadd { c := 1 }, .vadd { ty := 11 }, .vadd { ty := 2, rm := 1 }, .vadd { hold := 4, a := 3 }, .vadd { hold := 1 },
   .vmin { rm := 1 }, .vshl { ty := 8 }, .vmulq { ty := 3 }, .vmacw { ty := 2 }, .vdot4 { ty := 1 }, .vdiv { ty := 2 },
   .vdiv { ty := 8, rm := 2 }, .vexp2q { ty := 9 }, .vcvt { b := 1 }, .vcvt { fn := 11 }, .vpack { ty := 1, fn := 1 },
   .vunpk { ty := 2, fn := 0 }, .vunpk { ty := 1, rm := 2 }, .vcmpeq {}, .vcmpeq { d := 8 }, .vcmpeq { d := 1, fn := 2 },
   .pand { d := 1, a := 8 }, .pand { d := 1, ty := 1 }, .vradd { d := 32 },
   .mfmt { fn := 3 }, .mfmt { fn := 32 }, .mma { sa := 6, fl := 2 }, .mma {}, .mma { acc := 2, fl := 2 }, .mdrain { sa := 4 },
   .mdrainv { a := 48 }, .mzero { a := 1 }, .mstacc { sa := 4 }, .mseed { sb := 1 },
   .ldL { sz := 4 }, .ldL { d := 32 }, .vld { sz := 3 }, .vst { sz := 4, d := 48 }, .pst { sz := 4, d := 48 }, .vgath { b := 48 },
   .atadd { sz := 1 }, .atmin { sz := 3, fn := 2 }, .takeW { sz := 2 }, .putW { sz := 3, d := 1 }, .cpin { sz := 1 },
   .send { c := 1 }, .gpoll { d := 32 }]

theorem test_ill_formed : illFormed.all (fun i => !wellFormed i) = true := by decide +kernel

theorem test_ill_formed_bundles :
    Bundle.wellFormed { spx := 1024, sp := true } = false ∧ Bundle.wellFormed { spx := 1 } = false
    ∧ Bundle.wellFormed { sV := .add {} } = false ∧ Bundle.wellFormed { sS := .add { d := 32 } } = false
    ∧ Bundle.wellFormed { sX := .bundleIssue } = false := by decide +kernel

/-- 02, "A bundle encoded": the bundle of the worked example. -/
def bundleOfSpec : Bundle :=
  { sw := true, sp := true, spx := 3, sS := .addi { d := 5, a := 5, imm := 64 }
    sV := .vfma { d := 30, a := 2, b := 8, c := 30, p := 2, ty := 8 }, sL := .vld { d := 9, a := 5, sz := 4 } }

theorem test_bundle_encoded :
    encodeBundle bundleOfSpec = 0xC0302014500000400478221E4200000000000000032458000000000000000000
    ∧ okOf (decode ([0, 0, 0, 0, 0, 0, 0, 0, 0, 0x58, 0x24, 0x03, 0, 0, 0, 0, 0, 0, 0, 0x42, 0x1E, 0x22, 0x78, 0x04, 0x40, 0, 0, 0x50, 0x14,
        0x20, 0x30, 0xC0] : List Byte)) = some bundleOfSpec := by decide +kernel

/-- 02 R59, the example: v2 and v8 share a bank, v9 moves with RRB. -/
theorem test_bank_cost :
    physV 5 30 = 35 ∧ physV 5 47 = 28 ∧ physV 2 30 = 32 ∧ bankCost { rrb := 5 } bundleOfSpec = 1
    ∧ bankCost {} bundleOfSpec = 1
    ∧ let v9 : Bundle := { bundleOfSpec with sV := .vfma { d := 30, a := 2, b := 9, c := 30, p := 2, ty := 8 } }
      bankCost { rrb := 5 } v9 = 0 ∧ bankCost {} v9 = 0 ∧ bankCost { rrb := 2 } v9 = 1 ∧ bankCost { rrb := 3 } v9 = 1 := by
  decide +kernel

/-- What s4 reads when the results of one instruction of operands a and b have landed. -/
def givesOn (i : Instr) (a b : Word) : Word :=
  rdS (landUpto (curTh (after (exec i (aState { aThread with sreg := [(1, a), (2, b)] })))) 1000) 4

/-- 04 R101, the example's table. -/
theorem test_divisions :
    givesOn (.div oa) 100 7 = 14 ∧ givesOn (.rem oa) 100 7 = 2 ∧ givesOn (.divn oa) 100 7 = 14 ∧ givesOn (.remn oa) 100 7 = 2
    ∧ givesOn (.div oa) (-100) 7 = -14 ∧ givesOn (.rem oa) (-100) 7 = -2 ∧ givesOn (.divn oa) (-100) 7 = 0x2492492492492484
    ∧ givesOn (.remn oa) (-100) 7 = 0 ∧ givesOn (.div oa) 100 0 = -1 ∧ givesOn (.rem oa) 100 0 = 100
    ∧ givesOn (.divn oa) 100 0 = -1 ∧ givesOn (.remn oa) 100 0 = 100 ∧ givesOn (.div oa) (2 ^ 63) (-1) = 2 ^ 63
    ∧ givesOn (.rem oa) (2 ^ 63) (-1) = 0 ∧ givesOn (.divn oa) (2 ^ 63) (-1) = 0
    ∧ givesOn (.remn oa) (2 ^ 63) (-1) = 2 ^ 63 := by decide +kernel

/-- 04 R102 and R105, the examples. -/
theorem test_subsat_extr :
    givesOn (.subsat { oa with fn := 1 }) 3 9 = 0
    ∧ givesOn (.extr { d := 4, a := 1, fn := 0x12C8 }) 0xABCD00 0 = 0xFFFFFFFFFFFFFBCD := by decide +kernel

/-- 03, the example of RSR: narrowing 0x3F808001 to bf16. -/
theorem test_narrowing :
    (convert 8 9 0x3F808001 2 0x12345678).1 = 0x3F80 ∧ (convert 8 9 0x3F808001 0 0).1 = 0x3F81
    ∧ (convert 8 9 0x3F808001 2 0x12345678).2 = (convert 8 9 0x3F808001 0 0).2 := by decide +kernel

/-- Lanes of width w, the lowest first. -/
def packed (w : Nat) (l : List Nat) : Nat := l.foldr (fun x acc => x + 2 ^ w * acc) 0

/-- 04 R130, the example: VCMPLT.i16 in its two forms. -/
def compares (fn : Nat) : BitVec 16 :=
  let th := { aThread with
    vreg := [(5, BitVec.ofNat 512 (packed 16 [1, 9, 0xFFFC, 7])), (6, BitVec.ofNat 512 (packed 16 (List.replicate 32 5)))]
    preg := [(1, 0x00FF), (3, 0xA500)] }
  rdP (landUpto (curTh (after (exec (.vcmplt { d := 3, a := 5, b := 6, p := 1, ty := 1, fn := fn }) (aState th)))) 1000) 3

theorem test_compare : compares 1 = 0xA5FF ∧ compares 0 = 0xA5FC := by decide +kernel

/-- 04 R137, the example: weights, prefix sums, total and index, each one after the last has landed. -/
def sampled (n : Nat) : Thread :=
  let th := { aThread with
    vreg := [(9, BitVec.ofNat 512 (packed 32 [0, 0xBF000000, 0xC0400000, 0xC2200000]))], preg := [(1, 0x000F)], sreg := [(5, 111877)] }
  ([.vexp2q { d := 10, a := 9, p := 1, ty := 8 }, .vpsum { d := 11, a := 10, ty := 6 }, .vradd { d := 6, a := 10, ty := 6 },
    .vfind { d := 7, a := 11, b := 5, ty := 6 }].take n).foldl
    (fun th i => landUpto (curTh (after (exec i (aState th)))) 1000) th

theorem test_sampling :
    (rdV (sampled 1) 10).toNat = packed 32 [65536, 46341, 8192, 0] ∧ laneAt 32 (rdV (sampled 2) 11).toNat 1 = 111877
    ∧ laneAt 32 (rdV (sampled 2) 11).toNat 15 = 120069 ∧ rdS (sampled 4) 6 = 120069 ∧ rdS (sampled 4) 7 = 2 := by decide +kernel

/-- 02 R54 to R56: a step from the placed bundle runs it; its result is in flight and lands one turn later. -/
theorem test_step_addi :
    let t := after (step (issues (encode (.addi { d := 4, imm := 0xFFFFFFF }))))
    rdS (getTh t 0) 4 = 0 ∧ rdS (landUpto (getTh t 0) 8) 4 = -1 ∧ (getTh t 0).pc = 1 := by decide +kernel

/-- Every slot word of a list, alone in its bundle, decodes to its instruction, which encodes to it again. -/
def decodes (low : Nat) (l : List (Nat × Instr)) : Bool :=
  l.all fun x => decodeTableWord 256 (x.1 * 2 ^ low) == some x.2 && encode x.2 == x.1 * 2 ^ low

/-- Opcodes of the S slot (R67), the fields placed as R39 gives them. -/
def wordsS1 : List (Nat × Instr) :=
  [(0x10C41402000, .add { d := 3, a := 4, b := 5, p := 1 }), (0x20C41402000, .sub { d := 3, a := 4, b := 5, p := 1 }),
   (0x30C41402000, .andS { d := 3, a := 4, b := 5, p := 1 }), (0x40C41402000, .orS { d := 3, a := 4, b := 5, p := 1 }),
   (0x50C41402000, .xorS { d := 3, a := 4, b := 5, p := 1 }), (0x60C41402000, .andn { d := 3, a := 4, b := 5, p := 1 }),
   (0x70C41402000, .shl { d := 3, a := 4, b := 5, p := 1 }), (0x80C41402000, .shr { d := 3, a := 4, b := 5, p := 1 }),
   (0x90C41402000, .sra { d := 3, a := 4, b := 5, p := 1 }), (0xA0C41402000, .rol { d := 3, a := 4, b := 5, p := 1 }),
   (0xB0C41402000, .mul { d := 3, a := 4, b := 5, p := 1 }), (0xC0C41402000, .mulh { d := 3, a := 4, b := 5, p := 1 }),
   (0xD0C41402000, .mulhn { d := 3, a := 4, b := 5, p := 1 }), (0xE0C41402000, .div { d := 3, a := 4, b := 5, p := 1 }),
   (0xF0C41402000, .divn { d := 3, a := 4, b := 5, p := 1 }), (0x100C41402000, .rem { d := 3, a := 4, b := 5, p := 1 }),
   (0x110C41402000, .remn { d := 3, a := 4, b := 5, p := 1 }), (0x120C41402000, .minS { d := 3, a := 4, b := 5, p := 1 }),
   (0x130C41402000, .maxS { d := 3, a := 4, b := 5, p := 1 }), (0x140C41402000, .minn { d := 3, a := 4, b := 5, p := 1 }),
   (0x150C41402000, .maxn { d := 3, a := 4, b := 5, p := 1 }),
   (0x160C41402000, .cmpeq { d := 3, a := 4, b := 5, p := 1 })]
/-- Opcodes of the S slot (R67), the fields placed as R39 gives them. -/
def wordsS2 : List (Nat × Instr) :=
  [(0x170C41402000, .cmpne { d := 3, a := 4, b := 5, p := 1 }),
   (0x180C41402000, .cmplt { d := 3, a := 4, b := 5, p := 1 }),
   (0x190C41402000, .cmpltn { d := 3, a := 4, b := 5, p := 1 }),
   (0x1A0C41462000, .sel { d := 3, a := 4, b := 5, c := 6, p := 1 }), (0x1B0C40002000, .clz { d := 3, a := 4, p := 1 }),
   (0x1C0C40002000, .ctz { d := 3, a := 4, p := 1 }), (0x1D0C40002000, .popc { d := 3, a := 4, p := 1 }),
   (0x1E0C41402001, .addsat { d := 3, a := 4, b := 5, p := 1, fn := 1 }),
   (0x1F0C41402001, .subsat { d := 3, a := 4, b := 5, p := 1, fn := 1 }),
   (0x200C4ABCDEF5, .addi { d := 3, a := 4, imm := 0xABCDEF5 }),
   (0x210C4ABCDEF5, .andi { d := 3, a := 4, imm := 0xABCDEF5 }),
   (0x220C4ABCDEF5, .ori { d := 3, a := 4, imm := 0xABCDEF5 }),
   (0x230C4ABCDEF5, .xori { d := 3, a := 4, imm := 0xABCDEF5 }), (0x240C4000003D, .shli { d := 3, a := 4, imm := 61 }),
   (0x250C4000003D, .shri { d := 3, a := 4, imm := 61 }), (0x260C4000003D, .srai { d := 3, a := 4, imm := 61 }),
   (0x270C4ABCDEF5, .cmpeqi { d := 3, a := 4, imm := 0xABCDEF5 }),
   (0x280C4ABCDEF5, .cmplti { d := 3, a := 4, imm := 0xABCDEF5 }),
   (0x290C4ABCDEF5, .muli { d := 3, a := 4, imm := 0xABCDEF5 }), (0x2A0EABCDEF01, .liK { d := 3, imm := 0x2ABCDEF01 }),
   (0x2B0C2ABCDEF0, .lih { d := 3, imm := 0x2ABCDEF0 }),
   (0x2C0C41402005, .addx { d := 3, a := 4, b := 5, p := 1, fn := 5 })]
/-- Opcodes of the S slot (R67), the fields placed as R39 gives them. -/
def wordsS3 : List (Nat × Instr) :=
  [(0x2D0C400032C8, .extr { d := 3, a := 4, p := 1, fn := 0x12C8 }),
   (0x2E0C40002005, .insr { d := 3, a := 4, p := 1, fn := 5 }),
   (0x2F0C41402000, .rhash { d := 3, a := 4, b := 5, p := 1 }), (0x300C0000000B, .movc { d := 3, imm := 11 }),
   (0x310040000004, .movtc { a := 4, imm := 4 }), (0x400000ABCDEF, .br { off := 0xABCDEF }),
   (0x411000ABCDEF, .bz { a := 4, off := 0xABCDEF }), (0x421000ABCDEF, .bnz { a := 4, off := 0xABCDEF }),
   (0x431000ABCDEF, .bltz { a := 4, off := 0xABCDEF }), (0x441000ABCDEF, .bgez { a := 4, off := 0xABCDEF }),
   (0x450040002000, .jr { a := 4, p := 1 }), (0x460000ABCDEF, .call { off := 0xABCDEF }),
   (0x470000002000, .ret { p := 1 }), (0x480000ABCDEF, .loop { off := 0xABCDEF }),
   (0x490000ABCDEF, .loopn { off := 0xABCDEF }), (0x50000000000B, .syncD { imm := 11 }),
   (0x510040002000, .sleepu { a := 4, p := 1 }), (0x520000002000, .exitT { p := 1 }),
   (0x530C00002000, .gnext { d := 3, p := 1 }), (0x54004000003D, .trap { a := 4, imm := 61 }),
   (0x55000000003D, .brkpt { imm := 61 }), (0x560000002000, .resumeStub { p := 1 })]
/-- Opcodes of the V slot (R67), the fields placed as R39 gives them. -/
def wordsV1 : List (Nat × Instr) :=
  [(0x165A6C02250, .vadd { d := 25, a := 26, b := 27, p := 1, ty := 9, rm := 1 }),
   (0x265A6C02250, .vsub { d := 25, a := 26, b := 27, p := 1, ty := 9, rm := 1 }),
   (0x365A6C02250, .vmul { d := 25, a := 26, b := 27, p := 1, ty := 9, rm := 1 }),
   (0x465A6DC2250, .vfma { d := 25, a := 26, b := 27, c := 28, p := 1, ty := 9, rm := 1 }),
   (0x565A6DC2250, .vfnma { d := 25, a := 26, b := 27, c := 28, p := 1, ty := 9, rm := 1 }),
   (0x665A6C02240, .vmin { d := 25, a := 26, b := 27, p := 1, ty := 9 }),
   (0x765A6C02240, .vmax { d := 25, a := 26, b := 27, p := 1, ty := 9 }),
   (0x865A0002240, .vabs { d := 25, a := 26, p := 1, ty := 9 }),
   (0x965A0002240, .vneg { d := 25, a := 26, p := 1, ty := 9 }),
   (0xA65A6C02240, .vand { d := 25, a := 26, b := 27, p := 1, ty := 9 }),
   (0xB65A6C02240, .vor { d := 25, a := 26, b := 27, p := 1, ty := 9 }),
   (0xC65A6C02240, .vxor { d := 25, a := 26, b := 27, p := 1, ty := 9 }),
   (0xD65A6C02080, .vshl { d := 25, a := 26, b := 27, p := 1, ty := 2 }),
   (0xE65A6C02080, .vshr { d := 25, a := 26, b := 27, p := 1, ty := 2 }),
   (0xF65A6C02080, .vsra { d := 25, a := 26, b := 27, p := 1, ty := 2 }),
   (0x1065A6C02080, .vadds { d := 25, a := 26, b := 27, p := 1, ty := 2 }),
   (0x1165A6C02080, .vsubs { d := 25, a := 26, b := 27, p := 1, ty := 2 }),
   (0x1265A6C02080, .vmulh { d := 25, a := 26, b := 27, p := 1, ty := 2 }),
   (0x1365A6C02080, .vmulq { d := 25, a := 26, b := 27, p := 1, ty := 2 }),
   (0x1465A6DC2250, .vmacw { d := 25, a := 26, b := 27, c := 28, p := 1, ty := 9, rm := 1 }),
   (0x1565A6DC2000, .vdot4 { d := 25, a := 26, b := 27, c := 28, p := 1 }),
   (0x1665A6C02250, .vdiv { d := 25, a := 26, b := 27, p := 1, ty := 9, rm := 1 })]
/-- Opcodes of the V slot (R67), the fields placed as R39 gives them. -/
def wordsV2 : List (Nat × Instr) :=
  [(0x1765A0002250, .vsqrt { d := 25, a := 26, p := 1, ty := 9, rm := 1 }),
   (0x1865A0002240, .vrcp { d := 25, a := 26, p := 1, ty := 9 }),
   (0x1965A0002240, .vrsq { d := 25, a := 26, p := 1, ty := 9 }),
   (0x1A65A0002200, .vexp2q { d := 25, a := 26, p := 1, ty := 8 }),
   (0x1B65A0002251, .vcvt { d := 25, a := 26, p := 1, ty := 9, rm := 1, fn := 1 }),
   (0x1C65A6C02252, .vpack { d := 25, a := 26, b := 27, p := 1, ty := 9, rm := 1, fn := 2 }),
   (0x1D65A0002250, .vunpk { d := 25, a := 26, p := 1, ty := 9, rm := 1 }),
   (0x201DA6C02241, .vcmpeq { d := 7, a := 26, b := 27, p := 1, ty := 9, fn := 1 }),
   (0x211DA6C02241, .vcmpne { d := 7, a := 26, b := 27, p := 1, ty := 9, fn := 1 }),
   (0x221DA6C02241, .vcmplt { d := 7, a := 26, b := 27, p := 1, ty := 9, fn := 1 }),
   (0x231DA6C02241, .vcmple { d := 7, a := 26, b := 27, p := 1, ty := 9, fn := 1 }),
   (0x2465A0002240, .vclass { d := 25, a := 26, p := 1, ty := 9 }),
   (0x281C61402000, .pand { d := 7, a := 6, b := 5, p := 1 }), (0x291C61402000, .por { d := 7, a := 6, b := 5, p := 1 }),
   (0x2A1C61402000, .pxor { d := 7, a := 6, b := 5, p := 1 }), (0x2B1C60002000, .pnot { d := 7, a := 6, p := 1 }),
   (0x2C6460002000, .pcnt { d := 25, a := 6, p := 1 }), (0x3065A0002240, .vradd { d := 25, a := 26, p := 1, ty := 9 }),
   (0x3165A0002240, .vrmax { d := 25, a := 26, p := 1, ty := 9 }),
   (0x3265A0002240, .vrmin { d := 25, a := 26, p := 1, ty := 9 }),
   (0x3365A0002240, .vpsum { d := 25, a := 26, p := 1, ty := 9 }),
   (0x3465A6C02240, .vfind { d := 25, a := 26, b := 27, p := 1, ty := 9 })]
/-- Opcodes of the V slot (R67), the fields placed as R39 gives them. -/
def wordsV3 : List (Nat × Instr) :=
  [(0x3865A6DC2240, .vperm { d := 25, a := 26, b := 27, c := 28, p := 1, ty := 9 }),
   (0x3965A0002240, .vsplat { d := 25, a := 26, p := 1, ty := 9 }),
   (0x3A65A6C02240, .vins { d := 25, a := 26, b := 27, p := 1, ty := 9 }),
   (0x3B65A6C02240, .vext { d := 25, a := 26, b := 27, p := 1, ty := 9 }),
   (0x3C65A6C02240, .vsel { d := 25, a := 26, b := 27, p := 1, ty := 9 }),
   (0x3D65A6DC2240, .vslide { d := 25, a := 26, b := 27, c := 28, p := 1, ty := 9 })]
/-- Opcodes of the M slot (R67), the fields placed as R39 gives them. -/
def wordsM1 : List (Nat × Instr) :=
  [(0x1020A300015, .mfmt { a := 4, b := 5, n := 6, fn := 21 }),
   (0x2220A326800, .mma { acc := 1, a := 4, b := 5, n := 6, sa := 2, sb := 3, fl := 2 }),
   (0x3220A326400, .mmaz { acc := 1, a := 4, b := 5, n := 6, sa := 2, sb := 3, fl := 1 }),
   (0x4220A327800, .mmas { acc := 1, a := 4, b := 5, n := 6, sa := 2, sb := 3, fl := 6 }),
   (0x5220A327000, .mmasz { acc := 1, a := 4, b := 5, n := 6, sa := 2, sb := 3, fl := 4 }),
   (0x62000000015, .mhad { acc := 1, fn := 21 }), (0x72200020155, .mdrain { acc := 1, a := 4, sa := 2, fn := 341 }),
   (0x8220A000001, .mdrainv { acc := 1, a := 4, b := 5, fn := 1 }), (0x92000000000, .mzero { acc := 1 }),
   (0xA2200020000, .mldacc { acc := 1, a := 4, sa := 2 }), (0xB2200020000, .mstacc { acc := 1, a := 4, sa := 2 }),
   (0xC0200000000, .mseed { a := 4 })]
/-- Opcodes of the L slot (R67), the fields placed as R39 gives them. -/
def wordsL1 : List (Nat × Instr) :=
  [(0x12447FFFFF8, .ldL { d := 9, a := 4, sz := 3, imm := 0x1FFFFF8 }),
   (0x22447FFFFF8, .stL { d := 9, a := 4, sz := 3, imm := 0x1FFFFF8 }),
   (0x32449FFFFF8, .vld { d := 9, a := 4, sz := 4, imm := 0x1FFFFF8 }),
   (0x42449FFFFF8, .vst { d := 9, a := 4, sz := 4, imm := 0x1FFFFF8 }),
   (0x50C41402003, .vlds { d := 3, a := 4, b := 5, p := 1, sz := 3 }),
   (0x60C41402003, .vsts { d := 3, a := 4, b := 5, p := 1, sz := 3 }),
   (0x70C41402003, .vgath { d := 3, a := 4, b := 5, p := 1, sz := 3 }),
   (0x80C41402003, .vscat { d := 3, a := 4, b := 5, p := 1, sz := 3 }),
   (0x92447FFFFF8, .pld { d := 9, a := 4, sz := 3, imm := 0x1FFFFF8 }),
   (0xA2447FFFFF8, .pst { d := 9, a := 4, sz := 3, imm := 0x1FFFFF8 }),
   (0xB2447FFFFF8, .ldp { d := 9, a := 4, sz := 3, imm := 0x1FFFFF8 }),
   (0xC2449FFFFF8, .vldp { d := 9, a := 4, sz := 4, imm := 0x1FFFFF8 }),
   (0xD2449FFFFF8, .vldw { d := 9, a := 4, sz := 4, imm := 0x1FFFFF8 }),
   (0x100C41402003, .atadd { d := 3, a := 4, b := 5, p := 1, sz := 3 }),
   (0x110C4140200B, .atmin { d := 3, a := 4, b := 5, p := 1, fn := 1, sz := 3 }),
   (0x120C4140200B, .atmax { d := 3, a := 4, b := 5, p := 1, fn := 1, sz := 3 }),
   (0x130C41402003, .atand { d := 3, a := 4, b := 5, p := 1, sz := 3 }),
   (0x140C41402003, .ator { d := 3, a := 4, b := 5, p := 1, sz := 3 }),
   (0x150C41402003, .atxor { d := 3, a := 4, b := 5, p := 1, sz := 3 }),
   (0x160C41402003, .atswp { d := 3, a := 4, b := 5, p := 1, sz := 3 }),
   (0x170C41462003, .atcas { d := 3, a := 4, b := 5, c := 6, p := 1, sz := 3 }),
   (0x180C40002003, .takeW { d := 3, a := 4, p := 1, sz := 3 })]
/-- Opcodes of the L slot (R67), the fields placed as R39 gives them. -/
def wordsL2 : List (Nat × Instr) :=
  [(0x190041402003, .putW { a := 4, b := 5, p := 1, sz := 3 }),
   (0x1A0C40002003, .fullq { d := 3, a := 4, p := 1, sz := 3 }), (0x1B0040002003, .emptyw { a := 4, p := 1, sz := 3 }),
   (0x200041462000, .cpin { a := 4, b := 5, c := 6, p := 1 }),
   (0x210041462000, .cpout { a := 4, b := 5, c := 6, p := 1 }),
   (0x220041462000, .cpin2 { a := 4, b := 5, c := 6, p := 1 }),
   (0x230041462000, .cpout2 { a := 4, b := 5, c := 6, p := 1 }),
   (0x240041462000, .cpw { a := 4, b := 5, c := 6, p := 1 }),
   (0x250041462410, .cpred { a := 4, b := 5, c := 6, p := 1, fn := 130 }),
   (0x260041462000, .cpfill { a := 4, b := 5, c := 6, p := 1 }),
   (0x280041462AAB, .maskq { a := 4, b := 5, c := 6, p := 1, fn := 341, sz := 3 }),
   (0x300000002003, .fence { p := 1, sz := 3 }), (0x310041402008, .flushsig { a := 4, b := 5, p := 1, fn := 1 }),
   (0x320041402000, .sigset { a := 4, b := 5, p := 1 }), (0x330C41402000, .sigw { d := 3, a := 4, b := 5, p := 1 }),
   (0x380C00002003, .epop { d := 3, p := 1, sz := 3 }),
   (0x3C0C41402003, .prld { d := 3, a := 4, b := 5, p := 1, sz := 3 }),
   (0x3D0041462003, .prst { a := 4, b := 5, c := 6, p := 1, sz := 3 }),
   (0x3E0C41402000, .winrd { d := 3, a := 4, b := 5, p := 1 }),
   (0x3F0041462000, .winwr { a := 4, b := 5, c := 6, p := 1 })]
/-- Opcodes of the X slot (R67), the fields placed as R39 gives them. -/
def wordsX1 : List (Nat × Instr) :=
  [(0x100C340401F, .send { a := 12, b := 13, p := 2, idx := 31 }), (0x3000000401F, .mbclr { p := 2, idx := 31 }),
   (0x1000C0004000, .gsig { a := 12, p := 2 }), (0x1100C3404000, .gwait { a := 12, b := 13, p := 2 }),
   (0x120CC3404000, .gpoll { d := 3, a := 12, b := 13, p := 2 }), (0x1300C0004000, .gread { a := 12, p := 2 })]

theorem test_decode_wordsS1 : decodes 192 wordsS1 = true := by decide +kernel
theorem test_decode_wordsS2 : decodes 192 wordsS2 = true := by decide +kernel
theorem test_decode_wordsS3 : decodes 192 wordsS3 = true := by decide +kernel
theorem test_decode_wordsV1 : decodes 144 wordsV1 = true := by decide +kernel
theorem test_decode_wordsV2 : decodes 144 wordsV2 = true := by decide +kernel
theorem test_decode_wordsV3 : decodes 144 wordsV3 = true := by decide +kernel
theorem test_decode_wordsM1 : decodes 96 wordsM1 = true := by decide +kernel
theorem test_decode_wordsL1 : decodes 48 wordsL1 = true := by decide +kernel
theorem test_decode_wordsL2 : decodes 48 wordsL2 = true := by decide +kernel
theorem test_decode_wordsX1 : decodes 0 wordsX1 = true := by decide +kernel

theorem meets_ScalarOperationsGiveTheirValues :
  (let s : State := w1; let o : AOp := oa; predOn (curTh s) o.p = true) := by decide +kernel

theorem meets_CountsAndSaturatingSums :
  (let s : State := w1; let o : AOp := oa; predOn (curTh s) o.p = true ∧ o.fn % 2 = 0)
  ∧ (let s : State := w1; let o : AOp := ob; predOn (curTh s) o.p = true ∧ o.fn % 2 = 1) := by
  and_intros <;> decide +kernel

theorem meets_DivisionGivesTruncatedQuotients :
  (let s : State := w1; let o : AOp := oa; predOn (curTh s) o.p = true) := by decide +kernel

theorem meets_ImmediatesFieldsAndHash :
  (let o : IOp := { d := 4, a := 1, imm := 63 : IOp }; o.imm < 2 ^ 28 ∧ o.imm < 64)
  ∧ (let o : KOp := { d := 4, imm := 2 ^ 30 - 1 : KOp }; o.imm < 2 ^ 34 ∧ o.imm < 2 ^ 30)
  ∧ (let s : State := w1; let o : AOp := oa; predOn (curTh s) o.p = true)
  ∧ (let o : IOp := { d := 4, a := 1, imm := 2 ^ 28 - 1 : IOp }; 64 ≤ o.imm)
  ∧ (let o : KOp := { d := 4, imm := 2 ^ 34 - 1 : KOp }; 2 ^ 30 ≤ o.imm)
  ∧ (let o : AOp := oa; (o.b ≠ 0 ∨ o.c ≠ 0))
  ∧ (let o : AOp := ob; 4096 ≤ o.fn ∧ (o.c ≠ 0 ∨ o.fn ≠ 0)) := by
  and_intros <;> decide +kernel

theorem meets_ControlRegisterMoves :
  (let o : IOp := { : IOp }; o.imm = 0)
  ∧ (let o : IOp := { imm := 1 : IOp }; o.imm = 1)
  ∧ (let o : IOp := { imm := 2 : IOp }; o.imm = 2)
  ∧ (let o : IOp := { imm := 3 : IOp }; o.imm = 3)
  ∧ (let o : IOp := { imm := 4 : IOp }; o.imm = 4)
  ∧ (let o : IOp := { imm := 5 : IOp }; o.imm = 5)
  ∧ (let o : IOp := { imm := 6 : IOp }; o.imm = 6)
  ∧ (let o : IOp := { imm := 7 : IOp }; o.imm = 7)
  ∧ (let o : IOp := { imm := 8 : IOp }; o.imm = 8)
  ∧ (let o : IOp := { imm := 9 : IOp }; o.imm = 9)
  ∧ (let o : IOp := { imm := 10 : IOp }; o.imm = 10)
  ∧ (let o : IOp := { imm := 11 : IOp }; o.imm = 11)
  ∧ (let o : IOp := { imm := 12 : IOp }; o.imm = 12) := by
  and_intros <;> decide +kernel

theorem meets_ScalarResultLands :
  (let s : State := w1; let t : Nat := 31; t ≠ s.cur)
  ∧ (let s : State := w1; let d : Nat := 31; let lat : Nat := 31; 0 < d ∧ d < 32
    ∧ (∀ (p : Pend), p ∈ (curTh s).pend → p.due < s.mer + 8 * lat))
  ∧ (let th : Thread := aThread; let c : Nat := 31; (∀ (p : Pend), p ∈ th.pend → c < p.due))
  ∧ (let s : State := w1; let lat : Nat := 1; (∀ (p : Pend), p ∈ (curTh s).pend → p.due < s.mer + 8 * lat))
  ∧ (let i : Nat := 7; let k : Nat := 15; i ≠ 0 ∧ k < 16)
  ∧ (let th : Thread := { aThread with fst := 0x1F : Thread }; let k : Nat := 4;
    (∀ (p : Pend), p ∈ th.pend → p.dest ≠ .fst ∧ p.dest ≠ .fstOr) ∧ th.fst.getLsbD k = true) := by
  and_intros <;> decide +kernel

theorem meets_PredicatedOffHasNoEffect :
  (let i : Instr := Instr.add { p := 1 : AOp }; let p : Nat := 1; let s : State := w3; governedBy i = some p
    ∧ predOn (curTh s) p = false) := by decide +kernel

theorem meets_Branches :
  (let s : State := w1; let o : JOp := { a := 1, off := 4 : JOp }; let n : Nat := 7; let a : Word := rdS (curTh s) o.a;
    ((↑n : Int) = (↑(curTh s).pc : Int) + if o.off < 2 ^ 23 then (↑o.off : Int) else (↑o.off : Int) - 2 ^ 24)
    ∧ o.off < 2 ^ 24 ∧ n < (getLaunch s (curTh s).lid).klen ∧ a ≠ 0 ∧ 0 ≤ BitVec.toInt a)
  ∧ (let s : State := w1; let o : JOp := { off := 4 : JOp }; let n : Nat := 7; let a : Word := rdS (curTh s) o.a;
    ((↑n : Int) = (↑(curTh s).pc : Int) + if o.off < 2 ^ 23 then (↑o.off : Int) else (↑o.off : Int) - 2 ^ 24)
    ∧ o.off < 2 ^ 24 ∧ n < (getLaunch s (curTh s).lid).klen ∧ a = 0)
  ∧ (let s : State := w1; let o : JOp := { a := 2, off := 2 ^ 24 - 3 : JOp }; let n : Nat := 0;
    let a : Word := rdS (curTh s) o.a;
    ((↑n : Int) = (↑(curTh s).pc : Int) + if o.off < 2 ^ 23 then (↑o.off : Int) else (↑o.off : Int) - 2 ^ 24)
    ∧ o.off < 2 ^ 24 ∧ n < (getLaunch s (curTh s).lid).klen ∧ BitVec.toInt a < 0)
  ∧ (let s : State := w2; let o : JOp := { a := 1, off := 4 : JOp }; let n : Nat := 7;
    ((↑n : Int) = (↑(curTh s).pc : Int) + if o.off < 2 ^ 23 then (↑o.off : Int) else (↑o.off : Int) - 2 ^ 24)
    ∧ o.off < 2 ^ 24 ∧ n < (getLaunch s (curTh s).lid).klen ∧ (curTh s).lc - 1 ≠ 0)
  ∧ (let s : State := w1; let o : AOp := { a := 1 : AOp }; predOn (curTh s) o.p = true
    ∧ BitVec.toNat (rdS (curTh s) o.a) ≤ (getLaunch s (curTh s).lid).klen
    ∧ BitVec.toNat (rdS (curTh s) 31) ≤ (getLaunch s (curTh s).lid).klen)
  ∧ (let s : State := w1; let o : JOp := { a := 1, off := 4 : JOp }; let a : Word := rdS (curTh s) o.a; a ≠ 0
    ∧ 0 ≤ BitVec.toInt a)
  ∧ (let s : State := w1; let o : JOp := { off := 4 : JOp }; let a : Word := rdS (curTh s) o.a; a = 0)
  ∧ (let s : State := w1; let o : JOp := { a := 2, off := 2 ^ 24 - 3 : JOp }; let a : Word := rdS (curTh s) o.a;
    BitVec.toInt a < 0)
  ∧ (let s : State := w1; (curTh s).lc = 1)
  ∧ (let s : State := w1; let o : JOp := { a := 2, off := 2 ^ 24 - 4 : JOp }; let tgt : Int := -1;
    (tgt = (↑(curTh s).pc : Int) + if o.off < 2 ^ 23 then (↑o.off : Int) else (↑o.off : Int) - 2 ^ 24) ∧ o.off < 2 ^ 24
    ∧ (tgt < 0 ∨ (↑(getLaunch s (curTh s).lid).klen : Int) ≤ tgt))
  ∧ (let s : State := w1; let o : JOp := { off := 2 ^ 24 - 4 : JOp }; let tgt : Int := -1; let a : Word := rdS (curTh s) o.a;
    (tgt = (↑(curTh s).pc : Int) + if o.off < 2 ^ 23 then (↑o.off : Int) else (↑o.off : Int) - 2 ^ 24) ∧ o.off < 2 ^ 24
    ∧ (tgt < 0 ∨ (↑(getLaunch s (curTh s).lid).klen : Int) ≤ tgt) ∧ a = 0 ∧ 0 ≤ a.toInt)
  ∧ (let s : State := w2; let o : JOp := { a := 2, off := 13 : JOp }; let tgt : Int := 16; let a : Word := rdS (curTh s) o.a;
    (tgt = (↑(curTh s).pc : Int) + if o.off < 2 ^ 23 then (↑o.off : Int) else (↑o.off : Int) - 2 ^ 24) ∧ o.off < 2 ^ 24
    ∧ (tgt < 0 ∨ (↑(getLaunch s (curTh s).lid).klen : Int) ≤ tgt) ∧ a ≠ 0 ∧ a.toInt < 0 ∧ (curTh s).lc - 1 ≠ 0)
  ∧ (let s : State := w3; let o : AOp := { a := 1 : AOp }; let k : Nat := (getLaunch s (curTh s).lid).klen;
    predOn (curTh s) o.p = true ∧ k < (rdS (curTh s) o.a).toNat)
  ∧ (let s : State := aState { aThread with sreg := [(31, 17)] }; let o : AOp := { : AOp };
    let k : Nat := (getLaunch s (curTh s).lid).klen; predOn (curTh s) o.p = true ∧ k < (rdS (curTh s) 31).toNat) := by
  and_intros <;> decide +kernel

theorem meets_ThreadControlAndTiles :
  (let o : IOp := { : IOp }; o.imm % 16 = 0)
  ∧ (let s : State := w1; let o : IOp := { imm := 14 : IOp }; o.imm % 16 ≠ 0
    ∧ maskHas (getLaunch s (curTh s).lid).syncmask (o.imm % 16) = true)
  ∧ (let s : State := w1; let o : IOp := { imm := 15 : IOp }; o.imm % 16 ≠ 0
    ∧ maskHas (getLaunch s (curTh s).lid).syncmask (o.imm % 16) = false)
  ∧ (let s : State := w1; let o : AOp := { a := 2 : AOp }; let n : Nat := BitVec.toNat (rdS (curTh s) o.a);
    predOn (curTh s) o.p = true ∧ s.mer + 8 < n)
  ∧ (let s : State := w1; let o : AOp := { a := 1 : AOp }; let n : Nat := BitVec.toNat (rdS (curTh s) o.a);
    predOn (curTh s) o.p = true ∧ n ≤ s.mer + 8 ∧ (curTh s).stub = false ∧ (curTh s).cursor < (curTh s).sliceEnd)
  ∧ (let s : State := w2; let o : AOp := { a := 1 : AOp }; predOn (curTh s) o.p = true ∧ (curTh s).stub = true)
  ∧ (let s : State := w3; let o : AOp := { a := 1 : AOp }; predOn (curTh s) o.p = true ∧ (curTh s).sliceEnd ≤ (curTh s).cursor) := by
  and_intros <;> decide +kernel

theorem meets_TakingExceptions :
  (let s : State := w1; let th : Thread := curTh s; (curTh s).trapNow = none ∧ s.cur < 2 ^ 14 ∧ brkArmed s s.cur = false
    ∧ th.br = none)
  ∧ (let s : State := w4; (curTh s).trapNow = none ∧ brkArmed s s.cur = true)
  ∧ (let e : Trap := { code := 3, addr := 5 : Trap }; e.code ≠ 32)
  ∧ (let s : State := w1; let u : Nat := 5; u ≠ s.cur)
  ∧ (let s : State := w5; let th : Thread := curTh s; th.br = some { tgt := 3, left := 1, rot := none : Branch }) := by
  and_intros <;> decide +kernel

theorem meets_VectorIntegerLanes :
  (let o : VOp := vo 7; o.ty < 8) := by decide +kernel

theorem meets_VectorFloatingAndWideningLanes :
  (let o : VOp := vo 8; 8 ≤ o.ty ∧ o.ty ≤ 10)
  ∧ (let o : VOp := vf 2 8; let w : Nat := tyWidth o.ty; o.ty < 8 ∧ w ≤ 32)
  ∧ (let o : VOp := vo 10; (o.ty = 9 ∨ o.ty = 10))
  ∧ (let o : VOp := vf 0 0; (o.ty = 0 ∨ o.ty = 4))
  ∧ (let o : VOp := vf 9 8; let w : Nat := tyWidth o.ty; let ws : Nat := tyWidth o.fn; 2 * w = ws)
  ∧ (let o : VOp := vf 8 9; let w : Nat := tyWidth o.ty; let ws : Nat := tyWidth o.fn; w = 2 * ws) := by
  and_intros <;> decide +kernel

theorem meets_RoundingAndNaNs :
  (let f : Fmt := f32; let x : Nat := 2143289344; let y : Nat := 2143289344; (f = f32 ∨ f = bf16 ∨ f = f16)
    ∧ (isNaN f x = true ∨ isNaN f y = true))
  ∧ (let f : Fmt := f32; let x : Nat := 2143289344; (f = f32 ∨ f = bf16 ∨ f = f16) ∧ isNaN f x = true) := by
  and_intros <;> decide +kernel

theorem meets_PredicateResultsAndMoves :
  (let o : VOp := vo 7; o.ty < 8)
  ∧ (let o : VOp := vo 10; 8 ≤ o.ty ∧ o.ty ≤ 10) := by
  and_intros <;> decide +kernel

theorem meets_ReductionsAndFind :
  (let o : VOp := vo 7; o.ty < 8)
  ∧ (let o : VOp := vo 10; 8 ≤ o.ty ∧ o.ty ≤ 10)
  ∧ (let s : State := v1; let o : VOp := vo 10; let w : Nat := tyWidth o.ty; let pr : Nat := (rdP (curTh s) o.p).toNat;
    let x : Nat → Nat := fun k => laneAt w (vopA (curTh s) o).toNat k; let f : Fmt := fmtOf o.ty;
    let u : Nat → Nat × Nat := fun k => (if laneOn w pr k then x k else signW f, 0);
    let y : Nat → Nat × Nat := fun k => Nat.rec (u 0) (fun i z => nodeAddF f z (u (i + 1))) k;
    8 ≤ o.ty ∧ o.ty ≤ 10 ∧ y 0 = u 0 ∧ ∀ k, y (k + 1) = nodeAddF f (y k) (u (k + 1))) := by
  and_intros <;> first | decide +kernel | exact fun _ => rfl

theorem meets_VectorResultLands :
  (let s : State := v1; let d : Nat := 47; let lat : Nat := 47; let k : Nat := 47; k < 512
    ∧ (∀ (p : Pend), p ∈ (curTh s).pend → p.due < s.mer + 8 * lat ∧ p.dest ≠ Dest.v (physV (curTh s).rrb d))) := by decide +kernel

theorem meets_MatrixInstructionsIssue :
  (let s : State := m1; let o : MOp := moOdd;
    let c : MKind → MCmd := fun k => { id := 0, kind := k, acc := o.acc, m0 := 0, last := 0, f := 0 : MCmd };
    let th : Thread := curTh s; let a : Nat := BitVec.toNat (rdS th o.a) % 2 ^ 32; a % 64 ≠ 0
    ∧ canQueue s ({ c MKind.mhad with fn := o.fn % 64 })
    ∧ canQueue s (c MKind.mzero)
    ∧ canQueue s ({ c MKind.mdrainv with fn := o.fn, phys := physV th.rrb o.a, row := BitVec.toNat (rdS th o.b) % 32 }))
  ∧ (let s : State := m1; let o : MOp := mo; let th : Thread := curTh s;
    let c : MKind → MCmd := fun k => { id := 0, kind := k, acc := o.acc, m0 := 0, last := 0, f := 0 : MCmd };
    let at_ : MKind → MCmd := fun k => { c k with addrA := BitVec.toNat (rdS th o.a), srcA := o.sa };
    let mm : Bool → Bool → MCmd := fun zero sparse => { c (MKind.mma zero sparse) with addrA := BitVec.toNat (rdS th o.a), addrB := BitVec.toNat (rdS th o.b), nb := BitVec.toNat (rdS th o.n), srcA := o.sa, srcB := o.sb, tb := o.fl % 2 == 1 };
    canQueue s (mm false false) ∧ canQueue s (mm true false) ∧ canQueue s (mm false true) ∧ canQueue s (mm true true)
    ∧ canQueue s ({ at_ MKind.mdrain with fn := o.fn })
    ∧ canQueue s (at_ MKind.mldacc) ∧ canQueue s (at_ MKind.mstacc))
  ∧ (let s : State := m1; let o : MOp := moLine; let th : Thread := curTh s; let a : Nat := BitVec.toNat (rdS th o.a) % 2 ^ 32;
    let b : Nat := BitVec.toNat (rdS th o.b) % 2 ^ 32; let m : Nat := BitVec.toNat (rdS th o.n) % 2 ^ 32; a % 64 = 0
    ∧ b % 64 = 0 ∧ m % 64 = 0)
  ∧ (let s : State := m1; let o : MOp := mo; let u : Nat := 5; let th : Thread := curTh s;
    let c : MKind → MCmd := fun k => { id := 0, kind := k, acc := o.acc, m0 := 0, last := 0, f := 0 : MCmd };
    let mm : Bool → Bool → MCmd := fun zero sparse => { c (MKind.mma zero sparse) with addrA := BitVec.toNat (rdS th o.a), addrB := BitVec.toNat (rdS th o.b), nb := BitVec.toNat (rdS th o.n), srcA := o.sa, srcB := o.sb, tb := o.fl % 2 == 1 };
    canQueue s (mm false false) ∧ u ≠ s.cur ∧ canQueue s (mm true false) ∧ canQueue s (mm false true)
    ∧ canQueue s (mm true true))
  ∧ (let s : State := m1; let o : MOp := moOdd; let u : Nat := 5; let th : Thread := curTh s;
    let c : MKind → MCmd := fun k => { id := 0, kind := k, acc := o.acc, m0 := 0, last := 0, f := 0 : MCmd };
    canQueue s ({ c MKind.mhad with fn := o.fn % 64 })
    ∧ u ≠ s.cur ∧ canQueue s (c MKind.mzero)
    ∧ canQueue s ({ c MKind.mdrainv with fn := o.fn, phys := physV th.rrb o.a, row := BitVec.toNat (rdS th o.b) % 32 }))
  ∧ (let s : State := m1; let o : MOp := moLine; let u : Nat := 5; let th : Thread := curTh s;
    let c : MKind → MCmd := fun k => { id := 0, kind := k, acc := o.acc, m0 := 0, last := 0, f := 0 : MCmd };
    let at_ : MKind → MCmd := fun k => { c k with addrA := BitVec.toNat (rdS th o.a), srcA := o.sa };
    canQueue s ({ at_ MKind.mdrain with fn := o.fn })
    ∧ u ≠ s.cur ∧ canQueue s (at_ MKind.mldacc) ∧ canQueue s (at_ MKind.mstacc))
  ∧ (let s : State := m1; let o : MOp := moOddB; let th : Thread := curTh s; let a : Nat := BitVec.toNat (rdS th o.a) % 2 ^ 32;
    let b : Nat := BitVec.toNat (rdS th o.b) % 2 ^ 32; a % 64 = 0 ∧ b % 64 ≠ 0)
  ∧ (let s : State := m1; let o : MOp := mo; let th : Thread := curTh s; let a : Nat := BitVec.toNat (rdS th o.a) % 2 ^ 32;
    let b : Nat := BitVec.toNat (rdS th o.b) % 2 ^ 32; let m : Nat := BitVec.toNat (rdS th o.n) % 2 ^ 32; a % 64 = 0
    ∧ b % 64 = 0 ∧ m % 64 ≠ 0) := by
  and_intros <;> decide +kernel

theorem meets_IssueChecksTakeFaults :
  (let s : State := m1; let o : MOp := moMany; let n : Nat := BitVec.toNat (rdS (curTh s) o.n);
    let free : Prop := (List.filter (fun q => decide (s.mer < q.f)) (curTh s).mq).length < 4; free ∧ (n = 0 ∨ 256 < n))
  ∧ (let s : State := m1; let o : MOp := moOdd;
    let free : Prop := (List.filter (fun q => decide (s.mer < q.f)) (curTh s).mq).length < 4; free
    ∧ BitVec.toNat (rdS (curTh s) o.a) % 64 ≠ 0)
  ∧ (let s : State := mq4; let free : Prop := (List.filter (fun q => decide (s.mer < q.f)) (curTh s).mq).length < 4; (¬free))
  ∧ (let n : Nat := 8; let a : Int := 4; a % (↑n : Int) ≠ 0)
  ∧ (let s : State := m1; let t : Nat := 0; let n : Nat := 8; let a : Int := 131072; let vf : Nat := (getTh s t).vf;
    let size : Nat := localSize s vf; a % (↑n : Int) = 0 ∧ (a < 0 ∨ (↑size : Int) < a + (↑n : Int))) := by
  and_intros <;> decide +kernel

theorem meets_LoadsAndStores :
  (let s : State := l1; let o : LIOp := li 1 32696 3; let th : Thread := curTh s;
    let ea : Int := BitVec.toInt (rdS th o.a) + simm 25 o.imm; let n : Nat := if o.sz = 4 then 64 else 2 ^ o.sz;
    let acc : Nat → Access0 := fun m => { n := m, die := dieOf s.cur, core := coreOf s.cur, cycle := s.mer, wr := true : Access0 };
    let loc : Nat → Access0 := fun m => { n := m, die := dieOf s.cur, core := coreOf s.cur, cycle := s.mer, rd := true : Access0 };
    checkAcc s s.cur (loc n) (↑(localSize s th.vf) : Int) [(0, ea)] = none ∧ checkWeight s s.cur n ea = none
    ∧ checkAcc s s.cur (acc n) (↑(localSize s th.vf) : Int) [(0, ea)] = none)
  ∧ (let s : State := l1; let o : LIOp := li 1 32640 4; let th : Thread := curTh s;
    let ea : Int := BitVec.toInt (rdS th o.a) + simm 25 o.imm;
    let acc : Nat → Access0 := fun m => { n := m, die := dieOf s.cur, core := coreOf s.cur, cycle := s.mer, wr := true : Access0 };
    let loc : Nat → Access0 := fun m => { n := m, die := dieOf s.cur, core := coreOf s.cur, cycle := s.mer, rd := true : Access0 };
    checkAcc s s.cur (loc 64) (↑(localSize s th.vf) : Int) [(0, ea)] = none ∧ checkWeight s s.cur 64 ea = none
    ∧ checkAcc s s.cur (acc 64) (↑(localSize s th.vf) : Int) [(0, ea)] = none)
  ∧ (let s : State := l1; let o : LAOp := lof 1 3 0 0 0; let th : Thread := curTh s; let a : Nat := BitVec.toNat (rdS th o.a);
    let y : Access0 := { n := 8, die := dieOf s.cur, core := coreOf s.cur, cycle := s.mer : Access0 };
    let n : Nat := if o.sz = 4 then 64 else 2 ^ o.sz;
    let x : Access0 := { n := n, die := dieOf s.cur, core := coreOf s.cur, cycle := s.mer, wr := true : Access0 };
    let x : Access0 := { n := n, die := dieOf s.cur, core := coreOf s.cur, cycle := s.mer, rd := true : Access0 };
    o.sz ≤ 3
    ∧ checkAcc s s.cur x (↑(localSize s th.vf) : Int) (laneAddrs th o fun k => BitVec.toInt (rdS th o.a) + (↑k : Int) * BitVec.toInt (rdS th o.b)) = none
    ∧ checkAcc s s.cur x (↑(localSize s th.vf) : Int) (laneAddrs th o fun k => BitVec.toInt (rdS th o.a) + (↑(n * laneAt (8 * n) (BitVec.toNat (rdV th o.b)) k) : Int)) = none
    ∧ predOn th o.p = true ∧ checkAcc s s.cur y (↑(localSize s th.vf) : Int) [(0, (↑a : Int))] = none) := by
  and_intros <;> decide +kernel

theorem meets_StoreThenReadBack :
  (let s : State := l1; let o : LIOp := li 1 32696 3; let th : Thread := curTh s;
    let ea : Int := BitVec.toInt (rdS th o.a) + simm 25 o.imm; let n : Nat := 2 ^ o.sz;
    let w : Nat := localWord s th.vf (dieOf s.cur) (coreOf s.cur) (ea.toNat / 8);
    let x : Access0 := { n := n, die := dieOf s.cur, core := coreOf s.cur, cycle := s.mer, wr := true : Access0 };
    Machine.Inv s ∧ o.sz ≤ 3 ∧ checkAcc s s.cur x (↑(localSize s th.vf) : Int) [(0, ea)] = none
    ∧ (∀ (a : WAct), a ∈ s.wacts → a.word = w → s.mer < a.at_))
  ∧ (let s : State := l1; let o : LIOp := li 1 32696 3; let a : Nat := 5; let th : Thread := curTh s;
    let ea : Int := BitVec.toInt (rdS th o.a) + simm 25 o.imm; let n : Nat := 2 ^ o.sz;
    let w : Nat := localWord s th.vf (dieOf s.cur) (coreOf s.cur) (ea.toNat / 8);
    let x : Access0 := { n := n, die := dieOf s.cur, core := coreOf s.cur, cycle := s.mer, wr := true : Access0 };
    Machine.Inv s ∧ o.sz ≤ 3 ∧ checkAcc s s.cur x (↑(localSize s th.vf) : Int) [(0, ea)] = none
    ∧ (∀ (a : WAct), a ∈ s.wacts → a.word = w → s.mer < a.at_)
    ∧ (a < localAddr s th.vf (dieOf s.cur) (coreOf s.cur) ea.toNat ∨ localAddr s th.vf (dieOf s.cur) (coreOf s.cur) ea.toNat + n ≤ a)) := by
  and_intros <;> decide +kernel

theorem meets_PeerAccessesLeave :
  (let s : State := l1; let o : LIOp := li 1 0 3; let th : Thread := curTh s;
    let ea : Int := BitVec.toInt (rdS th o.a) + simm 25 o.imm; let n : Nat := if o.sz = 4 then 64 else 2 ^ o.sz;
    let core : Nat := coreOf s.cur / 4 * 4 + ea.toNat / 2 ^ 18 % 4;
    let acc : Nat → Bool → Access0 := fun m wr => { n := m, die := dieOf s.cur, core := core, cycle := s.mer + 4, rd := !wr, wr := wr, poisonNow := false : Access0 };
    checkAcc s s.cur (acc n false) (2 ^ 20) [(0, ea)] = none ∧ checkAcc s s.cur (acc 64 false) (2 ^ 20) [(0, ea)] = none
    ∧ checkAcc s s.cur (acc n true) (2 ^ 20) [(0, ea)] = none) := by decide +kernel

theorem meets_AtomicsAndFullEmptyWords :
  (let s : State := l1; let o : LAOp := lo 1 2 0; let th : Thread := curTh s;
    let n : Nat := if o.sz = 4 then 64 else 2 ^ o.sz; let w : Nat := 8 * n; let a : Nat := BitVec.toNat (rdS th o.a);
    let w : Nat := localWord s th.vf (dieOf s.cur) (coreOf s.cur) (a / 8); let empty : Bool := mapGet false s.empties w;
    let q : List Waiter := mapGet [] s.feq w;
    let x : Bool → Access0 := fun rd => { n := 8, die := dieOf s.cur, core := coreOf s.cur, cycle := s.mer, rmw := true, rd := rd, wr := true, exempt := true : Access0 };
    let ok : Bool → Prop := fun rd => checkAcc s s.cur (x rd) (↑(localSize s th.vf) : Int) [(0, (↑a : Int))] = none;
    let old : Nat := rdLocal s th.vf (dieOf s.cur) (coreOf s.cur) a n; let b : Nat := BitVec.toNat (rdS th o.b) % 2 ^ w;
    let c : Nat := BitVec.toNat (rdS th o.c) % 2 ^ w;
    let x : Access0 := { n := n, die := dieOf s.cur, core := coreOf s.cur, cycle := s.mer, rmw := true, rd := true, wr := true, exempt := true : Access0 };
    let less : Nat → Nat → Prop := fun u v => if o.fn % 2 = 1 then u < v else intVal true w u < intVal true w v;
    predOn (curTh s) o.p = true ∧ checkAcc s s.cur x (↑(localSize s th.vf) : Int) [(0, (↑a : Int))] = none ∧ old = c
    ∧ less b old ∧ (¬less old b) ∧ ok true ∧ empty = false ∧ q = [] ∧ ok false)
  ∧ (let s : State := l1; let o : LAOp := lo 1 3 1; let th : Thread := curTh s;
    let n : Nat := if o.sz = 4 then 64 else 2 ^ o.sz; let w : Nat := 8 * n; let a : Nat := BitVec.toNat (rdS th o.a);
    let old : Nat := rdLocal s th.vf (dieOf s.cur) (coreOf s.cur) a n; let b : Nat := BitVec.toNat (rdS th o.b) % 2 ^ w;
    let c : Nat := BitVec.toNat (rdS th o.c) % 2 ^ w;
    let x : Access0 := { n := n, die := dieOf s.cur, core := coreOf s.cur, cycle := s.mer, rmw := true, rd := true, wr := true, exempt := true : Access0 };
    let less : Nat → Nat → Prop := fun u v => if o.fn % 2 = 1 then u < v else intVal true w u < intVal true w v;
    predOn (curTh s) o.p = true ∧ checkAcc s s.cur x (↑(localSize s th.vf) : Int) [(0, (↑a : Int))] = none ∧ old ≠ c
    ∧ (¬less b old) ∧ less old b)
  ∧ (let s : State := lq; let o : LAOp := lo 1 2 0; let th : Thread := curTh s; let a : Nat := BitVec.toNat (rdS th o.a);
    let w : Nat := localWord s th.vf (dieOf s.cur) (coreOf s.cur) (a / 8); let empty : Bool := mapGet false s.empties w;
    let q : List Waiter := mapGet [] s.feq w;
    let x : Bool → Access0 := fun rd => { n := 8, die := dieOf s.cur, core := coreOf s.cur, cycle := s.mer, rmw := true, rd := rd, wr := true, exempt := true : Access0 };
    let ok : Bool → Prop := fun rd => checkAcc s s.cur (x rd) (↑(localSize s th.vf) : Int) [(0, (↑a : Int))] = none;
    predOn (curTh s) o.p = true ∧ ok true ∧ empty = false ∧ q = [putter] ∧ ok false)
  ∧ (let s : State := le; let o : LAOp := lo 1 2 0; let th : Thread := curTh s; let a : Nat := BitVec.toNat (rdS th o.a);
    let w : Nat := localWord s th.vf (dieOf s.cur) (coreOf s.cur) (a / 8); let empty : Bool := mapGet false s.empties w;
    let q : List Waiter := mapGet [] s.feq w;
    let x : Bool → Access0 := fun rd => { n := 8, die := dieOf s.cur, core := coreOf s.cur, cycle := s.mer, rmw := true, rd := rd, wr := true, exempt := true : Access0 };
    let ok : Bool → Prop := fun rd => checkAcc s s.cur (x rd) (↑(localSize s th.vf) : Int) [(0, (↑a : Int))] = none;
    predOn (curTh s) o.p = true ∧ ok false ∧ empty = true ∧ q = [])
  ∧ (let s : State := leq; let o : LAOp := lo 1 2 0; let th : Thread := curTh s; let a : Nat := BitVec.toNat (rdS th o.a);
    let w : Nat := localWord s th.vf (dieOf s.cur) (coreOf s.cur) (a / 8); let empty : Bool := mapGet false s.empties w;
    let q : List Waiter := mapGet [] s.feq w;
    let x : Bool → Access0 := fun rd => { n := 8, die := dieOf s.cur, core := coreOf s.cur, cycle := s.mer, rmw := true, rd := rd, wr := true, exempt := true : Access0 };
    let ok : Bool → Prop := fun rd => checkAcc s s.cur (x rd) (↑(localSize s th.vf) : Int) [(0, (↑a : Int))] = none;
    predOn (curTh s) o.p = true ∧ ok false ∧ empty = true ∧ q = [taker]) := by
  and_intros <;> decide +kernel

theorem meets_CopiesAndPromises :
  (let s : State := l1; let o : LAOp := lo 1 4 1; let th : Thread := curTh s; let a : Nat := BitVec.toNat (rdS th o.a);
    let b : Nat := BitVec.toNat (rdS th o.b); let n : Nat := BitVec.toNat (rdS th o.c);
    let row : List Row := [{ loc := (↑a : Int), dva := b, len := n : Row }];
    let fits : Prop := a % 8 = 0 ∧ b % 8 = 0 ∧ n % 8 = 0 ∧ n ≤ 2 ^ 24 ∧ a + n ≤ localSize s th.vf;
    predOn (curTh s) o.p = true ∧ copyParks s s.cur = [] ∧ fits ∧ raceRows s true (rowWords row) = none
    ∧ raceRows s false (rowWords row) = none ∧ b % 8 = 0 ∧ n % 8 = 0 ∧ n ≤ 2 ^ 24 ∧ (getLaunch s th.lid).wload = true
    ∧ a % 8 = 0 ∧ a + n ≤ weightSize s th.vf (dieOf s.cur))
  ∧ (let s : State := ldesc; let o : LAOp := lo 1 4 5; let th : Thread := curTh s; let a : Nat := BitVec.toNat (rdS th o.a);
    let b : Nat := BitVec.toNat (rdS th o.b); let c : Nat := BitVec.toNat (rdS th o.c);
    let x : Access0 := { n := 16, die := dieOf s.cur, core := coreOf s.cur, cycle := s.mer, rd := true : Access0 };
    let d : Nat := rdLocal s th.vf (dieOf s.cur) (coreOf s.cur) c 16; let nrow : Nat := d / 2 ^ 48 % 2 ^ 16;
    let len : Nat := d / 2 ^ 24 % 2 ^ 24; let ls : Nat := d % 2 ^ 24; let ds : Int := intVal true 64 (d / 2 ^ 64);
    let s0 : State := noteAcc s s.cur x c;
    let rows : List Row := List.map (fun i => { loc := (↑a : Int) + (↑(i * ls) : Int), dva := (((↑b : Int) + (↑i : Int) * ds) % 2 ^ 64).toNat, len := len : Row }) (List.range nrow);
    predOn (curTh s) o.p = true ∧ copyParks s s.cur = []
    ∧ checkAcc s s.cur x (↑(localSize s th.vf) : Int) [(0, (↑c : Int))] = none ∧ c % 16 = 0 ∧ c + 16 ≤ localSize s th.vf
    ∧ a % 8 = 0 ∧ b % 8 = 0 ∧ ls % 8 = 0 ∧ len % 8 = 0 ∧ ds % 8 = 0 ∧ 0 < nrow ∧ 0 < len ∧ nrow * len ≤ 2 ^ 24
    ∧ (∀ (r : Row), r ∈ rows → r.loc + (↑r.len : Int) ≤ (↑(localSize s th.vf) : Int))
    ∧ raceRows s0 true (rowWords rows) = none ∧ raceRows s0 false (rowWords rows) = none)
  ∧ (let s : State := l1; let vf : Nat := 4096; let sub : Nat := 4096; let r : Nat := 4096; let pages : List Nat := [4096];
    0 < r ∧ (∀ (g : Nat), g ∈ pages → scNow s vf sub g = false)
    ∧ (pages.filter fun g => remoteNow s vf sub g) = [])
  ∧ (let s : State := mapped { nearRange with sc := true }; ∃ g ∈ [4096], scNow s 1 0 g = true)
  ∧ (let s : State := mapped { nearRange with offset := 2 ^ 42 };
    ([4096].filter fun g => remoteNow s 1 0 g) ≠ [] ∧ 0 < linkRate s 1) := by
  and_intros <;> decide +kernel

theorem meets_EpopAndMaskq :
  (let s : State := lrep; let o : LAOp := lof 1 4 1 0 0; let l : List Reply := replyQ (curTh s) o.sz;
    predOn (curTh s) o.p = true
    ∧ List.find? (fun e => match e.avail with | some c => decide (c ≤ s.mer) | none => false) l = some { val := 9, avail := some 800 : Reply })
  ∧ (let s : State := l1; let o : LAOp := lof 1 4 1 0 0; let th : Thread := curTh s; let die : Nat := dieOf s.cur;
    let a : Nat := BitVec.toNat (rdS th o.a); let b : Nat := BitVec.toNat (rdS th o.b);
    let c : Nat := BitVec.toNat (rdS th o.c); let v : Nat := 64 * (o.fn * 8 + o.sz + 1);
    let rows : List Row := [{ loc := (↑a : Int), dva := 0, len := v / 8 + 16 : Row }];
    let l : List Reply := replyQ (curTh s) o.sz; predOn (curTh s) o.p = true
    ∧ (∀ (r : Reply), r ∈ l → ∀ (c : Nat), r.avail = some c → s.mer < c) ∧ (curTh s).e1.length < 8 ∧ a % 64 = 0
    ∧ b % 8 = 0 ∧ c % 64 = 0 ∧ v / 8 + 16 ≤ 2 ^ 24 ∧ a + v / 8 + 16 ≤ localSize s th.vf
    ∧ raceRows s true (rowWords rows) = none ∧ maskEngines s th.vf die = [])
  ∧ (let s : State := lmask; let o : LAOp := lof 1 4 1 0 0; let th : Thread := curTh s; let die : Nat := dieOf s.cur;
    let a : Nat := BitVec.toNat (rdS th o.a); let b : Nat := BitVec.toNat (rdS th o.b);
    let c : Nat := BitVec.toNat (rdS th o.c); let v : Nat := 64 * (o.fn * 8 + o.sz + 1);
    let rows : List Row := [{ loc := (↑a : Int), dva := 0, len := v / 8 + 16 : Row }]; predOn (curTh s) o.p = true
    ∧ (curTh s).e1.length < 8 ∧ a % 64 = 0 ∧ b % 8 = 0 ∧ c % 64 = 0 ∧ v / 8 + 16 ≤ 2 ^ 24
    ∧ a + v / 8 + 16 ≤ localSize s th.vf ∧ raceRows s true (rowWords rows) = none ∧ maskEngines s th.vf die ≠ []) := by
  and_intros <;> decide +kernel

theorem meets_OrderingInstructions :
  (let s : State := l1; let o : LAOp := lof 1 4 1 4 0; let th : Thread := curTh s; let a : Nat := BitVec.toNat (rdS th o.a);
    predOn (curTh s) o.p = true ∧ fenceOpen s s.cur (min o.sz 4) s.seq = false ∧ th.e2.length < 8
    ∧ (o.fn % 2 = 0 ∨ a % 8 = 0) ∧ a % 8 = 0)
  ∧ (let s : State := lopen; let o : LAOp := lof 1 4 1 4 0; predOn (curTh s) o.p = true
    ∧ fenceOpen s s.cur (min o.sz 4) s.seq = true)
  ∧ (let s : State := l1; let o : LAOp := lo 3 0 0; let th : Thread := curTh s; let a : Nat := BitVec.toNat (rdS th o.a);
    predOn (curTh s) o.p = true ∧ a % 8 ≠ 0)
  ∧ (let s : State := l1; let o : LAOp := lof 3 4 1 3 1; let th : Thread := curTh s; let a : Nat := BitVec.toNat (rdS th o.a);
    predOn (curTh s) o.p = true ∧ th.e2.length < 8 ∧ o.fn % 2 = 1 ∧ a % 8 ≠ 0)
  ∧ (let s : State := lFull; let o : LAOp := lof 1 4 1 3 1; let th : Thread := curTh s; predOn (curTh s) o.p = true
    ∧ 8 ≤ th.e2.length) := by
  and_intros <;> decide +kernel

theorem meets_PrivilegedInstructionsLeave :
  (let s : State := l1; let o : LAOp := lo 4 1 1; let th : Thread := curTh s; let a : Nat := BitVec.toNat (rdS th o.a);
    predOn (curTh s) o.p = true ∧ a % 8 = 0 ∧ a < 2 ^ 48 ∧ isRemote s a = false)
  ∧ (let s : State := l1; let o : LAOp := lo 6 1 1; let th : Thread := curTh s; let a : Nat := BitVec.toNat (rdS th o.a);
    predOn (curTh s) o.p = true ∧ a % 8 = 0 ∧ a / 2 ^ 62 = 1 ∧ a / 2 ^ 48 % 2 ^ 14 = 0
    ∧ (ctlStep (a % 2 ^ 48) (BitVec.toNat (rdS th o.b)) = some (if BitVec.toNat (rdS (curTh l1) (lo 6 1 1).b) / 2 ^ 12 % 2 = 1 then Instr.keyzFree else Instr.keyzZeroise, [BitVec.toNat (rdS (curTh l1) (lo 6 1 1).b) % 2 ^ 13], 1, 3072)))
  ∧ (let s : State := l1; let o : LAOp := lo 7 1 1; let th : Thread := curTh s; let a : Nat := BitVec.toNat (rdS th o.a);
    predOn (curTh s) o.p = true ∧ a % 8 = 0 ∧ a / 2 ^ 62 = 1 ∧ a / 2 ^ 48 % 2 ^ 14 = 0
    ∧ ctlStep (a % 2 ^ 48) (BitVec.toNat (rdS th o.b)) = none)
  ∧ (let s : State := l1; let o : LAOp := lo 3 1 1; let th : Thread := curTh s; let a : Nat := BitVec.toNat (rdS th o.a);
    predOn (curTh s) o.p = true ∧ a % 8 ≠ 0)
  ∧ (let s : State := l1; let o : LAOp := lo 11 1 1; let th : Thread := curTh s; let a : Nat := BitVec.toNat (rdS th o.a);
    predOn (curTh s) o.p = true ∧ a % 8 = 0 ∧ a < 2 ^ 48 ∧ isRemote s a = true)
  ∧ (let s : State := l1; let o : LAOp := lo 12 1 1; let th : Thread := curTh s; let a : Nat := BitVec.toNat (rdS th o.a);
    predOn (curTh s) o.p = true ∧ a % 8 = 0 ∧ (2 ≤ a / 2 ^ 62 ∨ a / 2 ^ 48 % 2 ^ 14 ≠ 0)) := by
  and_intros <;> decide +kernel

theorem meets_SendAndMbclr :
  (let s : State := l1; let o : XOp := xo 0 1; let th : Thread := curTh s; let a : Nat := BitVec.toNat (rdS th o.a);
    predOn (curTh s) o.p = true ∧ sendParks s s.cur a = false ∧ badTarget s th.vf a = false)
  ∧ (let s : State := l1; let o : XOp := xo 4 1; let th : Thread := curTh s; let a : Nat := BitVec.toNat (rdS th o.a);
    predOn (curTh s) o.p = true ∧ sendParks s s.cur a = false ∧ badTarget s th.vf a = true)
  ∧ (let s : State := l1; let o : XOp := xo 0 1; let t : Nat := 1; predOn (curTh s) o.p = true ∧ t ≠ s.cur) := by
  and_intros <;> decide +kernel

theorem meets_GateInstructionsAndHandles :
  (let s : State := lgate; let vf : Nat := 256; let h : Nat := 256; let right : Nat := 256;
    checkHandle s vf h right = some (gateTrap 11 256 (viewOf lgate 256 256)))
  ∧ (let s : State := lgate; let o : XOp := xo 8 3; let th : Thread := curTh s; let h : Nat := BitVec.toNat (rdS th o.a);
    let b : Nat := BitVec.toNat (rdS th o.b); let g : Nat := (viewOf s th.vf h).index;
    let m : Nat := mapGet 0 s.mirrors (dieOf s.cur * 4096 + g); predOn (curTh s) o.p = true
    ∧ checkHandle s th.vf h 0 = none ∧ checkHandle s th.vf h 1 = none ∧ b ≤ m ∧ checkHandle s th.vf h 2 = none
    ∧ th.e3.length < 8)
  ∧ (let s : State := lgate; let o : XOp := xo 8 9; let th : Thread := curTh s; let h : Nat := BitVec.toNat (rdS th o.a);
    let b : Nat := BitVec.toNat (rdS th o.b); let g : Nat := (viewOf s th.vf h).index;
    let m : Nat := mapGet 0 s.mirrors (dieOf s.cur * 4096 + g); predOn (curTh s) o.p = true
    ∧ checkHandle s th.vf h 1 = none ∧ m < b)
  ∧ (let s : State := lgate; let o : XOp := xo 3 3; let th : Thread := curTh s; let h : Nat := BitVec.toNat (rdS th o.a);
    predOn (curTh s) o.p = true
    ∧ checkHandle s th.vf h 0 = some (gateTrap 11 (BitVec.toNat (rdS (curTh lgate) (xo 3 3).a)) (viewOf lgate (curTh lgate).vf (BitVec.toNat (rdS (curTh lgate) (xo 3 3).a))))
    ∧ checkHandle s th.vf h 1 = some (gateTrap 11 (BitVec.toNat (rdS (curTh lgate) (xo 3 3).a)) (viewOf lgate (curTh lgate).vf (BitVec.toNat (rdS (curTh lgate) (xo 3 3).a))))) := by
  and_intros <;> decide +kernel

theorem meets_ThreadEventsTakeEffect :
  (let s : State := tSleep; let n : Nat := 800; let t : Nat := argN s 0; let th : Thread := getTh s t;
    th.st = ThreadSt.parked ∧ th.parks = [Park.sleep n] ∧ th.wasParked = [] ∧ th.exiting = false ∧ n ≤ s.mer)
  ∧ (let s : State := tSleep; let n : Nat := 800; let u : Nat := 5; let t : Nat := argN s 0; let th : Thread := getTh s t;
    th.st = ThreadSt.parked ∧ th.parks = [Park.sleep n] ∧ th.wasParked = [] ∧ th.exiting = false ∧ n ≤ s.mer ∧ u ≠ t)
  ∧ (let s : State := tSleep; let t : Nat := argN s 0; let th : Thread := getTh s t; th.exiting = false)
  ∧ (let s : State := tPeer 10; let id : Nat := 5; let u : Nat := 0; argN s 0 = id
    ∧ List.find? (fun e => e.fst == id) s.ops = some (id, peerOp 10) ∧ (peerOp 10).thread = some u ∧ (peerOp 10).opc = 10)
  ∧ (let s : State := tPeer 9; let id : Nat := 5; let u : Nat := 0; argN s 0 = id
    ∧ List.find? (fun e => e.fst == id) s.ops = some (id, peerOp 9) ∧ (peerOp 9).thread = some u ∧ (peerOp 9).opc ≠ 10
    ∧ (∀ (w : Nat), w ∈ localWords (peerOp 9).a (peerOp 9).size → poisoned s (localWord s (peerOp 9).vf (peerOp 9).die (peerOp 9).core w) = false))
  ∧ (let s : State := tPeerBad; let id : Nat := 5; let u : Nat := 0; argN s 0 = id
    ∧ List.find? (fun e => e.fst == id) s.ops = some (id, peerOp 9) ∧ (peerOp 9).thread = some u ∧ (peerOp 9).opc ≠ 10
    ∧ (getTh s u).exiting = false
    ∧ (∃ w, w ∈ localWords (peerOp 9).a (peerOp 9).size ∧ poisoned s (localWord s (peerOp 9).vf (peerOp 9).die (peerOp 9).core w) = true)) := by
  and_intros <;> decide +kernel

theorem meets_MatrixEventsTakeEffect :
  (let s : State := tMat MKind.mdrain; let q : MCmd := cmd MKind.mdrain; let t : Nat := argN s 0;
    findCmd s t (argN s 1) = some q ∧ q.kind = MKind.mdrain)
  ∧ (let s : State := tMat MKind.mstacc; let q : MCmd := cmd MKind.mstacc; let t : Nat := argN s 0;
    findCmd s t (argN s 1) = some q ∧ q.kind = MKind.mstacc)
  ∧ (let s : State := tMat (MKind.mma true false); let q : MCmd := cmd (MKind.mma true false); let t : Nat := argN s 0;
    findCmd s t (argN s 1) = some q ∧ q.kind = MKind.mma true false)
  ∧ (let s : State := tMat MKind.mzero; let q : MCmd := cmd MKind.mzero; let t : Nat := argN s 0; let th : Thread := getTh s t;
    findCmd s t (argN s 1) = some q ∧ q.kind ≠ MKind.mdrain ∧ q.kind ≠ MKind.mstacc
    ∧ (∀ (sp : Bool), q.kind ≠ MKind.mma true sp) ∧ th.exiting = false)
  ∧ (let s : State := tMat MKind.mzero; let q : MCmd := cmd MKind.mzero; let u : Nat := 5; let t : Nat := argN s 0;
    let th : Thread := getTh s t; findCmd s t (argN s 1) = some q ∧ th.exiting = false ∧ u ≠ t)
  ∧ (let s : State := tMat MKind.mzero; let t : Nat := 0; let q : MCmd := cmd MKind.mzero; let e : Nat := 0;
    getTh s t = getTh (tMat MKind.mzero) 0 ∧ e < 1024 ∧ q.kind = MKind.mzero)
  ∧ (let s : State := tMat MKind.mzero; let t : Nat := 0; let q : MCmd := cmd MKind.mldacc; let e : Nat := 0;
    getTh s t = getTh (tMat MKind.mzero) 0 ∧ e < 1024 ∧ q.kind = MKind.mldacc)
  ∧ (let s : State := tMat MKind.mzero; let t : Nat := 0; let q : MCmd := cmd (MKind.mma true false); let e : Nat := 0;
    getTh s t = getTh (tMat MKind.mzero) 0 ∧ e < 1024 ∧ q.kind = MKind.mma true false)
  ∧ (let s : State := tMat MKind.mzero; let t : Nat := 0; let e : Nat := 0; getTh s t = getTh (tMat MKind.mzero) 0 ∧ e < 1024)
  ∧ (let s : State := tMat MKind.mzero; let t : Nat := 0; let q : MCmd := cmd MKind.mzero; let acc : Nat := 0;
    let e : Nat := 0; getTh s t = getTh (tMat MKind.mzero) 0 ∧ e < 1024 ∧ acc ≠ q.acc)
  ∧ (let s : State := tMat MKind.mzero; let t : Nat := 0; let q : MCmd := cmd MKind.mdrain;
    getTh s t = getTh (tMat MKind.mzero) 0 ∧ (q.kind = MKind.mdrain ∨ q.kind = MKind.mdrainv ∨ q.kind = MKind.mstacc)) := by
  and_intros <;> decide +kernel

theorem meets_RequestEventsTakeEffect :
  (let s : State := rTrans; let id : Nat := argN s 0; let k : Nat := argN s 1; let o : Op := getOp s id;
    o.pages[k]? = some (page 4096 0) ∧ swapped s o = false ∧ (page 4096 0).pa = none
    ∧ translate s o.vf o.sub (page 4096 0).page (page 4096 0).acc = XRes.ok 4096 5 false ∧ noWay s o 4096 = false
    ∧ k + 1 = o.pages.length ∧ o.kind ≠ OpKind.sigw ∧ o.kind ≠ OpKind.nodeWait ∧ s.wacts = [] ∧ hasOp s id = true
    ∧ o.complete = false ∧ o.kind ≠ OpKind.nodeCopy
    ∧ (o.held.isSome = true ∨ (∃ g, g ∈ o.pages ∧ g.pa = none) ∨ ∃ p, p ∈ o.parts ∧ partDone s o p = false))
  ∧ (let s : State := rXlate; let id : Nat := argN s 0; let k : Nat := argN s 1; let o : Op := getOp s id;
    o.pages[k]? = some (page (2 ^ 30) 0) ∧ swapped s o = false ∧ (page (2 ^ 30) 0).pa = none
    ∧ translate s o.vf o.sub (page (2 ^ 30) 0).page (page (2 ^ 30) 0).acc = XRes.xlate)
  ∧ (let s : State := rPerm; let id : Nat := argN s 0; let k : Nat := argN s 1; let o : Op := getOp s id;
    o.pages[k]? = some (page (2 ^ 57) 0) ∧ swapped s o = false ∧ (page (2 ^ 57) 0).pa = none
    ∧ translate s o.vf o.sub (page (2 ^ 57) 0).page (page (2 ^ 57) 0).acc = XRes.perm 4)
  ∧ (let s : State := rRead; let id : Nat := argN s 0; let k : Nat := argN s 1; let o : Op := getOp s id; id ≠ 0
    ∧ swapped s o = false ∧ pageOf o (o.parts.getD k { : Part }).src 0 = some (known 4096 0)
    ∧ (o.parts.getD k { : Part }).got = false ∧ ((known 4096 0).sc && scBlocked s id) = false
    ∧ noWay s o (pagePa (known 4096 0) (o.parts.getD k { : Part }).src) = false
    ∧ readLine s (pagePa (known 4096 0) (o.parts.getD k { : Part }).src) (known 4096 0).key 8 = LineRes.ok 0 false)
  ∧ (let s : State := rDone; let id : Nat := argN s 0; let o : Op := getOp s id; s.wacts = [] ∧ hasOp s id = true
    ∧ o.complete = false ∧ o.kind ≠ OpKind.nodeCopy ∧ o.held = none ∧ (∀ (g : PageReq), g ∈ o.pages → g.pa.isSome = true)
    ∧ (∀ (p : Part), p ∈ o.parts → partDone s o p = true)) := by
  and_intros <;> decide +kernel

theorem meets_MaskEventsAndRepliesTakeEffect :
  (let s : State := kHead; let id : Nat := argN s 0; let o : Op := getOp s id;
    let s1 : State := keepPages (modOp s id fun x => { x with head := some aHead }) id (restSpans s o aHead);
    hasOp s id = true ∧ o.complete = false ∧ o.failed = false ∧ argN s 1 = 0 ∧ swapped s o = false
    ∧ o.head = some aHead
    ∧ maskResult s1 (getOp s1 id) aHead = DevRead.ok 1461501636990620551282746369252908412224164331520 false)
  ∧ (let s : State := kEnd; let id : Nat := argN s 0; let o : Op := getOp s id; hasOp s id = true ∧ o.complete = false
    ∧ o.failed = false ∧ argN s 1 ≠ 0 ∧ o.kind = OpKind.mask ∧ s.wacts = [] ∧ o.held = none
    ∧ (∀ (g : PageReq), g ∈ o.pages → g.pa.isSome = true) ∧ (∀ (p : Part), p ∈ o.parts → partDone s o p = true)
    ∧ o.thread = some 0 ∧ argN s 1 = 1)
  ∧ (let s : State := rq (flushOp 1 false) [3]; let id : Nat := argN s 0; let o : Op := getOp s id; hasOp s id = true
    ∧ o.thread = some 0 ∧ o.n = 1 ∧ o.dies = [] ∧ o.granted = false)
  ∧ (let s : State := rq (flushOp 1 true) [3]; let id : Nat := argN s 0; let o : Op := getOp s id; hasOp s id = true
    ∧ o.thread = some 0 ∧ o.n = 1 ∧ o.dies = [] ∧ o.granted = true)
  ∧ (let s : State := rWin (privOp 62 8 2 0 0); let id : Nat := argN s 0; let o : Op := getOp s id; hasOp s id = true
    ∧ o.thread = some 0 ∧ argN s 1 ≠ 1 ∧ o.opc = 62 ∧ inWindow s 0 o.a = true)
  ∧ (let s : State := rq (privOp 62 8 0 0 0) [3, 0]; let id : Nat := argN s 0; let o : Op := getOp s id; hasOp s id = true
    ∧ o.thread = some 0 ∧ argN s 1 ≠ 1 ∧ o.opc = 62 ∧ inWindow s 0 o.a = false)
  ∧ (let s : State := rWin (privOp 63 8 2 7 0); let id : Nat := argN s 0; let o : Op := getOp s id; hasOp s id = true
    ∧ o.thread = some 0 ∧ argN s 1 ≠ 1 ∧ o.opc = 63 ∧ inWindow s 0 o.a = true)
  ∧ (let s : State := rq (privOp 60 8192 8192 0 0) [3, 0]; let id : Nat := argN s 0; let o : Op := getOp s id;
    hasOp s id = true ∧ o.thread = some 0 ∧ argN s 1 ≠ 1 ∧ o.opc = 60 ∧ o.b / 2 ^ 62 = 0 ∧ closedGranule s o.a = true)
  ∧ (let s : State := noScrub (rq (privOp 60 4096 4096 0 5) [3, 0]); let id : Nat := argN s 0; let o : Op := getOp s id;
    hasOp s id = true ∧ o.thread = some 0 ∧ argN s 1 ≠ 1 ∧ o.opc = 60 ∧ o.b / 2 ^ 62 = 0 ∧ closedGranule s o.a = false
    ∧ paOk s 0 o.a = true ∧ readLine s o.a o.n 8 = LineRes.ok 0 false)
  ∧ (let s : State := rq (privOp 60 33554432 (2 ^ 62 + 33554432) 0 5) [3, 0]; let id : Nat := argN s 0;
    let o : Op := getOp s id; hasOp s id = true ∧ o.thread = some 0 ∧ argN s 1 ≠ 1 ∧ o.opc = 60 ∧ o.b / 2 ^ 62 ≠ 0)
  ∧ (let s : State := rq (privOp 61 33554432 (2 ^ 62 + 33554432) 0 5) [3, 0]; let id : Nat := argN s 0;
    let o : Op := getOp s id; hasOp s id = true ∧ o.thread = some 0 ∧ argN s 1 ≠ 1 ∧ o.opc = 61 ∧ o.b / 2 ^ 62 ≠ 0) := by
  and_intros <;> decide +kernel

theorem meets_MessageEventsTakeEffect :
  (let s : State := withVf (msg { : Thread } m0) dNew; let older : Bool := false; let id : Nat := argN s 0;
    let m : Msg := mapGet { : Msg } s.msgs id; (List.any s.msgs fun e => e.fst == id) = true
    ∧ older = List.any s.msgs fun e => decide (e.fst < id) && e.snd.src == m.src && e.snd.dst == m.dst && e.snd.held
    ∧ m.instar < (getVf s m.vf).instar)
  ∧ (let s : State := msg { : Thread } m0; let older : Bool := false; let id : Nat := argN s 0;
    let m : Msg := mapGet { : Msg } s.msgs id; let th : Thread := drainDue (getTh s m.dst) s.mer;
    (List.any s.msgs fun e => e.fst == id) = true
    ∧ older = List.any s.msgs fun e => decide (e.fst < id) && e.snd.src == m.src && e.snd.dst == m.dst && e.snd.held
    ∧ (getVf s m.vf).instar ≤ m.instar ∧ older = false ∧ th.pres.toNat / 2 ^ m.reg % 2 = 0
    ∧ (∀ (x : Msg), x ∈ validMsgs th.inbox → x.reg ≠ m.reg))
  ∧ (let s : State := msg { pres := 2 ^ 31 : Thread } m0; let older : Bool := false; let id : Nat := argN s 0;
    let m : Msg := mapGet { : Msg } s.msgs id; let th : Thread := drainDue (getTh s m.dst) s.mer;
    (List.any s.msgs fun e => e.fst == id) = true
    ∧ older = List.any s.msgs fun e => decide (e.fst < id) && e.snd.src == m.src && e.snd.dst == m.dst && e.snd.held
    ∧ (getVf s m.vf).instar ≤ m.instar ∧ older = false ∧ (validMsgs th.inbox).length < 8
    ∧ th.pres.toNat / 2 ^ m.reg % 2 = 1)
  ∧ (let s : State := msg { inbox := [m0] : Thread } m0; let older : Bool := false; let id : Nat := argN s 0;
    let m : Msg := mapGet { : Msg } s.msgs id; let th : Thread := drainDue (getTh s m.dst) s.mer;
    (List.any s.msgs fun e => e.fst == id) = true
    ∧ older = List.any s.msgs fun e => decide (e.fst < id) && e.snd.src == m.src && e.snd.dst == m.dst && e.snd.held
    ∧ (getVf s m.vf).instar ≤ m.instar ∧ older = false ∧ (validMsgs th.inbox).length < 8
    ∧ th.pres.toNat / 2 ^ m.reg % 2 = 0 ∧ (∃ y, y ∈ validMsgs th.inbox ∧ y.reg = m.reg))
  ∧ (let s : State := msg { pres := 2 ^ 31, inbox := full : Thread } m0; let older : Bool := false; let id : Nat := argN s 0;
    let m : Msg := mapGet { : Msg } s.msgs id; let th : Thread := drainDue (getTh s m.dst) s.mer;
    (List.any s.msgs fun e => e.fst == id) = true
    ∧ older = List.any s.msgs fun e => decide (e.fst < id) && e.snd.src == m.src && e.snd.dst == m.dst && e.snd.held
    ∧ (getVf s m.vf).instar ≤ m.instar
    ∧ (older = true ∨ th.pres.toNat / 2 ^ m.reg % 2 = 1 ∧ 8 ≤ (validMsgs th.inbox).length))
  ∧ (let s : State := msg { : Thread } m0; let id : Nat := argN s 0; let m : Msg := mapGet { : Msg } s.msgs id;
    (List.any s.msgs fun e => e.fst == id) = true
    ∧ (m.vf = 0 ∨ (getVf s m.vf).resident = true ∧ (getVf s m.vf).instar ≤ m.instar))
  ∧ (let s : State := withVf (msg { : Thread } m0) saved; let w : Nat := 0; let id : Nat := argN s 0;
    let m : Msg := mapGet { : Msg } s.msgs id; (List.any s.msgs fun e => e.fst == id) = true
    ∧ (getVf s m.vf).pre = PreSt.saved w)
  ∧ (let s : State := withVf (msg { : Thread } m0) savedOut; let id : Nat := argN s 0;
    let m : Msg := mapGet { : Msg } s.msgs id; m.vf ≠ 0 ∧ (getVf s m.vf).resident = false)
  ∧ (let s : State := msg { : Thread } m0; let j : Nat := 5; let k : Nat := windowKey (argN s 0) (argN s 1) (argN s 2); j ≠ k) := by
  and_intros <;> decide +kernel

theorem meets_GateEventsTakeEffect :
  (let s : State := gate gOpen gReq [4]; let id : Nat := argN s 0; let o : Op := getOp s id; hasOp s id = true
    ∧ (getGate s o.a).fifo = [] ∧ (getGate s (argN s 1)).gen = argN s 3 ∧ s.gwaiters = [] ∧ o.thread = some 0)
  ∧ (let s : State := gate (gFifo 9) gReq [4]; let id : Nat := argN s 0; let o : Op := getOp s id; hasOp s id = true
    ∧ (getGate s o.a).fifo ≠ [])
  ∧ (let s : State := gate gOpen gReq [3, 1, 7]; let g : Nat := argN s 0; let x : Gate := getGate s g; x.active = true
    ∧ x.gen = argN s 1 ∧ x.epoch = argN s 2 ∧ x.rate ≠ 0)
  ∧ (let s : State := gate gOpen gCounted [4]; let id : Nat := argN s 0; let o : Op := getOp s id; hasOp s id = true
    ∧ o.complete = false ∧ (∀ (k : Nat), k ∈ o.after → hasOp s k = false) ∧ (getGate s o.a).active = true
    ∧ (getGate s o.a).gen = o.size)
  ∧ (let s : State := gate (gFifo 4) gReq [4]; let g : Nat := 3; let id : Nat := 4; let x : Gate := getGate s g; x.fifo = [id]
    ∧ x.quiesced = false ∧ 0 < x.rate ∧ 0 < x.level)
  ∧ (let s : State := gate gDry gReq [4]; let g : Nat := 3; let id : Nat := 4; let x : Gate := getGate s g; x.fifo = [id]
    ∧ x.quiesced = false ∧ 0 < x.rate ∧ x.level = 0)
  ∧ (let s : State := gate gFree gReq [4]; let g : Nat := 3; let id : Nat := 4; let x : Gate := getGate s g; x.fifo = [id]
    ∧ x.quiesced = false ∧ x.rate = 0) := by
  and_intros <;> decide +kernel

theorem meets_QueueEventsTakeEffect :
  (let s : State := blank imaged; let g : Nat := argN s 0; let y : Graph := getGraph s g; let vf : Nat := argN s 0;
    let q : Nat := argN s 1; let x : Queue := getQ s vf q; let v : Nat := argN s 2 &&& qcfgMask;
    let p : Nat := argN s 2 % 2 ^ 32; let n : Nat := (p + 2 ^ 32 - x.ci) % 2 ^ 32; argN s 3 ≠ 1
    ∧ (qEn x.cfg = false ∨ x.orphan = true ∨ qSize x.cfg < n) ∧ (n ≠ 0 ∨ qEn x.cfg = false ∨ x.orphan = true)
    ∧ tdispHolds s vf = false ∧ qEn v = false ∧ (qEn x.cfg = false ∨ x.fetching ≠ 1)
    ∧ (List.any s.graphs fun e => e.fst == g) = true ∧ canStart s g = true ∧ y.started = false ∧ y.nodes = []
    ∧ readImage s y = Image.bad 1 65535 1)
  ∧ (let s : State := que { cfg := qOn : Queue } [1, 0, 1]; let vf : Nat := argN s 0; let q : Nat := argN s 1;
    let x : Queue := getQ s vf q; let p : Nat := argN s 2 % 2 ^ 32; let n : Nat := (p + 2 ^ 32 - x.ci) % 2 ^ 32;
    argN s 3 ≠ 1 ∧ qEn x.cfg = true ∧ x.orphan = false ∧ n ≤ qSize x.cfg ∧ (x.pi + 2 ^ 32 - x.ci) % 2 ^ 32 < n)
  ∧ (let s : State := que { cfg := qOn, pi := 1 : Queue } [1, 0, 1]; let vf : Nat := argN s 0; let q : Nat := argN s 1;
    let x : Queue := getQ s vf q; let p : Nat := argN s 2 % 2 ^ 32; let n : Nat := (p + 2 ^ 32 - x.ci) % 2 ^ 32;
    argN s 3 ≠ 1 ∧ qEn x.cfg = true ∧ x.orphan = false ∧ n ≤ qSize x.cfg ∧ n ≤ (x.pi + 2 ^ 32 - x.ci) % 2 ^ 32)
  ∧ (let s : State := que { cfg := qOn, pi := 1, fetching := 1 : Queue } [1, 0, 0, 1]; let vf : Nat := argN s 0;
    let q : Nat := argN s 1; let x : Queue := getQ s vf q; let v : Nat := argN s 2 &&& qcfgMask; argN s 3 = 1
    ∧ x.fetching = 1 ∧ x.awaited = false ∧ mayTake s vf x = true ∧ x.ci ≠ x.pi ∧ tdispHolds s vf = false ∧ qEn v = false
    ∧ qEn x.cfg = true)
  ∧ (let s : State := que { : Queue } [1, 0, qOn]; let vf : Nat := argN s 0; let q : Nat := argN s 1;
    let x : Queue := getQ s vf q; let v : Nat := argN s 2 &&& qcfgMask; tdispHolds s vf = false ∧ qEn v = true
    ∧ qEn x.cfg = false ∧ qcfgOk s vf v = true)
  ∧ (let s : State := que { : Queue } [1, 0, 2 ^ 63]; let vf : Nat := argN s 0; let q : Nat := argN s 1;
    let x : Queue := getQ s vf q; let v : Nat := argN s 2 &&& qcfgMask; tdispHolds s vf = false ∧ qEn v = true
    ∧ qEn x.cfg = false ∧ qcfgOk s vf v = false)
  ∧ (let s : State := graph ({ gr {} with started := false }) [4];
    let g : Nat := argN s 0; let y : Graph := getGraph s g; (List.any s.graphs fun e => e.fst == g) = true
    ∧ y.started = false ∧ y.nodes ≠ [] ∧ canStart s g = true)
  ∧ (let s : State := imaged; let g : Nat := argN s 0; let y : Graph := getGraph s g;
    let l : List Nat := [340282366920938463444927863358058659840];
    let s0 : State := modGraph (sawRange s y.vf y.sub y.dva 128) g fun z =>
      { z with nodes := l.map fun r => { nodeRec r with base := z.base } };
    let s1 : State := (List.range l.length).foldl (fun b k => schedDecision b g k) s0;
    (List.any s.graphs fun e => e.fst == g) = true ∧ y.started = false ∧ y.nodes = []
    ∧ readImage s y = Image.ok l ∧ canStart s1 g = true)
  ∧ (let s : State := ordered; let g : Nat := argN s 0; let y : Graph := getGraph s g;
    let l : List Nat := [340282366920938463444927863358058659840];
    let s0 : State := modGraph (sawRange s y.vf y.sub y.dva 128) g fun z =>
      { z with nodes := l.map fun r => { nodeRec r with base := z.base } };
    let s1 : State := (List.range l.length).foldl (fun b k => schedDecision b g k) s0;
    (List.any s.graphs fun e => e.fst == g) = true ∧ y.started = false ∧ y.nodes = []
    ∧ readImage s y = Image.ok l ∧ canStart s1 g = false)
  ∧ (let s : State := graph { vf := 1, opc := 2, cplval := 7, cpladdr := 4096, irq := true, status := 6, fcode := 3 : Graph } [4];
    let g : Nat := 4; let x : Graph := getGraph s g; x.cpladdr ≠ 0 ∧ x.mute = false ∧ (getVf s x.vf).tstop = false
    ∧ linkCut s x.vf = false) := by
  and_intros <;> decide +kernel

theorem meets_NodeEventsTakeEffect :
  (let s : State := waitEnds; let g : Nat := argN s 0; let n : Nat := argN s 1; let x : Graph := getGraph s g;
    let nd : Node := nodeOf x n; nodeRuns s g n 4 = true ∧ nd.op = some 6 ∧ (getOp s 6).granted = true)
  ∧ (let s : State := waits 9; let g : Nat := argN s 0; let n : Nat := argN s 1; let x : Graph := getGraph s g;
    let nd : Node := nodeOf x n; let a : Nat := bodyBits nd 184 128; let v : Nat := bodyBits nd 255 192;
    let at_ : Nat := 4096 / 4096 * 4096 + a % 4096; nodeRuns s g n 4 = true ∧ nd.op = some 6
    ∧ (getOp s 6).pages = [known 4096 0] ∧ (known 4096 0).pa = some 4096
    ∧ getOp s 6 = { getOp s 6 with kind := OpKind.nodeWait, node := some (g, n), b := a, size := v, watching := true }
    ∧ at_ < 2 ^ 64 ∧ readLine s at_ (known 4096 0).key 8 = LineRes.ok 9 false ∧ v ≤ 9 ∧ argN s 2 = 6
    ∧ (List.any s.graphs fun y => y.fst == g) = true)
  ∧ (let s : State := waits 10; let g : Nat := argN s 0; let n : Nat := argN s 1; let x : Graph := getGraph s g;
    let nd : Node := nodeOf x n; let a : Nat := bodyBits nd 184 128; let v : Nat := bodyBits nd 255 192;
    let at_ : Nat := 4096 / 4096 * 4096 + a % 4096; nodeRuns s g n 4 = true ∧ nd.op = some 6
    ∧ (getOp s 6).pages = [known 4096 0] ∧ (known 4096 0).pa = some 4096
    ∧ getOp s 6 = { getOp s 6 with kind := OpKind.nodeWait, node := some (g, n), b := a, size := v, watching := true }
    ∧ at_ < 2 ^ 64 ∧ readLine s at_ (known 4096 0).key 8 = LineRes.ok 9 false ∧ 9 < v)
  ∧ (let s : State := node { ty := 3, st := NodeSt.ready : Node }; let g : Nat := argN s 0; let n : Nat := argN s 1;
    let x : Graph := getGraph s g; let nd : Node := nodeOf x n; nd.st = NodeSt.ready ∧ x.failed = false
    ∧ holdsNode s x nd = false ∧ nd.ty ≠ 1 ∧ wstWaits s g n = false ∧ loopWaits x n = false)
  ∧ (let s : State := withLaunch (node { ty := 1, st := NodeSt.ready, lid := some 2, checked := true : Node }) newLaunch;
    let l : Nat := 2; let g : Nat := argN s 0; let n : Nat := argN s 1; let x : Graph := getGraph s g;
    let nd : Node := nodeOf x n; nd.st = NodeSt.ready ∧ x.failed = false ∧ holdsNode s x nd = false ∧ nd.ty = 1
    ∧ nd.lid = some l ∧ x.det = false ∧ loopWaits x n = false ∧ launchFree s (getLaunch s l) = true
    ∧ heldBack s g n (getLaunch s l) = false)
  ∧ (let s : State := node (runs 0 0); let g : Nat := argN s 0; let n : Nat := argN s 1; let x : Graph := getGraph s g;
    let nd : Node := nodeOf x n; nodeRuns s g n 0 = true ∧ nd.body = 0)
  ∧ (let s : State := node (runs 0 1); let g : Nat := argN s 0; let n : Nat := argN s 1; let x : Graph := getGraph s g;
    let nd : Node := nodeOf x n; nodeRuns s g n 0 = true ∧ nd.body ≠ 0)
  ∧ (let s : State := node (runs 3 (4096 + 7 * 2 ^ 64)); let g : Nat := argN s 0; let n : Nat := argN s 1;
    let x : Graph := getGraph s g; let nd : Node := nodeOf x n; let a : Nat := bodyBits nd 184 128;
    let v : Nat := bodyBits nd 255 192; nodeRuns s g n 3 = true ∧ nd.body = a + v * 2 ^ 64 ∧ a % 8 = 0)
  ∧ (let s : State := node (runs 4 (4096 + 7 * 2 ^ 64)); let g : Nat := argN s 0; let n : Nat := argN s 1;
    let x : Graph := getGraph s g; let nd : Node := nodeOf x n; let a : Nat := bodyBits nd 184 128;
    let v : Nat := bodyBits nd 255 192; nodeRuns s g n 4 = true ∧ nd.op = none ∧ nd.body = a + v * 2 ^ 64 ∧ a % 8 = 0)
  ∧ (let s : State := held (node (runs 5 (4096 + 7 * 2 ^ 64))) 4096 64 2; let w : Nat := 2; let g : Nat := argN s 0;
    let n : Nat := argN s 1; let x : Graph := getGraph s g; let nd : Node := nodeOf x n;
    let a : Nat := bodyBits nd 184 128; let v : Nat := bodyBits nd 255 192; nodeRuns s g n 5 = true
    ∧ nd.body = a + v * 2 ^ 64 ∧ a % 8 = 0 ∧ devRead s x.vf x.sub a 8 = DevRead.ok w false) := by
  and_intros <;> decide +kernel

theorem meets_LoopCopyMaskAndDecisions :
  (let s : State := node (runs 6 (2 * 2 ^ 128)); let w : Nat := 2; let g : Nat := argN s 0; let n : Nat := argN s 1;
    let x : Graph := getGraph s g; let nd : Node := nodeOf x n; let a : Nat := bodyBits nd 184 128;
    let m : Nat := bodyBits nd 255 192; let mx : Nat := bodyBits nd 287 256; nodeRuns s g n 6 = true
    ∧ nd.body = a + m * 2 ^ 64 + mx * 2 ^ 128 + bodyLo nd * 2 ^ 160 ∧ a % 8 = 0 ∧ mx ≠ 0 ∧ x.failed = false
    ∧ (a ≠ 0 → devRead s x.vf x.sub a 8 = DevRead.ok w false) ∧ (a = 0 ∨ w &&& m ≠ 0) ∧ nd.count < mx)
  ∧ (let s : State := node (runs 6 (1 * 2 ^ 128)); let w : Nat := 2; let g : Nat := argN s 0; let n : Nat := argN s 1;
    let x : Graph := getGraph s g; let nd : Node := nodeOf x n; let a : Nat := bodyBits nd 184 128;
    let m : Nat := bodyBits nd 255 192; let mx : Nat := bodyBits nd 287 256; nodeRuns s g n 6 = true
    ∧ nd.body = a + m * 2 ^ 64 + mx * 2 ^ 128 + bodyLo nd * 2 ^ 160 ∧ a % 8 = 0 ∧ mx ≠ 0 ∧ x.failed = false
    ∧ (a ≠ 0 → devRead s x.vf x.sub a 8 = DevRead.ok w false) ∧ (a ≠ 0 ∧ w &&& m = 0 ∨ mx ≤ nd.count))
  ∧ (let s : State := withVf (node (runs 8 (4096 + 8192 * 2 ^ 64 + 12288 * 2 ^ 128))) { dMask with faccept := 0 };
    let g : Nat := argN s 0; let n : Nat := argN s 1; let x : Graph := getGraph s g; let nd : Node := nodeOf x n;
    let a : Nat := bodyBits nd 184 128; let d : Nat := bodyBits nd 248 192; let dst : Nat := bodyBits nd 312 256;
    let vm : Nat := bodyBits nd 331 320; nodeRuns s g n 8 = true ∧ nd.body = a + d * 2 ^ 64 + dst * 2 ^ 128 + vm * 2 ^ 192
    ∧ a % 8 = 0 ∧ d % 64 = 0 ∧ dst % 64 = 0 ∧ featOk s x.vf 4 = false)
  ∧ (let s : State := withVf (node (runs 8 (4096 + 8192 * 2 ^ 64 + 12288 * 2 ^ 128))) dMask; let g : Nat := argN s 0;
    let n : Nat := argN s 1; let x : Graph := getGraph s g; let nd : Node := nodeOf x n;
    let a : Nat := bodyBits nd 184 128; let d : Nat := bodyBits nd 248 192; let dst : Nat := bodyBits nd 312 256;
    let vm : Nat := bodyBits nd 331 320; nodeRuns s g n 8 = true ∧ nd.body = a + d * 2 ^ 64 + dst * 2 ^ 128 + vm * 2 ^ 192
    ∧ a % 8 = 0 ∧ d % 64 = 0 ∧ dst % 64 = 0 ∧ featOk s x.vf 4 = true ∧ maskEngines s x.vf nd.die ≠ [])
  ∧ (let s : State := node (runs 2 (4096 + 8192 * 2 ^ 64 + 64 * 2 ^ 128)); let g : Nat := argN s 0; let n : Nat := argN s 1;
    let x : Graph := getGraph s g; let nd : Node := nodeOf x n; let a : Nat := bodyBits nd 184 128;
    let d : Nat := bodyBits nd 248 192; let len : Nat := bodyBits nd 287 256; nodeRuns s g n 2 = true
    ∧ nd.body = a + d * 2 ^ 64 + len * 2 ^ 128 ∧ a % 8 = 0 ∧ d % 8 = 0 ∧ len % 8 = 0 ∧ 0 < len)
  ∧ (let s : State := graph (gr { ty := 1, base := 9000 : Node }) [4, 0, 9000]; let g : Nat := argN s 0;
    let n : Nat := argN s 1; let x : Graph := getGraph s g; let nd : Node := nodeOf x n;
    (List.any s.graphs fun y => y.fst == g) = true ∧ x.failed = false ∧ nd.base = argN s 2
    ∧ nd.st = NodeSt.pending)
  ∧ (let s : State := starting; let l : Nat := 2; let g : Nat := argN s 0; let n : Nat := argN s 1;
    let x : Graph := getGraph s g; let nd : Node := nodeOf x n; (List.any s.graphs fun y => y.fst == g) = true
    ∧ x.failed = false ∧ nd.base = argN s 2 ∧ argN s 3 ≠ 1 ∧ (getVf s x.vf).resident = true
    ∧ (getVf s x.vf).barred = false ∧ nd.ty = 1 ∧ nd.st = NodeSt.ready ∧ nd.lid = some l ∧ launchFree s (getLaunch s l) = true ∧ loopWaits x n = false
    ∧ switching s x.vf = false)
  ∧ (let s : State := withTh starting [(8, { st := ThreadSt.running : Thread })]; let l : Nat := 2; let g : Nat := argN s 0;
    let n : Nat := argN s 1; let x : Graph := getGraph s g; let nd : Node := nodeOf x n;
    (List.any s.graphs fun y => y.fst == g) = true ∧ x.failed = false ∧ nd.base = argN s 2 ∧ argN s 3 ≠ 1
    ∧ (getVf s x.vf).resident = true ∧ (getVf s x.vf).barred = false ∧ nd.ty = 1 ∧ nd.st = NodeSt.ready ∧ nd.lid = some l ∧ launchFree s (getLaunch s l) = false)
  ∧ (let s : State := graph (gr { st := NodeSt.ready, base := 9000 : Node }) [4, 0, 9000]; let g : Nat := argN s 0;
    let n : Nat := argN s 1; let x : Graph := getGraph s g; let nd : Node := nodeOf x n;
    (List.any s.graphs fun y => y.fst == g) = true ∧ x.failed = false ∧ nd.base = argN s 2 ∧ argN s 3 ≠ 1
    ∧ (getVf s x.vf).resident = true ∧ (getVf s x.vf).barred = false ∧ nd.ty ≠ 1 ∧ nd.st = NodeSt.ready ∧ wstWaits s g n = false)
  ∧ (let s : State := barred (late 0 { ty := 1, st := .ready, base := 9000 : Node }); let g : Nat := argN s 0;
    let n : Nat := argN s 1; let x : Graph := getGraph s g; let nd : Node := nodeOf x n;
    (List.any s.graphs fun y => y.fst == g) = true ∧ x.failed = false ∧ nd.base = argN s 2 ∧ nd.st ≠ .skipped ∧ nd.st ≠ .done
    ∧ nd.st ≠ .pending ∧ (getVf s x.vf).resident = true
    ∧ (getVf s x.vf).barred = true ∧ nd.ty = 1)
  ∧ (let s : State := late 1 { st := .ready, base := 9000 : Node }; let g : Nat := argN s 0;
    let n : Nat := argN s 1; let x : Graph := getGraph s g; let nd : Node := nodeOf x n;
    (List.any s.graphs fun y => y.fst == g) = true ∧ x.failed = false ∧ nd.base = argN s 2 ∧ nd.st ≠ .skipped ∧ nd.st ≠ .done
    ∧ nd.st ≠ .pending ∧ (getVf s x.vf).resident = true
    ∧ (getVf s x.vf).barred = false ∧ argN s 3 = 1)
  ∧ (let s : State := late 0 { ty := 1, st := .ready, base := 9000 : Node }; let g : Nat := argN s 0;
    let n : Nat := argN s 1; let x : Graph := getGraph s g; let nd : Node := nodeOf x n;
    (List.any s.graphs fun y => y.fst == g) = true ∧ x.failed = false ∧ nd.base = argN s 2 ∧ nd.st ≠ .skipped ∧ nd.st ≠ .done
    ∧ nd.st ≠ .pending ∧ (getVf s x.vf).resident = true
    ∧ (getVf s x.vf).barred = false ∧ argN s 3 ≠ 1 ∧ nd.ty = 1 ∧ nd.st = .ready ∧ nd.lid = none) := by
  and_intros <;> decide +kernel

theorem meets_LaunchEventsTakeEffect :
  (let s : State := launching; let l : Nat := argN s 0; let x : Launch := getLaunch s l; let g : Nat := argN s 0;
    let n : Nat := argN s 1; let y : Graph := getGraph s g; let nd : Node := nodeOf y n;
    let tab : List SafeRec := List.map (fun i => safeRecOf (kernBundle 0 i)) (List.range (bits launchRec 383 373));
    nd.st = NodeSt.ready ∧ y.failed = false ∧ nd.checked = false ∧ nd.body = bodyBits nd 184 128 ∧ nd.body % 64 = 0
    ∧ y.det = false
    ∧ devRead s y.vf y.sub nd.body 192 = DevRead.ok launchRec false
    ∧ recordBad (sawRange s y.vf y.sub nd.body 192) y.vf nd.die launchRec = false
    ∧ bits launchRec 214 214 = 0
    ∧ devRead (sawRange s y.vf y.sub nd.body 192) y.vf y.sub (bits launchRec 504 448) (32 * bits launchRec 372 359) = DevRead.ok 0 false
    ∧ devRead (sawRange s y.vf y.sub nd.body 192) y.vf y.sub (bits launchRec 440 384) (32 * bits launchRec 383 373) = DevRead.ok 0 false
    ∧ sptabBad 0 (bits launchRec 372 359) tab = false)
  ∧ (let s : State := gangs newLaunch { : Thread } [2]; let l : Nat := argN s 0; let x : Launch := getLaunch s l;
    x.running = true ∧ x.killed = none)
  ∧ (let s : State := gangs nowLaunch { st := ThreadSt.populated, vf := 1, lid := 2 : Thread } [2, 800]; let t : Nat := 8;
    let l : Nat := argN s 0; let x : Launch := getLaunch s l; x.killed = none ∧ x.start = argN s 1 ∧ (getVf s x.vf).pre = .none
    ∧ t ∈ x.members
    ∧ (getTh s t).st = ThreadSt.populated ∧ (getTh s t).lid = l)
  ∧ (let s : State := gangs loneLaunch { st := ThreadSt.exited, vf := 1, lid := 2 : Thread } [2]; let l : Nat := argN s 0;
    let x : Launch := getLaunch s l; launchDone s l = true ∧ x.graph = none)
  ∧ (let s : State := gangs newLaunch { st := ThreadSt.exited, vf := 1, lid := 2 : Thread } [2]; let l : Nat := argN s 0;
    let x : Launch := getLaunch s l; launchDone s l = true ∧ x.graph = some (4, 0) ∧ x.killed = none ∧ x.orphan = false)
  ∧ (let s : State := withVf (gangs nowLaunch { st := ThreadSt.populated, vf := 1, lid := 2 : Thread } [2, 800]) saved;
    let l : Nat := argN s 0; let x : Launch := getLaunch s l; x.killed = none ∧ x.start = argN s 1 ∧ (getVf s x.vf).pre ≠ .none)
  ∧ (let th : Thread := { st := .populated, lid := 2 : Thread }; let l : Nat := 2; th.lid = l ∧ th.st = .populated)
  ∧ (let th : Thread := { st := .frozen, lid := 2 : Thread }; let l : Nat := 2; th.lid = l ∧ th.st = .frozen) := by
  and_intros <;> decide +kernel

theorem meets_PopulatedContexts :
  (let x : Launch := aLaunch; let i : Nat := 2; let nth : Nat := 2; x.args.length = 8 ∧ i < 2 ^ 32 ∧ nth < 2 ^ 64
    ∧ x.quota < 2 ^ 64 ∧ x.klen < 2 ^ 64)
  ∧ (let x : Launch := aLaunch; let i : Nat := 2; let nth : Nat := 2; let k : Nat := 2; x.args.length = 8 ∧ i < 2 ^ 32
    ∧ nth < 2 ^ 64 ∧ x.quota < 2 ^ 64 ∧ x.klen < 2 ^ 64 ∧ k < 8 ∧ 1 ≤ k)
  ∧ (let x : Launch := aLaunch; let i : Nat := 2; let nth : Nat := 2; let k : Nat := 12; x.args.length = 8 ∧ i < 2 ^ 32
    ∧ nth < 2 ^ 64 ∧ x.quota < 2 ^ 64 ∧ x.klen < 2 ^ 64 ∧ 12 ≤ k ∧ k < 31) := by
  and_intros <;> decide +kernel

theorem meets_LinkEventsTakeEffect :
  (let s : State := linked [0, 4096, 5, 0]; let a : Nat := argN s 1; let pa : Nat := argN s 1 / 64 * 64;
    let key : Nat := argN s 2;
    let open_ : Prop := maskHas (foffer s) 10 = true ∧ paOk s 0 pa = true ∧ closedGranule s pa = false; open_
    ∧ argN s 0 = 0 ∧ readLine s pa key 64 = LineRes.ok 0 false ∧ mapGet false s.flips a = false)
  ∧ (let s : State := linked [0, 4096, 9, 0]; let pa : Nat := argN s 1 / 64 * 64; let key : Nat := argN s 2;
    let open_ : Prop := maskHas (foffer s) 10 = true ∧ paOk s 0 pa = true ∧ closedGranule s pa = false; open_
    ∧ argN s 0 = 0 ∧ readLine s pa key 64 = LineRes.key)
  ∧ (let s : State := linked [0, 2 ^ 38, 5, 0]; let pa : Nat := argN s 1 / 64 * 64; maskHas (foffer s) 10 = true ∧ argN s 0 = 0
    ∧ (paOk s 0 pa = false ∨ closedGranule s pa = true))
  ∧ (let s : State := routed; (getOp s (argN s 0)).pages = [{ page := 4096, acc := 0, pa := some (2 ^ 42) : PageReq }]
    ∧ { page := 4096, acc := 0, pa := some (2 ^ 42) : PageReq }.pa = some 4398046511104 ∧ isRemote s 4398046511104 = true
    ∧ allPerformed (getOp s (argN s 0)) = false ∧ argN s 0 = 3)
  ∧ (let s : State := flipped (linked [0, 3]); let a : Nat := argN s 1; argN s 0 = 0 ∧ mapGet false s.flips a = true)
  ∧ (let s : State := linked [2, 3]; argN s 0 = 2)
  ∧ (let s : State := linked [4, 3, 1]; argN s 0 = 4)
  ∧ (let s : State := linked [5]; argN s 0 = 5)
  ∧ (let s : State := linked [6, 8, 1]; argN s 0 = 6)
  ∧ (let s : State := damagedLine; let pa : Nat := argN s 1 / 64 * 64; let key : Nat := argN s 2;
    let open_ : Prop := maskHas (foffer s) 10 = true ∧ paOk s 0 pa = true ∧ closedGranule s pa = false; open_
    ∧ argN s 0 = 0 ∧ readLine s pa key 64 = LineRes.integrity 0)
  ∧ (let s : State := packets; let a : Nat := argN s 1; let b : Nat := argN s 2; argN s 0 = 7 ∧ hasOp s a = true
    ∧ b < (getOp s a).parts.length
    ∧ ∀ p ∈ (getOp s a).parts, p.src / 64 = ((getOp s a).parts.getD b {}).src / 64 → p.put = false)
  ∧ (let s : State := struck; let a : Nat := argN s 1; let b : Nat := argN s 2; argN s 0 = 7 ∧ hasOp s a = true
    ∧ b < (getOp s a).parts.length
    ∧ ∃ p ∈ (getOp s a).parts, p.src / 64 = ((getOp s a).parts.getD b {}).src / 64 ∧ p.put = true) := by
  and_intros <;> decide +kernel

theorem meets_EngineEventsTakeEffect :
  (let s : State := withArgs (Tests.ring { vf := 1, base := 64, seen := 1 } 0) [2, 1]; let id : Nat := argN s 0;
    let ring : Ring := mapGet { : Ring } s.rings id; let sub : Nat := (getVf s ring.vf).cursub;
    (List.any s.rings fun e => e.fst == id) = true ∧ argN s 1 = 1 ∧ ring.taken < ring.seen
    ∧ devRead s ring.vf sub (ring.base + 64 * (ring.taken % 256)) 64 = DevRead.ok 0 false)
  ∧ (let s : State := Tests.ring { vf := 1, base := 64 : Ring } 1; let id : Nat := argN s 0;
    let ring : Ring := mapGet { : Ring } s.rings id; let sub : Nat := (getVf s ring.vf).cursub;
    (List.any s.rings fun e => e.fst == id) = true ∧ argN s 1 ≠ 1 ∧ devRead s ring.vf sub ring.bell 8 = DevRead.ok 1 false
    ∧ (¬∃ i ∈ s.agenda, i.ev = .ringDoorbell ∧ i.args = [id, 1]) ∧ ring.seen ≤ ring.taken)
  ∧ (let s : State := ringGoing; let id : Nat := argN s 0; let ring : Ring := mapGet { : Ring } s.rings id;
    let sub : Nat := (getVf s ring.vf).cursub;
    (List.any s.rings fun e => e.fst == id) = true ∧ argN s 1 ≠ 1 ∧ devRead s ring.vf sub ring.bell 8 = DevRead.ok 9 false
    ∧ ∃ i ∈ s.agenda, i.ev = .ringDoorbell ∧ i.args = [id, 1])
  ∧ (let s : State := cutOff (eng eGranted); let o : Op := getOp s (argN s 0); linkCut s o.vf = true)
  ∧ (let s : State := eng eMoving; let id : Nat := argN s 0; let o : Op := getOp s id; recordRuns s id = true
    ∧ o.granted = true ∧ allPerformed o = false ∧ o.watching = true)
  ∧ (let s : State := eng eDeclined; let id : Nat := argN s 0; let o : Op := getOp s id; hasOp s id = true
    ∧ o.complete = true ∧ o.status = 2)
  ∧ (let s : State := eng eGranted; let id : Nat := argN s 0; let o : Op := getOp s id; recordRuns s id = true
    ∧ o.granted = true ∧ (∀ p ∈ o.parts, p.got = true) ∧ allPerformed o = true ∧ linkCut s o.vf = false
    ∧ o.watching = false ∧ hasOp s id = true ∧ o.complete = false ∧ bits o.n 376 320 % 8 = 0
    ∧ (o.opc < 16 ∨ o.watching = false))
  ∧ (let s : State := eng eJoined; let id : Nat := argN s 0; let o : Op := getOp s id; recordRuns s id = true
    ∧ o.granted = true ∧ (∀ p ∈ o.parts, p.got = true) ∧ allPerformed o = true ∧ o.watching = true)
  ∧ (let s : State := eng (engOp 0); let id : Nat := argN s 0; let o : Op := getOp s id; recordRuns s id = true
    ∧ o.granted = false)
  ∧ (let s : State := eng eSignal; let id : Nat := argN s 0; let o : Op := getOp s id; hasOp s id = true ∧ o.complete = true
    ∧ o.result = 1 ∧ o.status ≠ 2 ∧ bits o.n 16 16 = 1 ∧ bits o.n 440 384 % 8 = 0 ∧ allPerformed o = true ∧ o.parts ≠ [])
  ∧ (let s : State := eng eEnd; let id : Nat := argN s 0; let o : Op := getOp s id; hasOp s id = true ∧ o.complete = true
    ∧ (o.result ≠ 1 ∨ bits o.n 16 16 = 0))
  ∧ (let s : State := withVf (node (runs 7 4096)) ringVf; let g : Nat := argN s 0; let n : Nat := argN s 1;
    let x : Graph := getGraph s g; let nd : Node := nodeOf x n; let at_ : Nat := bodyBits nd 184 128; nd.op = none
    ∧ devRead s x.vf x.sub at_ 64 = DevRead.ok 0 false ∧ nodeRuns s g n 7 = true ∧ featOk s x.vf 7 = true
    ∧ nd.body = at_ + bodyBits nd 195 192 * 2 ^ 64 ∧ bodyBits nd 195 192 < (collEngines (getVf s x.vf).layout).length)
  ∧ (let s : State := withVf (node (runs 9 4096)) ringVf; let g : Nat := argN s 0; let n : Nat := argN s 1;
    let x : Graph := getGraph s g; let nd : Node := nodeOf x n; let at_ : Nat := bodyBits nd 184 128; nd.op = none
    ∧ devRead s x.vf x.sub at_ 64 = DevRead.ok 0 false ∧ nodeRuns s g n 9 = true ∧ featOk s x.vf 8 = true
    ∧ nd.body = at_ + bodyBits nd 196 192 * 2 ^ 64 ∧ at_ % 64 = 0
    ∧ bodyBits nd 196 192 < (portEngines (getVf s x.vf).layout).length)
  ∧ (let s : State := ringBad; let id : Nat := argN s 0; let ring : Ring := mapGet { : Ring } s.rings id;
    let sub : Nat := (getVf s ring.vf).cursub; (List.any s.rings fun e => e.fst == id) = true ∧ argN s 1 ≠ 1
    ∧ devRead s ring.vf sub ring.bell 8 = DevRead.ok 1 true) := by
  and_intros <;> decide +kernel

theorem meets_MailboxEventsTakeEffect :
  (let s : State := ev dState [1, 0, 0, 1]; let f : Nat := argN s 0; f ≤ 2048 ∧ (f = 0 ∨ s.pkg.recovery = false) ∧ insecure s (argN s 4) = false
    ∧ argN s 3 = 1)
  ∧ (let s : State := ev (withVf dState dLocked) [1, 8192, 5]; let f : Nat := argN s 0; let off : Nat := argN s 1; f ≤ 2048
    ∧ (f = 0 ∨ s.pkg.recovery = false) ∧ insecure s (argN s 4) = false
    ∧ argN s 3 = 0 ∧ tdispHolds s f = true ∧ lockedReg off = true)
  ∧ (let s : State := ev dState [1, 0, 4096]; let f : Nat := argN s 0; let off : Nat := argN s 1; f ≤ 2048
    ∧ (f = 0 ∨ s.pkg.recovery = false) ∧ insecure s (argN s 4) = false
    ∧ argN s 3 = 0 ∧ off = 0)
  ∧ (let s : State := ev dState [1, 8, 1]; let f : Nat := argN s 0; let off : Nat := argN s 1;
    let v : Nat := argN s 2 % 2 ^ 64; f ≤ 2048 ∧ (f = 0 ∨ s.pkg.recovery = false) ∧ insecure s (argN s 4) = false
    ∧ argN s 3 = 0 ∧ off = 8 ∧ v = 1)
  ∧ (let s : State := ev dState [1, 8192, 5]; let f : Nat := argN s 0; let off : Nat := argN s 1; f ≤ 2048
    ∧ (f = 0 ∨ s.pkg.recovery = false) ∧ insecure s (argN s 4) = false
    ∧ argN s 3 = 0 ∧ 8192 ≤ off ∧ off < 8704 ∧ off % 8 = 0 ∧ tdispHolds s f = false)
  ∧ (let s : State := ev (withVf dState (unlocked 0)) [1, 80, 3]; let f : Nat := argN s 0; let off : Nat := argN s 1;
    let x : Vf := getVf s f; f ≤ 2048 ∧ (f = 0 ∨ s.pkg.recovery = false) ∧ insecure s (argN s 4) = false
    ∧ argN s 3 = 0 ∧ f ≠ 0 ∧ off = 80
    ∧ tdispHolds s f = false ∧ x.locked = false)
  ∧ (let s : State := ev dState [1, 4104, 5]; let q : Nat := 0; let f : Nat := argN s 0; let off : Nat := argN s 1; f ≤ 2048
    ∧ (f = 0 ∨ s.pkg.recovery = false) ∧ insecure s (argN s 4) = false
    ∧ argN s 3 = 0 ∧ f ≠ 0 ∧ tdispHolds s f = false ∧ q < 16 ∧ off = 4104 + 32 * q)
  ∧ (let s : State := ev dState [1, 4112, 5]; let q : Nat := 0; let f : Nat := argN s 0; let off : Nat := argN s 1; f ≤ 2048
    ∧ (f = 0 ∨ s.pkg.recovery = false) ∧ insecure s (argN s 4) = false
    ∧ argN s 3 = 0 ∧ f ≠ 0 ∧ q < 16 ∧ off = 4112 + 32 * q)
  ∧ (let s : State := ev (withVf dState (unlocked 1)) [1, 1]; let f : Nat := argN s 0; let off : Nat := argN s 1;
    let x : Vf := getVf s f; f ≠ 0 ∧ f ≤ 2048 ∧ maskHas off 0 = true ∧ x.locked = false ∧ maskHas x.faccept 0 = true
    ∧ x.faccept < 2 ^ 12 ∧ x.faccept &&& foffer s = x.faccept)
  ∧ (let s : State := ev (withVf dState (unlocked (2 ^ 12))) [1, 1]; let f : Nat := argN s 0; let off : Nat := argN s 1;
    let x : Vf := getVf s f; f ≠ 0 ∧ f ≤ 2048 ∧ maskHas off 0 = true ∧ x.locked = false
    ∧ x.faccept &&& foffer s ≠ x.faccept)
  ∧ (let s : State := mail 127 0 0 0; let opc : Nat := 127; let f : Nat := argN s 0; runsCmd s f opc
    ∧ commandRow opc = Instr.unassignedMailboxOpcode)
  ∧ (let s : State := pf 6 3 100 0; let opc : Nat := 6; let f : Nat := argN s 0; let a0 : Nat := cmdArg s f 0;
    let a1 : Nat := cmdArg s f 1; runsCmd s f opc ∧ opc = 6 ∧ f = 0 ∧ a0 < 4 ∧ 100 ≤ a1 ∧ a1 ≤ 100000)
  ∧ (let s : State := mail 7 0 0 0; let opc : Nat := 7; let f : Nat := argN s 0; let a0 : Nat := cmdArg s f 0; runsCmd s f opc
    ∧ opc = 7 ∧ f ≠ 0 ∧ a0 = 0)
  ∧ (let s : State := mail 7 4096 100 0; let opc : Nat := 7; let f : Nat := argN s 0; let a0 : Nat := cmdArg s f 0;
    let a1 : Nat := cmdArg s f 1; runsCmd s f opc ∧ opc = 7 ∧ f ≠ 0 ∧ a0 ≠ 0 ∧ a0 % 4096 = 0 ∧ 100 ≤ a1 % 2 ^ 32
    ∧ a1 % 2 ^ 32 ≤ 10000000)
  ∧ (let s : State := mail 5 15 0 0; let opc : Nat := 5; let f : Nat := argN s 0; let x : Vf := getVf s f;
    let a0 : Nat := cmdArg s f 0; runsCmd s f opc ∧ opc = 5 ∧ f ≠ 0 ∧ x.cmdStep = 0 ∧ a0 < 16 ∧ runningLaunch s f = false)
  ∧ (let s : State := runsCmdOn dState 1 (cmdRecOf 5 0 15 0 0); let opc : Nat := 5; let f : Nat := argN s 0;
    let x : Vf := getVf s f; let a0 : Nat := cmdArg s f 0; runsCmd s f opc ∧ opc = 5 ∧ f ≠ 0 ∧ x.cmdStep = 0 ∧ a0 < 16
    ∧ runningLaunch s f = true)
  ∧ (let s : State := host (mail 3 1 0 0) 0 32 anEntry; let opc : Nat := 3; let f : Nat := argN s 0; let x : Vf := getVf s f;
    let vf : Nat := cmdVf s f; let a0 : Nat := cmdArg s f 0; let a1 : Nat := cmdArg s f 1;
    let e : Nat := rdMem s.mem (fnHost s f a1) 32; runsCmd s f opc ∧ (f ≠ 0 ∨ namesVf s) ∧ x.cmdStep = 0
    ∧ pfLocked s f vf = false ∧ opc = 3 ∧ a0 < 256 ∧ entryStatus s vf (cmdSub s f) a0 e = 0 ∧ (entryOf e).valid = true
    ∧ (mapGet { : RangeEntry } (getVf s vf).ranges (cmdSub s f * 256 + a0)).valid = false)
  ∧ (let s : State := host (mail 3 1 0 0) 0 32 (2 ^ 63); let opc : Nat := 3; let f : Nat := argN s 0; let x : Vf := getVf s f;
    let vf : Nat := cmdVf s f; let a0 : Nat := cmdArg s f 0; let a1 : Nat := cmdArg s f 1;
    let e : Nat := rdMem s.mem (fnHost s f a1) 32; runsCmd s f opc ∧ (f ≠ 0 ∨ namesVf s) ∧ x.cmdStep = 0
    ∧ pfLocked s f vf = false ∧ opc = 3 ∧ a0 < 256 ∧ entryStatus s vf (cmdSub s f) a0 e ≠ 0)
  ∧ (let s : State := mail 4 (2 ^ 21) (2 ^ 63 + 2 ^ 62 + 2 ^ 59) 0; let opc : Nat := 4; let f : Nat := argN s 0;
    let x : Vf := getVf s f; let vf : Nat := cmdVf s f; let a0 : Nat := cmdArg s f 0; let a1 : Nat := cmdArg s f 1;
    runsCmd s f opc ∧ (f ≠ 0 ∨ namesVf s) ∧ x.cmdStep = 0 ∧ pfLocked s f vf = false ∧ opc = 4
    ∧ pageStatus s vf a0 a1 (cmdArg s f 2) = 0)
  ∧ (let s : State := mail 4 (2 ^ 21) (2 ^ 63 + 2 ^ 62 + 2 ^ 59) 3; let opc : Nat := 4; let f : Nat := argN s 0;
    let x : Vf := getVf s f; let vf : Nat := cmdVf s f; let a0 : Nat := cmdArg s f 0; let a1 : Nat := cmdArg s f 1;
    runsCmd s f opc ∧ (f ≠ 0 ∨ namesVf s) ∧ x.cmdStep = 0 ∧ pfLocked s f vf = false ∧ opc = 4
    ∧ pageStatus s vf a0 a1 (cmdArg s f 2) ≠ 0)
  ∧ (let s : State := invOld; let f : Nat := argN s 0;
    List.find? (fun z => z.fst == f) s.invs = some (f, { vf := 1, sub := 0, base := 4096, len := 4096, what := 0, fn := 1 : Invalid })
    ∧ invPending s { vf := 1, sub := 0, base := 4096, len := 4096, what := 0, fn := 1 : Invalid } = true
    ∧ (entryOf 0).valid = false)
  ∧ (let s : State := waiting dState { vf := 1, sub := 0, base := 4096, len := 4096, what := 0, fn := 1 : Invalid };
    let f : Nat := argN s 0;
    List.find? (fun z => z.fst == f) s.invs = some (f, { vf := 1, sub := 0, base := 4096, len := 4096, what := 0, fn := 1 : Invalid })
    ∧ invPending s { vf := 1, sub := 0, base := 4096, len := 4096, what := 0, fn := 1 : Invalid } = false
    ∧ { vf := 1, sub := 0, base := 4096, len := 4096, what := 0, fn := 1 : Invalid }.what = 0)
  ∧ (let s : State := waiting dState { vf := 1, sub := 0, base := 4096, len := 4096, what := 1, fn := 1 : Invalid };
    let f : Nat := argN s 0;
    List.find? (fun z => z.fst == f) s.invs = some (f, { vf := 1, sub := 0, base := 4096, len := 4096, what := 1, fn := 1 : Invalid })
    ∧ invPending s { vf := 1, sub := 0, base := 4096, len := 4096, what := 1, fn := 1 : Invalid } = false
    ∧ { vf := 1, sub := 0, base := 4096, len := 4096, what := 1, fn := 1 : Invalid }.what = 1)
  ∧ (let s : State := waiting dState { vf := 1, sub := 0, base := 4096, len := 4096, what := 2, fn := 1 : Invalid };
    let f : Nat := argN s 0;
    List.find? (fun z => z.fst == f) s.invs = some (f, { vf := 1, sub := 0, base := 4096, len := 4096, what := 2, fn := 1 : Invalid })
    ∧ invPending s { vf := 1, sub := 0, base := 4096, len := 4096, what := 2, fn := 1 : Invalid } = false
    ∧ { vf := 1, sub := 0, base := 4096, len := 4096, what := 2, fn := 1 : Invalid }.what = 2)
  ∧ (let s : State := waiting dState { vf := 1, sub := 0, base := 4096, len := 4096, what := 3, fn := 1 : Invalid };
    let f : Nat := argN s 0;
    List.find? (fun z => z.fst == f) s.invs = some (f, { vf := 1, sub := 0, base := 4096, len := 4096, what := 3, fn := 1 : Invalid })
    ∧ invPending s { vf := 1, sub := 0, base := 4096, len := 4096, what := 3, fn := 1 : Invalid } = false
    ∧ { vf := 1, sub := 0, base := 4096, len := 4096, what := 3, fn := 1 : Invalid }.what = 3)
  ∧ (let s : State := waiting dState { vf := 1, sub := 0, base := 4096, len := 4096, what := 4, fn := 1 : Invalid };
    let f : Nat := argN s 0;
    List.find? (fun z => z.fst == f) s.invs = some (f, { vf := 1, sub := 0, base := 4096, len := 4096, what := 4, fn := 1 : Invalid })
    ∧ invPending s { vf := 1, sub := 0, base := 4096, len := 4096, what := 4, fn := 1 : Invalid } = false
    ∧ { vf := 1, sub := 0, base := 4096, len := 4096, what := 4, fn := 1 : Invalid }.what = 4)
  ∧ (let s : State := waiting dState { vf := 1, sub := 0, base := 4096, len := 4096, what := 5, fn := 1 : Invalid };
    let f : Nat := argN s 0;
    List.find? (fun z => z.fst == f) s.invs = some (f, { vf := 1, sub := 0, base := 4096, len := 4096, what := 5, fn := 1 : Invalid })
    ∧ invPending s { vf := 1, sub := 0, base := 4096, len := 4096, what := 5, fn := 1 : Invalid } = false
    ∧ { vf := 1, sub := 0, base := 4096, len := 4096, what := 5, fn := 1 : Invalid }.what = 5)
  ∧ (let y : Invalid := { vf := 1, sub := 0, base := 0, len := 0, what := 0, entry := anEntry, fn := 1 };
    let s : State := waiting dState y; invPending s y = false ∧ y.what = 0 ∧ (entryOf y.entry).valid = true)
  ∧ (let y : Invalid := { vf := 1, sub := 16, base := 0, len := 2 ^ 57, what := 1, fn := 1, place := 2, till := 800 };
    let s : State := waiting invOld y; invPending s y = true ∧ ¬(y.till = 0 ∨ s.mer < y.till) ∧ y.what = 1)
  ∧ (let s : State := cut; insecure s (argN s 4) = true) := by
  and_intros <;> decide +kernel

theorem meets_KeyAndGateCommandsTakeEffect :
  (let s : State := pf 32 4095 0 0; let opc : Nat := 32; let f : Nat := argN s 0; let a0 : Nat := cmdArg s f 0;
    let a1 : Nat := cmdArg s f 1; let k : Nat := a0 % 2 ^ 12; let kind : Nat := a1 % 4; runsCmd s (argN s 0) opc
    ∧ opc = 32 ∧ f = 0 ∧ namesVf s ∧ k ≠ 0 ∧ (kind = 0 ∨ kind = 1 ∧ maskHas (foffer s) 6 = true) ∧ (keySlot s k).st = 0)
  ∧ (let s : State := pf 32 5 1 0; let opc : Nat := 32; let f : Nat := argN s 0; let a0 : Nat := cmdArg s f 0;
    let a1 : Nat := cmdArg s f 1; let k : Nat := a0 % 2 ^ 12; let kind : Nat := a1 % 4; runsCmd s (argN s 0) opc
    ∧ opc = 32 ∧ f = 0 ∧ namesVf s ∧ k ≠ 0 ∧ (kind = 0 ∨ kind = 1 ∧ maskHas (foffer s) 6 = true) ∧ (keySlot s k).st ≠ 0)
  ∧ (let s : State := windowKeyed (pf 33 6 7 0); let opc : Nat := 33; let f : Nat := argN s 0; let vf : Nat := cmdVf s f;
    let a0 : Nat := cmdArg s f 0; let k : Nat := a0 % 2 ^ 12; runsCmd s (argN s 0) opc ∧ opc = 33 ∧ f = 0 ∧ namesVf s
    ∧ maskHas (foffer s) 6 = true ∧ isWindow s k = true ∧ (keySlot s k).owner ≠ vf)
  ∧ (let s : State := windowKeyed (pf 34 6 0 0); let opc : Nat := 34; let f : Nat := argN s 0; let vf : Nat := cmdVf s f;
    let a0 : Nat := cmdArg s f 0; let k : Nat := a0 % 2 ^ 12; runsCmd s (argN s 0) opc ∧ opc = 34 ∧ f = 0 ∧ namesVf s
    ∧ (getVf s f).cmdStep = 0 ∧ maskHas (foffer s) 6 = true ∧ wasWindow s k = true ∧ (keySlot s k).owner ≠ vf
    ∧ tdispHolds s vf = false)
  ∧ (let s : State := pf 40 4095 (2 ^ 16) 0; let opc : Nat := 40; let f : Nat := argN s 0; let a0 : Nat := cmdArg s f 0;
    let a1 : Nat := cmdArg s f 1; let acl : BitVec 256 := readAcl s f; let burst : Nat := a1 / 2 ^ 16 % 2 ^ 16;
    let g : Nat := a0 % 4096; runsCmd s (argN s 0) opc ∧ opc = 40 ∧ f = 0 ∧ namesVf s ∧ maskHas (foffer s) 5 = true
    ∧ a1 / 2 ^ 32 % 2 ^ 12 = 0 ∧ burst ≠ 0 ∧ aclBad acl = false ∧ (getGate s g).active = false)
  ∧ (let s : State := Tests.withGate (pf 41 3 0 0) 3 gOpen; let opc : Nat := 41; let f : Nat := argN s 0;
    let a0 : Nat := cmdArg s f 0; let acl : BitVec 256 := readAcl s f; let x : Gate := getGate s a0;
    runsCmd s (argN s 0) opc ∧ f = 0 ∧ maskHas (foffer s) 5 = true ∧ a0 < 4096 ∧ x.active = true ∧ opc = 41
    ∧ aclBad acl = false)
  ∧ (let s : State := Tests.withGate (pf 42 3 0 0) 3 gOpen; let opc : Nat := 42; let f : Nat := argN s 0;
    let a0 : Nat := cmdArg s f 0; let x : Gate := getGate s a0; runsCmd s (argN s 0) opc ∧ f = 0
    ∧ maskHas (foffer s) 5 = true ∧ a0 < 4096 ∧ x.active = true ∧ opc = 42)
  ∧ (let s : State := gated (pf 44 3 0 0) gGranted; let opc : Nat := 44; let f : Nat := argN s 0; let a0 : Nat := cmdArg s f 0;
    let x : Gate := getGate s a0;
    let s1 : State := modGate s a0 fun y => { y with quiesced := true };
    runsCmd s (argN s 0) opc ∧ f = 0 ∧ maskHas (foffer s) 5 = true ∧ a0 < 4096 ∧ x.active = true ∧ opc = 44
    ∧ uncounted s1 a0 = true)
  ∧ (let s : State := Tests.withGate (pf 44 3 0 0) 3 gOpen; let opc : Nat := 44; let f : Nat := argN s 0;
    let a0 : Nat := cmdArg s f 0; let x : Gate := getGate s a0;
    let s1 : State := modGate s a0 fun y => { y with quiesced := true };
    runsCmd s (argN s 0) opc ∧ f = 0 ∧ maskHas (foffer s) 5 = true ∧ a0 < 4096 ∧ x.active = true ∧ opc = 44
    ∧ uncounted s1 a0 = false)
  ∧ (let s : State := Tests.withGate (mail 43 3 0 0) 3 gListed; let opc : Nat := 43; let r : Nat := 7; let f : Nat := argN s 0;
    let a0 : Nat := cmdArg s f 0; let g : Nat := a0 % 4096; runsCmd s (argN s 0) opc ∧ opc = 43 ∧ f ≠ 0
    ∧ featOk s f 5 = true ∧ (getGate s g).active = true ∧ aclRights (getGate s g).acl f = some r) := by
  and_intros <;> decide +kernel

theorem meets_DomainCommandsTakeEffect :
  (let s : State := pf 48 0 0 0; let opc : Nat := 48; let f : Nat := argN s 0; let a0 : Nat := cmdArg s f 0;
    let step0 : Prop := (getVf s f).cmdStep = 0; runsCmd s f opc ∧ f = 0 ∧ opc = 48 ∧ step0 ∧ maskHas (foffer s) 9 = true
    ∧ a0 = 0 ∧ domainBusy s = false)
  ∧ (let s : State := kdom (pf 48 9 1 0); let opc : Nat := 48; let f : Nat := argN s 0; let a0 : Nat := cmdArg s f 0;
    let a1 : Nat := cmdArg s f 1; let me : Nat := cmdArg s f 2 % 64; let step0 : Prop := (getVf s f).cmdStep = 0;
    runsCmd s f opc ∧ f = 0 ∧ opc = 48 ∧ step0 ∧ maskHas (foffer s) 9 = true ∧ a0 ≠ 0 ∧ maskHas a1 me = true
    ∧ s.pkg.inDom = false ∧ others a1 me = [])
  ∧ (let s : State := kdom (pf 48 9 3 0); let opc : Nat := 48; let f : Nat := argN s 0; let a0 : Nat := cmdArg s f 0;
    let a1 : Nat := cmdArg s f 1; let me : Nat := cmdArg s f 2 % 64; let step0 : Prop := (getVf s f).cmdStep = 0;
    runsCmd s f opc ∧ f = 0 ∧ opc = 48 ∧ step0 ∧ maskHas (foffer s) 9 = true ∧ a0 ≠ 0 ∧ maskHas a1 me = true
    ∧ s.pkg.inDom = false ∧ others a1 me ≠ [])
  ∧ (let s : State := kdom (inDomain (pf 49 4095 1 7)); let opc : Nat := 49; let f : Nat := argN s 0;
    let a0 : Nat := cmdArg s f 0; let a1 : Nat := cmdArg s f 1; let step0 : Prop := (getVf s f).cmdStep = 0;
    let slot : Nat := a0 % 2 ^ 12; runsCmd s f opc ∧ f = 0 ∧ opc = 49 ∧ namesVf s ∧ step0 ∧ maskHas (foffer s) 9 = true
    ∧ s.pkg.geuth.kdom = true ∧ featOk s (cmdVf s f) 9 = true ∧ slot ≠ 0 ∧ cmdArg s f 2 ≠ 0 ∧ s.pkg.inDom = true
    ∧ maskHas a1 s.pkg.pkg = true ∧ a1 &&& s.pkg.members = a1 ∧ others a1 s.pkg.pkg = [])
  ∧ (let s : State := kdom (twoPackages (pf 49 4095 3 7)); let opc : Nat := 49; let f : Nat := argN s 0;
    let a0 : Nat := cmdArg s f 0; let a1 : Nat := cmdArg s f 1; let step0 : Prop := (getVf s f).cmdStep = 0;
    let slot : Nat := a0 % 2 ^ 12; runsCmd s f opc ∧ f = 0 ∧ opc = 49 ∧ namesVf s ∧ step0 ∧ maskHas (foffer s) 9 = true
    ∧ s.pkg.geuth.kdom = true ∧ featOk s (cmdVf s f) 9 = true ∧ slot ≠ 0 ∧ cmdArg s f 2 ≠ 0 ∧ s.pkg.inDom = true
    ∧ maskHas a1 s.pkg.pkg = true ∧ a1 &&& s.pkg.members = a1 ∧ others a1 s.pkg.pkg ≠ [])
  ∧ (let s : State := host (pf 50 3 64 0) 64 8 (2 ^ 16); let opc : Nat := 50; let f : Nat := argN s 0;
    let a0 : Nat := cmdArg s f 0; let step0 : Prop := (getVf s f).cmdStep = 0; let tab : List Nat := readTable s f;
    let s0 : State := { s with pkg := { s.pkg with table := tab } };
    runsCmd s f opc ∧ f = 0 ∧ opc = 50 ∧ step0 ∧ maskHas (foffer s) 7 = true ∧ maskHas a0 48 = false
    ∧ tableBad s tab (bits a0 27 16) = false ∧ (getGroup s (a0 % 2 ^ 16)).valid = false ∧ tablePackages s0 = [])
  ∧ (let s : State := withKey (twoPackages (host (pf 50 (3 + 2 ^ 32 + 5 * 2 ^ 16) 64 0) 64 16 (2 ^ 16 + (1 + 2 ^ 16) * 2 ^ 64))) 5 { st := 1, owner := 1, kind := 2 : KeySlot };
    let opc : Nat := 50; let f : Nat := argN s 0; let a0 : Nat := cmdArg s f 0;
    let step0 : Prop := (getVf s f).cmdStep = 0; let tab : List Nat := readTable s f;
    let s0 : State := { s with pkg := { s.pkg with table := tab } };
    runsCmd s f opc ∧ f = 0 ∧ opc = 50 ∧ step0 ∧ maskHas (foffer s) 7 = true ∧ maskHas a0 48 = false
    ∧ tableBad s tab (bits a0 27 16) = false ∧ (getGroup s (a0 % 2 ^ 16)).valid = false ∧ tablePackages s0 ≠ [])
  ∧ (let s : State := grouped (pf 50 (3 + 2 ^ 48) 0 0); let opc : Nat := 50; let f : Nat := argN s 0;
    let a0 : Nat := cmdArg s f 0; let step0 : Prop := (getVf s f).cmdStep = 0; runsCmd s f opc ∧ f = 0 ∧ opc = 50 ∧ step0
    ∧ maskHas (foffer s) 7 = true ∧ maskHas a0 48 = true ∧ (getGroup s (a0 % 2 ^ 16)).valid = true
    ∧ groupBusy s (a0 % 2 ^ 16) = false)
  ∧ (let s : State := host (pf 51 0 64 0) 64 64 (2 ^ 196); let opc : Nat := 51; let f : Nat := argN s 0;
    let a1 : Nat := cmdArg s f 1; let d : Nat := rdMem s.mem (fnHost s f a1) 64; runsCmd s f opc ∧ f = 0 ∧ opc = 51
    ∧ namesVf s ∧ maskHas (foffer s) 8 = true ∧ qpBad d = false
    ∧ (List.filter (fun e => e.snd.vf == cmdVf s f) s.pkg.qps).length < 1024 ∧ List.length s.pkg.qps < 2 ^ 24)
  ∧ (let s : State := withQp (pf 52 3 0 0) [(4, eRdma)]; let opc : Nat := 52; let f : Nat := argN s 0;
    let a0 : Nat := cmdArg s f 0; let q : Nat := a0 % 2 ^ 24; runsCmd s f opc ∧ f = 0 ∧ opc = 52 ∧ namesVf s
    ∧ maskHas (foffer s) 8 = true ∧ (List.any s.pkg.qps fun e => e.fst == q) = true
    ∧ (mapGet { : QPair } s.pkg.qps q).vf = cmdVf s f ∧ qpBusy s q = true)
  ∧ (let s : State := withQp (pf 52 3 0 0) []; let opc : Nat := 52; let f : Nat := argN s 0; let a0 : Nat := cmdArg s f 0;
    let q : Nat := a0 % 2 ^ 24; runsCmd s f opc ∧ f = 0 ∧ opc = 52 ∧ namesVf s ∧ maskHas (foffer s) 8 = true
    ∧ (List.any s.pkg.qps fun e => e.fst == q) = true ∧ (mapGet { : QPair } s.pkg.qps q).vf = cmdVf s f
    ∧ qpBusy s q = false)
  ∧ (let s : State := awaiting (pf 48 9 3 0); let f : Nat := argN s 0; awaits s f = true)
  ∧ (let s : State := flashing; s.pkg.recovery = true ∧ argN s 3 = 0)
  ∧ (let s : State := ev dState [7, 0]; let f : Nat := argN s 0; s.pkg.certs.contains (argN s 1) = true
    ∧ (∀ e, e ∈ s.pkg.spdm → e.1 ≠ f) ∧ s.pkg.recovery = false)
  ∧ (let s : State := ev dState [7, 1]; s.pkg.certs.contains (argN s 1) = false)
  ∧ (let s : State := hashed; let f : Nat := argN s 0; s.pkg.spdm.find? (fun e => e.1 == f) = some (f, 5)) := by
  and_intros <;> decide +kernel

theorem meets_LayoutCommandsTakeEffect :
  (let s : State := host (pf 1 64 0 0) 64 64 layoutBits; let opc : Nat := 1; let f : Nat := argN s 0;
    let vf : Nat := cmdVf s f; let base : Nat := cmdArg s f 0; let d : Nat := rdMem s.mem (fnHost s f base) 64;
    let free : Layout → Prop := fun l => busyVf s vf = false ∨ l.slots = (getVf s vf).layout.slots ∧ l.dies = (getVf s vf).layout.dies ∧ l.mode = (getVf s vf).layout.mode;
    let may : Layout → Prop := fun l => pfLocked s f vf = false ∧ layoutBad s vf l = false ∧ layoutFull s vf l = false;
    runsCmd s f opc ∧ f = 0 ∧ namesVf s ∧ (getVf s f).cmdStep = 0 ∧ opc = 1 ∧ layoutReserved d = false ∧ may (layoutOf d)
    ∧ free (layoutOf d))
  ∧ (let s : State := pf 2 1 0 0; let opc : Nat := 2; let f : Nat := argN s 0; let vf : Nat := cmdVf s f;
    let base : Nat := cmdArg s f 0;
    let mode : Layout := { (getVf s vf).layout with mode := base % 2 };
    let free : Layout → Prop := fun l => busyVf s vf = false ∨ l.slots = (getVf s vf).layout.slots ∧ l.dies = (getVf s vf).layout.dies ∧ l.mode = (getVf s vf).layout.mode;
    let may : Layout → Prop := fun l => pfLocked s f vf = false ∧ layoutBad s vf l = false ∧ layoutFull s vf l = false;
    runsCmd s f opc ∧ f = 0 ∧ namesVf s ∧ (getVf s f).cmdStep = 0 ∧ opc = 2 ∧ may mode ∧ free mode)
  ∧ (let s : State := runsCmdOn dState 0 (cmdRecOf 2 1 1 0 0 + 2 ^ 8); let opc : Nat := 2; let f : Nat := argN s 0;
    let vf : Nat := cmdVf s f; let base : Nat := cmdArg s f 0;
    let mode : Layout := { (getVf s vf).layout with mode := base % 2 };
    let free : Layout → Prop := fun l => busyVf s vf = false ∨ l.slots = (getVf s vf).layout.slots ∧ l.dies = (getVf s vf).layout.dies ∧ l.mode = (getVf s vf).layout.mode;
    let may : Layout → Prop := fun l => pfLocked s f vf = false ∧ layoutBad s vf l = false ∧ layoutFull s vf l = false;
    runsCmd s f opc ∧ f = 0 ∧ namesVf s ∧ (getVf s f).cmdStep = 0 ∧ opc = 2 ∧ may mode ∧ (¬free mode)
    ∧ cmdEvict s f = true)
  ∧ (let s : State := runsCmdOn dState 0 (cmdRecOf 2 1 1 0 0); let opc : Nat := 2; let f : Nat := argN s 0;
    let vf : Nat := cmdVf s f; let base : Nat := cmdArg s f 0;
    let mode : Layout := { (getVf s vf).layout with mode := base % 2 };
    let free : Layout → Prop := fun l => busyVf s vf = false ∨ l.slots = (getVf s vf).layout.slots ∧ l.dies = (getVf s vf).layout.dies ∧ l.mode = (getVf s vf).layout.mode;
    let may : Layout → Prop := fun l => pfLocked s f vf = false ∧ layoutBad s vf l = false ∧ layoutFull s vf l = false;
    runsCmd s f opc ∧ f = 0 ∧ namesVf s ∧ (getVf s f).cmdStep = 0 ∧ opc = 2 ∧ may mode ∧ (¬free mode)
    ∧ cmdEvict s f = false)
  ∧ (let s : State := bound2 (pf 17 (2 ^ 21) (2 ^ 21) 0); let opc : Nat := 17; let f : Nat := argN s 0;
    let vf : Nat := cmdVf s f; let base : Nat := cmdArg s f 0; let len : Nat := cmdArg s f 1; runsCmd s f opc ∧ f = 0
    ∧ namesVf s ∧ (getVf s f).cmdStep = 0 ∧ opc = 17 ∧ tdispHolds s vf = false ∧ cmdArg s f 2 = 0
    ∧ releaseStatus s vf base len = 0)
  ∧ (let s : State := pf 17 0 12288 0; let opc : Nat := 17; let f : Nat := argN s 0; let vf : Nat := cmdVf s f;
    let base : Nat := cmdArg s f 0; let len : Nat := cmdArg s f 1; runsCmd s f opc ∧ f = 0 ∧ namesVf s
    ∧ (getVf s f).cmdStep = 0 ∧ opc = 17 ∧ tdispHolds s vf = false ∧ cmdArg s f 2 ≤ 1 ∧ releaseStatus s vf base len ≠ 0)
  ∧ (let s : State := journaled (pf 17 0 0 0) 3; let opc : Nat := 17; let f : Nat := argN s 0; runsCmd s f opc ∧ f = 0
    ∧ namesVf s ∧ opc = 17 ∧ (getVf s f).cmdStep = 3)
  ∧ (let s : State := clean2 (pf 16 (2 ^ 21) (2 ^ 21) 0); let opc : Nat := 16; let f : Nat := argN s 0;
    let vf : Nat := cmdVf s f; let base : Nat := cmdArg s f 0; let len : Nat := cmdArg s f 1; runsCmd s f opc ∧ f = 0
    ∧ namesVf s ∧ opc = 16 ∧ rerunDue s = false ∧ cmdArg s f 2 = 0 ∧ bindStatus s vf base len = 0)
  ∧ (let s : State := pf 16 32768 8192 0; let opc : Nat := 16; let f : Nat := argN s 0; let vf : Nat := cmdVf s f;
    let base : Nat := cmdArg s f 0; let len : Nat := cmdArg s f 1; runsCmd s f opc ∧ f = 0 ∧ namesVf s ∧ opc = 16
    ∧ rerunDue s = false ∧ cmdArg s f 2 = 0 ∧ bindStatus s vf base len ≠ 0)
  ∧ (let s : State := ev (idle dState) [1, 1]; let f : Nat := argN s 0; f ≠ 0 ∧ f ≤ 2048 ∧ switching s f = false ∧ argN s 1 ≠ 0
    ∧ resetWaits (dropAllHeld s f) f = false ∧ launchesLeft (dropAllHeld s f) f = false
    ∧ (dropAllHeld s f).pkg.hold = 0 ∧ featOk s f 11 = true ∧ (getVf s f).tdisp = Tdisp.unlocked)
  ∧ (let s : State := ev (idle dState) [1, 1]; let u : Nat := 2; let f : Nat := argN s 0; f ≠ 0 ∧ f ≤ 2048
    ∧ switching s f = false ∧ argN s 1 ≠ 0 ∧ resetWaits (dropAllHeld s f) f = false ∧ launchesLeft (dropAllHeld s f) f = false
    ∧ (dropAllHeld s f).pkg.hold = 0 ∧ u ≠ f)
  ∧ (let s : State := parted dState dLocked [1]; let f : Nat := argN s 0; f ≠ 0 ∧ f ≤ 2048 ∧ (getVf s f).tdisp = Tdisp.locked)
  ∧ (let s : State := journaled (pf 1 64 0 0) 3; let opc : Nat := 1; let f : Nat := argN s 0; let vf : Nat := cmdVf s f;
    runsCmd s f opc ∧ f = 0 ∧ namesVf s ∧ List.find? (fun y => y.vf == vf) s.pkg.journal = some aJournal
    ∧ (getVf s f).cmdStep = 3 ∧ opc = 1)
  ∧ (let s : State := journaled (pf 2 1 0 0) 3; let opc : Nat := 2; let f : Nat := argN s 0; let vf : Nat := cmdVf s f;
    runsCmd s f opc ∧ f = 0 ∧ namesVf s ∧ List.find? (fun y => y.vf == vf) s.pkg.journal = some aJournal
    ∧ (getVf s f).cmdStep = 3 ∧ opc = 2)
  ∧ (let s : State := journaled (pf 1 64 0 0) 4; let opc : Nat := 1; let f : Nat := argN s 0; let vf : Nat := cmdVf s f;
    runsCmd s f opc ∧ f = 0 ∧ namesVf s ∧ List.find? (fun y => y.vf == vf) s.pkg.journal = some aJournal
    ∧ (getVf s f).cmdStep = 4 ∧ opc = 1)
  ∧ (let s : State := journaled (pf 2 1 0 0) 4; let opc : Nat := 2; let f : Nat := argN s 0; let vf : Nat := cmdVf s f;
    runsCmd s f opc ∧ f = 0 ∧ namesVf s ∧ List.find? (fun y => y.vf == vf) s.pkg.journal = some aJournal
    ∧ (getVf s f).cmdStep = 4 ∧ opc = 2)
  ∧ (let s : State := ev (withVf dState ({ dVf with faccept := 1 })) [1];
    let f : Nat := argN s 0; f ≠ 0 ∧ f ≤ 2048 ∧ featOk s f 11 = false)
  ∧ (let s : State := rerun (pf 16 (2 ^ 21) (2 ^ 21) 0); let opc : Nat := 16; let f : Nat := argN s 0; runsCmd s f opc ∧ f = 0
    ∧ namesVf s ∧ opc = 16 ∧ rerunDue s = true)
  ∧ (let s : State := ev dState [1, 0]; let f : Nat := argN s 0; f ≠ 0 ∧ f ≤ 2048 ∧ switching s f = false ∧ argN s 1 = 0)
  ∧ (let s : State := copying; let f : Nat := argN s 0; f ≠ 0 ∧ f ≤ 2048 ∧ switching s f = false ∧ argN s 1 ≠ 0
    ∧ (resetWaits (dropAllHeld s f) f = true ∨ launchesLeft (dropAllHeld s f) f = true))
  ∧ (let s : State := holding (ev (idle dState) [1, 1]); let f : Nat := argN s 0; let s1 : State := dropAllHeld s f; f ≠ 0 ∧ f ≤ 2048
    ∧ switching s f = false ∧ argN s 1 ≠ 0 ∧ resetWaits s1 f = false ∧ launchesLeft s1 f = false ∧ s1.pkg.hold ≠ 0
    ∧ (getVf s1 f).layout.slots ≠ 0) := by
  and_intros <;> decide +kernel

theorem meets_TeardownEventsTakeEffect :
  (let s : State := ev dState [7, 5]; let v : Nat := argN s 1; let op : Nat := argN s 0;
    let e0 : Scrub := mapGet { : Scrub } s.scrubs op; let k : Nat := argN s 1 % 4096; let x : KeySlot := keySlot s k;
    op ≠ 0 ∧ k ≠ 0 ∧ x.st = 1 ∧ bndOk v = false ∧ Machine.Inv s ∧ e0.st = 1 ∧ e0.next + 8192 < e0.hi)
  ∧ (let s : State := ev (withKey dState 6 { st := 2, owner := 1, gen := 4 : KeySlot }) [7, 6]; let op : Nat := argN s 0;
    let k : Nat := argN s 1 % 4096; let x : KeySlot := keySlot s k; op ≠ 0 ∧ k ≠ 0 ∧ x.st = 2)
  ∧ (let s : State := ev dState [7, 0]; let op : Nat := argN s 0; let k : Nat := argN s 1 % 4096; op ≠ 0 ∧ k = 0)
  ∧ (let s : State := tearing (ev (withKey dState 6 { st := 1, owner := 1, gen := 4 : KeySlot }) [0, 6]) 0;
    let op : Nat := argN s 0; let k : Nat := argN s 1 % 4096; op = 0
    ∧ (s.pkg.teardowns.any fun y => y.key == k && y.step == 0) = true)
  ∧ (let s : State := tearing (ev (withKey dState 6 { st := 2, owner := 1, gen := 4 : KeySlot }) [0, 6]) 2;
    let op : Nat := argN s 0; let k : Nat := argN s 1 % 4096; op = 0 ∧ (∃ y, y ∈ s.pkg.teardowns ∧ y.key = k)
    ∧ (∀ (y : Teardown), y ∈ s.pkg.teardowns → y.key = k → y.step = 2) ∧ admitted s k = false
    ∧ dirtyUnder s k = false)
  ∧ (let s : State := ev (clean2 dState) [7, 2 ^ 21 + 2 ^ 52]; let v : Nat := argN s 1; bndOk v = true
    ∧ bindStatus s (bndVf v) (bndBase v) (bndLen v) = 0)
  ∧ (let s : State := ev (bound2 dState) [7, 2 ^ 21 + 2 ^ 52]; let v : Nat := argN s 1; bndOk v = true
    ∧ releaseStatus s (bndVf v) (bndBase v) (bndLen v) = 0)
  ∧ (let s : State := scrubbing { hi := 8192 : Scrub } [0, 0, 1]; let j : Nat := argN s 1;
    let e : Scrub := mapGet { : Scrub } s.scrubs j; argN s 2 % 2 = 1 ∧ (e.st = 0 ∨ e.st = 2) ∧ scrubRefused s j e = true)
  ∧ (let s : State := scrubbing { lo := 2 ^ 20, hi := 2 ^ 20 + 16384 : Scrub } [0, 0, 1]; let j : Nat := argN s 1;
    let e : Scrub := mapGet { : Scrub } s.scrubs j; argN s 2 % 2 = 1 ∧ (e.st = 0 ∨ e.st = 2) ∧ scrubRefused s j e = false)
  ∧ (let s : State := dirtyKey; let op : Nat := argN s 0; let k : Nat := argN s 1 % 4096; op = 0 ∧ (∃ y, y ∈ s.pkg.teardowns ∧ y.key = k)
    ∧ (∀ (y : Teardown), y ∈ s.pkg.teardowns → y.key = k → y.step = 2) ∧ dirtyUnder s k = true)
  ∧ (let s : State := admittedKey; let op : Nat := argN s 0; let k : Nat := argN s 1 % 4096; op = 0 ∧ (∃ y, y ∈ s.pkg.teardowns ∧ y.key = k)
    ∧ (∀ (y : Teardown), y ∈ s.pkg.teardowns → y.key = k → y.step = 2) ∧ admitted s k = true) := by
  and_intros <;> decide +kernel

theorem meets_PreemptionEventsTakeEffect :
  (let s : State := ev dState [1, 0]; let vf : Nat := argN s 0; let v : Vf := getVf s vf; switching s vf = false
    ∧ v.pre = PreSt.none ∧ v.resident = true)
  ∧ (let s : State := parted (idle dState) dOut [1]; let vf : Nat := argN s 0; let v : Vf := getVf s vf; switching s vf = false
    ∧ v.pre = PreSt.saved 0 ∧ argN s 1 ≠ 2 ∧ (argN s 1 ≠ 3 ∨ v.tstop = true))
  ∧ (let s : State := parted dState sliced [1]; let vf : Nat := argN s 0; let v : Vf := getVf s vf; v.resident = true
    ∧ v.layout.mode = 1 ∧ v.pre = PreSt.none ∧ v.sliceTill = s.mer ∧ nextMember s vf = none)
  ∧ (let s : State := parted dState (dStop 1) [1]; let vf : Nat := argN s 0; let v : Vf := getVf s vf;
    let s1 : State := List.foldl stopParked s (partThreads s vf); v.pre = PreSt.stopping 1 ∧ 1 ≠ 3
    ∧ saveReady s1 vf = false ∧ argN s 1 ≠ 1)
  ∧ (let s : State := parted (idle dState) (dStop 1) [1]; let vf : Nat := argN s 0; let v : Vf := getVf s vf;
    let s1 : State := List.foldl stopParked s (partThreads s vf); v.pre = PreSt.stopping 1 ∧ 1 ≠ 3
    ∧ saveReady s1 vf = true ∧ (1 = 1 ∨ 1 = 2))
  ∧ (let s : State := withVf2 (parted dState sliced [1]) slicedOut; let vf : Nat := argN s 0; let v : Vf := getVf s vf;
    v.resident = true ∧ v.layout.mode = 1 ∧ v.pre = PreSt.none ∧ v.sliceTill = s.mer ∧ nextMember s vf = some 2)
  ∧ (let s : State := parted dState (dStop 0) [1, 3]; let vf : Nat := argN s 0; let v : Vf := getVf s vf; switching s vf = false
    ∧ v.pre = PreSt.stopping 0 ∧ (argN s 1 ≠ 2 ∨ 0 ≠ 1) ∧ argN s 1 = 3)
  ∧ (let s : State := parted dState (dStop 1) [1, 2]; let vf : Nat := argN s 0; switching s vf = false
    ∧ (getVf s vf).pre = PreSt.stopping 1 ∧ argN s 1 = 2)
  ∧ (let s : State := parted dState dOut [1, 3]; let vf : Nat := argN s 0; switching s vf = false
    ∧ (getVf s vf).pre = PreSt.saved 0 ∧ argN s 1 = 3 ∧ (getVf s vf).tstop = false)
  ∧ (let s : State := parted dState (savedFor 1) [1, 2]; let vf : Nat := argN s 0; switching s vf = false
    ∧ (getVf s vf).pre = PreSt.saved 1 ∧ argN s 1 = 2)
  ∧ (let s : State := parted (idle dState) slicedSaved [1]; let vf : Nat := argN s 0; (getVf s vf).pre = PreSt.saved 0
    ∧ (getVf s vf).layout.mode = 1 ∧ hasWork s vf = false ∧ (getVf s vf).picked = false) := by
  and_intros <;> decide +kernel

theorem meets_SupervisorActionsTakeEffect :
  (let s : State := collected { svc := [{ code := 3 : FaultRec }] : Collector } { : Thread } [1];
    let x : Nat × Nat := supTarget s; let col : Nat := argN s 1; let c : Collector := getCol s col;
    let op : Nat := argN s 0; (getCol s op).svc = [{ code := 3 : FaultRec }] ∧ c.input = [] ∧ x.snd ≠ 0)
  ∧ (let s : State := collected { : Collector } frozenTh [0, 1, 8]; let x : Nat × Nat := supTarget s;
    let th : Thread := getTh s x.fst; x.snd = 0 ∧ th.st = ThreadSt.frozen ∧ th.frec.fatal = false
    ∧ isClean s x.fst = true ∧ th.ckpt.mUpto = none ∧ ¬(argN s 3 = 1 ∧ th.fault = 0))
  ∧ (let s : State := collected { : Collector } pendingTh [0, 1, 8]; let x : Nat × Nat := supTarget s;
    let th : Thread := getTh s x.fst; x.snd = 0 ∧ th.st = ThreadSt.frozen ∧ th.frec.fatal = false
    ∧ isClean s x.fst = false)
  ∧ (let s : State := collected { : Collector } fatalTh [0, 1, 8]; let x : Nat × Nat := supTarget s;
    let th : Thread := getTh s x.fst; x.snd = 0 ∧ th.st = ThreadSt.frozen ∧ th.frec.fatal = true)
  ∧ (let s : State := collected { : Collector } aThread [0, 1, 8]; let x : Nat × Nat := supTarget s;
    let th : Thread := getTh s x.fst; x.snd = 0 ∧ th.st ≠ ThreadSt.frozen ∧ th.st = ThreadSt.running)
  ∧ (let s : State := collected { : Collector } { aThread with st := ThreadSt.exited } [0, 1, 8];
    let x : Nat × Nat := supTarget s; let th : Thread := getTh s x.fst; x.snd = 0 ∧ th.st = ThreadSt.exited)
  ∧ (let s : State := collected { : Collector } { frozenTh with fault := 0 } [0, 1, 8, 1]; let x : Nat × Nat := supTarget s;
    let th : Thread := getTh s x.fst; x.snd = 0 ∧ th.st = ThreadSt.frozen ∧ argN s 3 = 1 ∧ th.fault = 0) := by
  and_intros <;> decide +kernel

theorem meets_ResetsAndHoldsTakeEffect :
  (let s : State := holding (ev dState [1]); s.pkg.hold ≠ 0)
  ∧ (let s : State := ev dState [0]; s.pkg.hold = 0 ∧ s.pkg.hold ≠ 2
    ∧ Machine.Inv s ∧ s.pkg.cmdq = []
    ∧ s.pkg.journal = [] ∧ s.pkg.teardowns = [])
  ∧ (let s : State := ev dState [0]; bootOk s = true ∧ argN s 1 = 0)
  ∧ (let s : State := unbooted; bootOk s = false)
  ∧ (let s : State := ev dState [0, 1]; argN s 1 = 1)
  ∧ (let s : State := ev dState [0, 2]; 2 ≤ argN s 1) := by
  and_intros <;> decide +kernel

theorem meets_ResetState :
  (let k : Nat := 7; k ≠ 0)
  ∧ (let j : Nat := 0; j < 8) := by
  and_intros <;> decide +kernel

theorem meets_DecodeOfEncode :
  (let b : Bundle := { sp := true : Bundle }; b.wellFormed = true)
  ∧ (let i : Instr := Instr.vadd { d := 47, ty := 10 : VOp }; wellFormed i = true ∧ (opcodeOf i).isSome = true) := by
  and_intros <;> decide +kernel

theorem meets_LocalSpacesAreDisjoint :
  (let s : State := twoParts; let u : Nat := 1; let v : Nat := 1; let die : Nat := 1; let core : Nat := 1; let x : Nat := 1;
    let y : Nat := 1; core < 256 ∧ 8 * x < localSize s u ∧ 8 * y < localSize s v ∧ u = v
    ∧ localWord s u die core x = localWord s v die core y)
  ∧ (let s : State := twoParts; let u : Nat := 1; let v : Nat := 2; let core : Nat := 1; let x : Nat := 1; let y : Nat := 1;
    core < 256 ∧ 8 * x < localSize s u ∧ 8 * y < localSize s v
    ∧ (∀ (k : Nat), k < 8 → ¬(maskHas (slotsOf s u) k = true ∧ maskHas (slotsOf s v) k = true)))
  ∧ (let s : State := twoParts; let u : Nat := 1; let v : Nat := 1; let core : Nat := 1; let x : Nat := 1; let y : Nat := 1;
    core < 256 ∧ 8 * x < localSize s u ∧ 8 * y < localSize s v) := by
  and_intros <;> decide +kernel


theorem meets_ScalarResultLands_order :
  (let s : State := w1; (∀ p ∈ (curTh s).pend, p.due < s.mer + 8 * 2 ∧ p.due < s.mer + 8 * (1 + 2))
    ∧ s.mer + 8 * 3 ≤ s.mer + 8 * (1 + 2) ∧ s.mer + 8 * 2 < s.mer + 8 * (1 + 2))
  ∧ (let s : State := w1; (∀ p ∈ (curTh s).pend, p.due < s.mer + 8 * 31 ∧ p.due < s.mer + 8 * (1 + 1))
    ∧ s.mer + 8 * (1 + 1) < s.mer + 8 * 31) := by
  and_intros <;> decide +kernel

theorem meets_VectorResultLands_order :
  (let s : State := v1; let m : Nat := 3; let n : Nat := 6;
    (∀ p ∈ (curTh s).pend, p.due < s.mer + 8 * 2 ∧ p.due < s.mer + 8 * (1 + 2)) ∧ s.mer + 8 * 2 ≤ s.mer + 8 * (1 + 2)
    ∧ n.testBit 1 = true ∧ n.testBit 0 = false ∧ m.testBit 0 = true)
  ∧ (let s : State := v1; let m : Nat := 3; let n : Nat := 6;
    (∀ p ∈ (curTh s).pend, p.due < s.mer + 8 * 5 ∧ p.due < s.mer + 8 * (1 + 2)) ∧ s.mer + 8 * (1 + 2) < s.mer + 8 * 5
    ∧ m.testBit 0 = true ∧ n.testBit 1 = true ∧ m.testBit 2 = false ∧ n.testBit 2 = true) := by
  and_intros <;> decide +kernel

theorem meets_TakingExceptions_turn :
  (let s : State := w1; (curTh s).trapNow = none ∧ (curTh s).br = none ∧ s.cur < 2 ^ 14 ∧ brkArmed s s.cur = false)
  ∧ (let s : State := armed (slotted 1); let b : Branch := { tgt := 9, left := 1, rot := none };
    (curTh s).trapNow = none ∧ brkArmed s s.cur = true ∧ (curTh s).br = some b ∧ b.left ≤ 1)
  ∧ (let s : State := armed (slotted 2); let b : Branch := { tgt := 9, left := 2, rot := none };
    (curTh s).trapNow = none ∧ brkArmed s s.cur = true ∧ (curTh s).br = some b ∧ 1 < b.left) := by
  and_intros <;> decide +kernel

theorem meets_ThreadControlAndTiles_sync :
  (let s : State := synced [(0, syncTh 2), (8, syncTh 2)]; let l : Nat := 1; let d : Nat := 2;
    let ms := (getLaunch s l).members.filter fun t =>
      (getTh s t).lid == l && (getTh s t).st != .exited && (getTh s t).st != .empty;
    (getLaunch s l).members.Nodup ∧ ms ≠ [] ∧ 16 ∉ ms
    ∧ (∀ t ∈ ms, Park.sync d ∈ (getTh s t).parks ∧ (getTh s t).st = .parked ∧ (getTh s t).parks = [.sync d]
      ∧ (getTh s t).wasParked = []))
  ∧ (let s : State := synced [(0, syncTh 2), (8, syncTh 3)]; let l : Nat := 1; let d : Nat := 2;
    let ms := (getLaunch s l).members.filter fun t =>
      (getTh s t).lid == l && (getTh s t).st != .exited && (getTh s t).st != .empty;
    (getLaunch s l).members.Nodup ∧ ∃ t ∈ ms, Park.sync d ∉ (getTh s t).parks)
  ∧ (let ntile : List Nat := [3, 1024, 1, 5]; let perm : List Nat := [1, 0, 3]; perm.Nodup
    ∧ (∀ p ∈ perm, p < 6 ∧ 1 ≤ ntile.getD p 1 ∧ ntile.getD p 1 ≤ 1024) ∧ 2 < perm.length ∧ 5 < 6 ∧ 5 ∉ perm) := by
  and_intros <;> decide +kernel

theorem meets_EndOfTurn_parks :
  (let s : State := aState runTh; let th := curTh s; let b : Bundle := {}; th.trapNow = none ∧ s.mer % 8 = s.cur % 8
    ∧ th.nextTurn ≤ s.mer + 8 ∧ th.exiting = false ∧ th.br = none ∧ th.st = .running ∧ th.parks = [] ∧ b.sw = false
    ∧ b.sp = false ∧ th.pend = [])
  ∧ (let s : State := aState runTh; let b : Bundle := { sp := true }; b.sp = true ∧ (curTh s).trapNow = none
    ∧ ¬ ((∃ p ∈ (curTh s).pend, s.mer < p.due) ∨ (∃ q ∈ (curTh s).mq, s.mer < q.f) ∨ ∃ o ∈ peerLoads s s.cur, s.mer < o.c + 24))
  ∧ (let s : State := aState busyTh; let b : Bundle := { sw := true }; b.sw = true ∧ b.sp = false ∧ (curTh s).trapNow = none
    ∧ ((∃ p ∈ (curTh s).pend, s.mer < p.due) ∨ (∃ q ∈ (curTh s).mq, s.mer < q.f) ∨ ∃ o ∈ peerLoads s s.cur, s.mer < o.c + 24))
  ∧ (let s : State := aState runTh; let x : Branch := { tgt := 16, left := 1, rot := none }; x.left ≤ 1
    ∧ x.tgt = (getLaunch s (curTh s).lid).klen ∧ (curTh s).st = .running ∧ (curTh s).parks = []
    ∧ nothingInFlight s s.cur = true)
  ∧ (let s : State := aState busyTh; let x : Branch := { tgt := 16, left := 0, rot := none }; x.left ≤ 1
    ∧ x.tgt = (getLaunch s (curTh s).lid).klen ∧ (curTh s).st = .running ∧ (curTh s).parks = []
    ∧ nothingInFlight s s.cur = false)
  ∧ (let s : State := leaving 9 runTh; let x : Branch := { tgt := 9, left := 0, rot := none }; (curTh s).br = some x
    ∧ x.left = 0 ∧ x.tgt ≠ (getLaunch s (curTh s).lid).klen ∧ (curTh s).exiting = false) := by
  and_intros <;> decide +kernel

/-- A bundle whose slot V reads registers 1 and 7, both of bank 1. -/
def aRead : Bundle := { sV := .vadd { d := 3, a := 1, b := 7, c := 0, p := 0, ty := 0 } }
theorem meets_EndOfTurn_banks :
  (let l : List Nat := [1, 7]; l.Nodup ∧ (∀ r ∈ l, ∃ i ∈ bundleSlots aRead, ∃ v ∈ (usesOf i).vs, r = physV aVec.rrb v)
    ∧ ∀ r ∈ l, ∀ q ∈ l, r % 6 = q % 6)
  ∧ (∀ i ∈ bundleSlots {}, (usesOf i).vs = [])
  ∧ (let lanes : List (Nat × Int) := [(0, 0), (1, 64)]; let l : List Nat := [0, 8]; lanes ≠ [] ∧ l.Nodup
    ∧ (∀ w ∈ l, ∃ y ∈ lanes, w = y.2.toNat / 8) ∧ ∀ w ∈ l, ∀ v ∈ l, w % (8 * slotCount l1 1) = v % (8 * slotCount l1 1)) := by
  and_intros <;> decide +kernel

theorem meets_MatrixEventsTakeEffect_values :
  (let q : MCmd := cmd .mhad; q.kind = .mhad)
  ∧ (let q (k : MKind) (g : Nat) : MCmd := { cmd k with fn := g, row := 31, phys := 47 };
    (q .mdrain 0).fn % 8 = 0 ∧ (q .mdrain 1).fn % 8 = 1 ∧ (q .mdrain 2).fn % 8 = 2 ∧ 3 ≤ (q .mdrain 3).fn % 8
    ∧ (q .mdrain 5).fn % 8 < 6)
  ∧ (let q : MCmd := { cmd .mdrainv with fn := 1, row := 31, phys := 47 }; q.row < 32 ∧ q.fn % 8 = 1 ∧ q.kind = .mdrainv
    ∧ q.phys < 48 ∧ ∀ p ∈ mth.pend, p.due < q.f)
  ∧ (let q (g : Nat) : MCmd := { cmd .mdrainv with fn := g }; (q 0).fn % 8 = 0 ∧ (q 2).fn % 8 = 2) := by
  and_intros <;> decide +kernel

/-- The code that a check names, if it fails. -/
def codeOf (r : Option Trap) : Nat := (r.map (·.code)).getD 0
theorem meets_IssueChecksTakeFaults_matrix :
  (let s : State := m1; ((curTh s).mq.filter fun q => decide (s.mer < q.f)).length < 4
    ∧ (∀ z ∈ [false, true], ∀ p ∈ [false, true], (checkCmd s s.cur (queuedAs s
        { cmd (.mma z p) with id := 0, m0 := 0, last := 0, f := 0, addrA := 64, addrB := 128, nb := 0 })).isSome = true)
    ∧ ∀ k ∈ [MKind.mdrain, .mldacc, .mstacc], (checkCmd s s.cur (queuedAs s
        { cmd k with id := 0, m0 := 0, last := 0, f := 0, addrA := 8 })).isSome = true)
  ∧ (let q : MCmd := mcmd 0 0 800 900; q.m0 < q.f ∧ codeOf (checkCmd m1 0 q) = 0x0A)
  ∧ (let q : MCmd := mcmd 8 1 800 900; q.m0 < q.f ∧ q.nb ≠ 0 ∧ q.nb ≤ 256 ∧ codeOf (checkCmd m1 0 q) = 4)
  ∧ (let q : MCmd := mcmd (2 ^ 20) 256 800 900; q.m0 < q.f ∧ q.nb ≤ 256 ∧ codeOf (checkCmd m1 0 q) = 3)
  ∧ (let q : MCmd := mcmd 8128 1 1279 1280; q.m0 < q.f ∧ codeOf (checkCmd m1 0 q) = 7)
  ∧ (let q : MCmd := { mcmd 0 1 800 900 with addrB := 64, srcB := 0 }; q.m0 < q.f
    ∧ codeOf (checkCmd { raced with wacts := [] } 0 q) = 5)
  ∧ (let q : MCmd := mcmd 8192 1 1280 1290; q.m0 < q.f ∧ checkCmd m1 0 q = none) := by
  and_intros <;> decide +kernel

theorem meets_IssueChecksTakeFaults_accesses :
  (let s : State := m1; let size : Int := localSize s (curTh s).vf; let x : Access0 := { access true false false with core := coreOf s.cur };
    (checkAcc s s.cur x size [(0, 65)]).isSome = true
    ∧ (checkAcc s s.cur { x with n := 64 } size [(0, 65)]).isSome = true
    ∧ (checkAcc s s.cur { x with rd := false, wr := true } size [(0, -8)]).isSome = true
    ∧ (checkAcc s s.cur { x with cycle := s.mer + 4, poisonNow := false } (2 ^ 20) [(0, 2 ^ 20)]).isSome = true
    ∧ (checkWeight s s.cur 8 1).isSome = true ∧ (checkWeight s s.cur 64 8).isSome = true)
  ∧ (let s : State := m1; let o : LAOp := { lo 4 5 0 with a := 4 }; predOn (curTh s) o.p = true)
  ∧ (let a : Int := 65; a % (8 : Nat) ≠ 0)
  ∧ (let s : State := m1; let a : Int := -8; a % (8 : Nat) = 0 ∧ a < 0 ∧ 2 ^ 19 = weightSize s 1 0)
  ∧ (let s : State := checked 8; let a : Int := 64; a % (8 : Nat) = 0 ∧ 0 ≤ a ∧ s.mer % 65536 ≤ 1024 * (a.toNat / 8192 % 64) + 255)
  ∧ (let s : State := { m1 with poison := [(weightAddr m1 1 0 64 / 8, true)] };
    1024 * ((64 : Int).toNat / 8192 % 64) + 255 < s.mer % 65536
    ∧ ∃ w ∈ localWords 64 8, poisoned s (weightAddr s 1 0 (8 * w) / 8) = true)
  ∧ (let s : State := m1; ∀ w ∈ localWords 64 8, poisoned s (weightAddr s 1 0 (8 * w) / 8) = false) := by
  and_intros <;> decide +kernel

theorem meets_IssueChecksTakeFaults_lanes :
  (let l : List (Nat × Int) := [(0, 0), (3, 65)]; l.find? (fun y => decide (y.2 % ((8 : Nat) : Int) ≠ 0)) = some (3, 65))
  ∧ (let l : List (Nat × Int) := [(0, 0), (5, -8)]; let out (a : Int) : Bool := decide (a < 0 ∨ 2 ^ 18 ≤ a);
    (∀ y ∈ l, y.2 % ((8 : Nat) : Int) = 0) ∧ l.find? (fun y => out y.2) = some (5, -8))
  ∧ (let l : List (Nat × Int) := [(3, 64)]; l.find? (fun y => meetsRmw reserved 1 (access true false false) (y.2.toNat % 2 ^ 18))
    = some (3, 64))
  ∧ (let l : List (Nat × Int) := [(0, 0), (3, 64)]; let x : Access0 := access true false false;
    (∀ y ∈ l, meetsRmw struckWord 1 x (y.2.toNat % 2 ^ 18) = false)
    ∧ l.find? (fun y => x.rd && x.poisonNow && (accWords struckWord 1 x (y.2.toNat % 2 ^ 18)).any (poisoned struckWord))
      = some (3, 64))
  ∧ (let l : List (Nat × Int) := [(0, 0), (3, 64)]; let x : Access0 := access true false false;
    (∀ y ∈ l, meetsRmw raced 1 x (y.2.toNat % 2 ^ 18) = false ∧ (accWords raced 1 x (y.2.toNat % 2 ^ 18)).any (poisoned raced) = false)
    ∧ l.find? (fun y => meetsRace raced 0 1 x (y.2.toNat % 2 ^ 18)) = some (3, 64))
  ∧ (let l : List (Nat × Int) := [(3, 64)]; let x : Access0 := access true false false;
    ∀ y ∈ l, meetsRmw l1 1 x (y.2.toNat % 2 ^ 18) = false ∧ (accWords l1 1 x (y.2.toNat % 2 ^ 18)).any (poisoned l1) = false
      ∧ meetsRace l1 0 1 x (y.2.toNat % 2 ^ 18) = false) := by
  and_intros <;> decide +kernel

theorem meets_RoundingAndNaNs_values :
  (let n : Nat := 5; let d : Nat := 2; 0 < d ∧ n % d ≠ 0)
  ∧ (let n : Nat := 4; let d : Nat := 2; 0 < d ∧ n % d = 0)
  ∧ (let D : Nat := 2 ^ 40 - 1; let k : Nat := 40; D % 2 = 1 ∧ D < 2 ^ k ∧ 1 ≤ k ∧ 7 < 2 ^ 32)
  ∧ (∃ f, (f = f32 ∨ f = bf16 ∨ f = f16) ∧ valF f 0x3F80 = .fin false (2 ^ f.p + 896) (-10) ∧ (1 : Nat) < 4)
  ∧ (∃ ty, fmtOf ty = f32 ∧ 8 ≤ ty ∧ ty ≤ 10)
  ∧ (FV.nan ∈ [FV.nan] ∧ ∀ v ∈ [FV.fin true 0 0], ∃ n e, v = .fin n 0 e)
  ∧ (let xs : List FV := [.fin false 3 2, .fin true 0 9]; let X : Int := 3;
    (∀ v ∈ xs, ∃ n m e, v = .fin n m e ∧ (m ≠ 0 → (Nat.log2 m : Int) + e ≤ X)) ∧ -127 ≤ X
    ∧ (∃ n m e, FV.fin n m e ∈ xs ∧ m ≠ 0 ∧ (X = -127 ∨ (Nat.log2 m : Int) + e = X)) ∧ xs[1]? = some (.fin true 0 9)) := by
  refine ⟨by decide, by decide, by decide, ⟨f16, by decide, by decide +kernel, by decide⟩, ⟨8, by decide, by decide, by decide⟩,
    ⟨by decide, ?_⟩, ?_, by decide, ⟨false, 3, 2, by decide, by decide, by decide⟩, by decide⟩
  · intro v h
    exact ⟨true, 0, List.mem_singleton.mp h⟩
  · intro v h
    rcases List.mem_cons.mp h with rfl | h
    · exact ⟨false, 3, 2, rfl, by decide⟩
    · exact ⟨true, 0, 9, List.mem_singleton.mp h, by decide⟩

theorem meets_GateInstructionsAndHandles_read :
  (let s : State := e3Full; let o : XOp := xo 8 1; predOn (curTh s) o.p = true ∧ 8 ≤ (curTh s).e3.length)
  ∧ (let s : State := lgate; let o : XOp := xo 1 1; predOn (curTh s) o.p = true
    ∧ (checkHandle s (curTh s).vf (rdS (curTh s) o.a).toNat 2).isSome = true ∧ (curTh s).e3.length < 8) := by
  and_intros <;> decide +kernel

theorem meets_LinkEventsTakeEffect_packets :
  (let s : State := failing (linked [0, 4096, 5, 0]) [4096]; maskHas (foffer s) 10 = true ∧ insecure s (argN s 5) = false
    ∧ paOk s 0 4096 = true ∧ closedGranule s 4096 = false ∧ argN s 0 = 0 ∧ packetFails s 4096 = true)
  ∧ (let s : State := cxlCut [0, 4096, 5, 0, 0, 5]; insecure s (argN s 5) = true)
  ∧ (let s : State := linked [0, 2 ^ 38, 5, 0]; argN s 0 = 0 ∧ insecure s (argN s 5) = false ∧ paOk s 0 (2 ^ 38) = false)
  ∧ (let s : State := withArgs packets [7, 3, 9]; argN s 0 = 7 ∧ hasOp s 3 = true ∧ (getOp s 3).parts.length ≤ 9)
  ∧ (let s : State := linked [9, 4096]; argN s 0 = 9) := by
  and_intros <;> decide +kernel

theorem meets_NodeEventsTakeEffect_deterministic :
  (let s : State := looping false { ty := 0, st := .ready, base := 9000 } [4, 0]; let x := getGraph s 4; let nd := nodeOf x 0;
    nd.st = .ready ∧ x.failed = false ∧ holdsNode s x nd = false ∧ nd.ty ≠ 1 ∧ loopWaits x 0 = true ∧ x.det = false)
  ∧ (let s : State := looping true { ty := 0, st := .ready, base := 9000 } [4, 0]; let x := getGraph s 4; let nd := nodeOf x 0;
    nd.st = .ready ∧ x.failed = false ∧ holdsNode s x nd = false ∧ nd.ty ≠ 1 ∧ loopWaits x 0 = true ∧ x.det = true)
  ∧ (let s : State := detAt { ty := 0, st := .ready, base := 700 } [4, 0]; let x := getGraph s 4; let nd := nodeOf x 0;
    nd.st = .ready ∧ holdsNode s x nd = false ∧ wstWaits s 4 0 = false ∧ loopWaits x 0 = false ∧ x.det = true
    ∧ nd.base + nd.off < s.mer)
  ∧ (let s : State := detAt { ty := 0, st := .ready, base := 800 } [4, 0]; let x := getGraph s 4; let nd := nodeOf x 0;
    nd.st = .ready ∧ holdsNode s x nd = false ∧ wstWaits s 4 0 = false ∧ loopWaits x 0 = false ∧ s.mer ≤ nd.base + nd.off)
  ∧ (let s : State := detAt wstCopy [4, 0, 9000, 0]; let nd := nodeOf (getGraph s 4) 0;
    s.graphs.any (fun y => y.1 == 4) = true ∧ nd.base = argN s 2 ∧ (getVf s 1).resident = true ∧ argN s 3 ≠ 1
    ∧ nd.ty ≠ 1 ∧ wstWaits s 4 0 = true)
  ∧ (let s : State := { detAt wstCopy [4, 0, 9000, 0] with launches := [] }; let nd := nodeOf (getGraph s 4) 0;
    nd.st ≠ .pending ∧ nd.base = argN s 2 ∧ wstWaits s 4 0 = false ∧ toWeights nd = true)
  ∧ (let s : State := { imaged with lines := mapSet {} imaged.lines 64 { clean := false, key := 5, bad := 1 } };
    (getGraph s 4).nodes = [] ∧ (getGraph s 4).started = false) := by
  and_intros <;> decide +kernel

theorem meets_MaskEventsAndRepliesTakeEffect_poison :
  (let s : State := rq (privOp 0x3C (2 ^ 38) (2 ^ 38) 0 5) [3, 0]; let o := getOp s 3; hasOp s 3 = true ∧ o.thread = some 0
    ∧ argN s 1 ≠ 1 ∧ o.opc = 0x3C ∧ o.b / 2 ^ 62 = 0 ∧ paOk s 0 o.a = false)
  ∧ (let s : State := rq (privOp 0x3D 8192 8192 0 5) [3, 0]; let o := getOp s 3; hasOp s 3 = true ∧ o.thread = some 0
    ∧ argN s 1 ≠ 1 ∧ o.opc = 0x3D ∧ o.b / 2 ^ 62 = 0 ∧ closedGranule s o.a = true ∧ paOk s 0 o.a = true)
  ∧ (let s : State := noScrub (rq { privOp 0x3C 4096 4096 0 5 with crc := true } [3, 0]); let o := getOp s 3;
    hasOp s 3 = true ∧ o.thread = some 0 ∧ argN s 1 ≠ 1 ∧ o.opc = 0x3C ∧ closedGranule s o.a = false ∧ paOk s 0 o.a = true
    ∧ readLine s o.a o.n 8 = .ok 0 false ∧ o.crc = true) := by
  and_intros <;> decide +kernel

theorem meets_PreemptionEventsTakeEffect_frozen :
  (let s : State := tstopped (dStop 3) [1, 0]; let v := getVf s 1; v.pre = .stopping 3 ∧ v.tstop = true)
  ∧ (let s : State := tstopped saved [1, 3]; let v := getVf s 1; switching s 1 = false ∧ v.pre = .saved 0 ∧ argN s 1 = 3
    ∧ v.tstop = true)
  ∧ (let s : State := parted dState saved [1, 3]; let v := getVf s 1; switching s 1 = false ∧ v.pre = .saved 0 ∧ argN s 1 = 3
    ∧ v.tstop = false) := by
  and_intros <;> decide +kernel

theorem meets_ResetsAndHoldsTakeEffect_holds :
  (let s : State := holding dState; s.pkg.hold ≠ 0 ∧ s.pkg.trip = false
    ∧ ∀ e ∈ (raiseMsix (modVf s 1 fun x => { x with tstop := true }) 1 2).vfs, e.2.layout.slots ≠ 0 → e.2.tstop = true)
  ∧ (let s : State := dState; s.pkg.hold = 0)
  ∧ (let s : State := { dState with graphs := [] }; s.graphs = [] ∧ s.pkg.teardowns = [])
  ∧ (let l : List Node := [onDie 0 1 .running, onDie 0 2 .running]; let s : State := { graphOn l with ops := [] };
    s.pkg.teardowns = [] ∧ (getGraph s 4).failed = false ∧ (∀ e ∈ s.ops, e.2.node = none)
    ∧ (∀ n ∈ l, n.die ≠ 2) ∧ (∃ n ∈ l, n.die = 0) ∧ ∃ n ∈ l, n.st = .running ∧ n.ty = 1)
  ∧ (let l : List Node := [onDie 1 1 .ready, onDie 0 2 .running]; let s : State := { graphOn l with ops := [] };
    let x := getGraph s 4; (∀ n ∈ l, ¬ (n.st = .running ∧ n.ty = 1)) ∧ x.started = true ∧ x.recs = 0 ∧ x.cpladdr ≠ 0
    ∧ x.mute = false ∧ (getVf s x.vf).tstop = false ∧ linkCut s x.vf = false) := by
  and_intros <;> decide +kernel

theorem meets_SupervisorActionsTakeEffect_queues :
  (let e : FaultRec := xlate 4096 1; let r : FaultRec := xlate 4096 2;
    (getCol (queued [({ code := 3 }, false), (e, false)] [] 0) 1).queue = [({ code := 3 }, false)] ++ (e, false) :: []
    ∧ (∀ y ∈ [(({ code := 3 } : FaultRec), false)], y.1.code ≠ 0x20) ∧ e.code = 0x20 ∧ r.code = 0x20 ∧ e.vf = r.vf
    ∧ e.cause = r.cause ∧ e.addr = r.addr)
  ∧ (let plain (s : State) : Nat := ((getCol s 1).queue.filter fun e => !e.2).length;
    let kept (s : State) : Nat := ((getCol s 1).queue.filter fun e => e.2).length;
    plain (queued [] [] 0) < 60 ∧ 60 ≤ plain (queued sixty [] 0) ∧ kept (queued sixty [] 0) < 4
    ∧ 60 ≤ plain (queued (sixty ++ keptFour) [] 0) ∧ 4 ≤ kept (queued (sixty ++ keptFour) [] 0)
    ∧ (∀ e ∈ (getCol (queued (sixty ++ keptFour) [] 0) 1).queue, e.1.code ≠ 0x20)
    ∧ (getCol (queued (sixty ++ keptFour) [] 0) 1).input = [])
  ∧ (fatal.code = 0x08 ∧ ({ code := 0x22 } : FaultRec).code = 0x22 ∧ ({ code := 3 } : FaultRec).code ≠ 0x20)
  ∧ ((getCol (queued [] [{ code := 3 }] 0) 1).input ≠ [] ∧ (getCol (queued [] [] 77) 1).ovf ≠ 0
    ∧ (getCol (queued [] [] 0) 1).ovf = 0)
  ∧ (8 ∈ partThreads (queued [] [] 0) 1 ∧ (getTh (queued [] [] 0) 8).st = .running)
  ∧ (xlate 4096 (2 ^ 64 - 1)).d5 < 2 ^ 64 := by
  and_intros <;> decide +kernel

theorem meets_SupervisorActionsTakeEffect_actions :
  (let s : State := actedOn frozenTh; (getTh s 8).broken = none ∧ (getTh s 8).wasParked = [] ∧ (getTh s 8).frec.dsl = 0)
  ∧ (let s : State := actedOn { frozenTh with wasParked := [.gate 4], frec := { code := 3, dsl := 2 } };
    (getTh s 8).broken = none ∧ (getTh s 8).wasParked = [.gate 4] ∧ (getTh s 8).frec.dsl ≠ 0 ∧ (∀ d, Park.gate 4 ≠ .sync d)
    ∧ ∀ n, Park.gate 4 ≠ .sleep n)
  ∧ (let s : State := actedOn { frozenTh with wasParked := [.sync 2] }; (getTh s 8).broken = none
    ∧ (getTh s 8).wasParked = [.sync 2])
  ∧ (let s : State := actedOn frozenTh; ∃ q, (lword, q) ∈ (restartTh s 8).feq)
  ∧ (let s : State := actedOn { runTh with br := some { tgt := 9, left := 2, rot := none } };
    (getTh s 8).br = some { tgt := 9, left := 2, rot := none })
  ∧ ((getTh (actedOn runTh) 8).br = none)
  ∧ (let s : State := actedOn runTh; let x := getLaunch s 1; x.done = false ∧ x.killed = none ∧ x.members ≠ []
    ∧ 8 ∈ x.members ∧ (getTh s 8).lid = 1 ∧ (getTh s 8).st ≠ .empty ∧ 16 ∉ x.members)
  ∧ (let s : State := actedOn runTh; (getLaunch s 2).members = []) := by
  and_intros
  all_goals first
    | decide +kernel
    | exact fun _ h => Park.noConfusion h
    | exact ⟨[{ putter with t := 0 }], by decide +kernel⟩

theorem meets_SupervisorActionsTakeEffect_replays :
  (let o := getOp (holds heldOp runTh) 3; o.held = some 4096 ∧ o.retry = .nop ∧ o.watching = false)
  ∧ (let o := getOp (holds { heldOp with retry := .nodeStart } runTh) 3; o.held = some 4096 ∧ o.retry ≠ .nop)
  ∧ (let s : State := holds heldOp runTh; s.ops = [(3, heldOp)] ∧ heldOp.vf = 1 ∧ heldOp.sub = 0 ∧ heldOp.held = some 4096
    ∧ (4096 : Nat) ≤ 4096 ∧ 4096 < 4096 + 64)
  ∧ (∀ e ∈ (holds { heldOp with held := none } runTh).ops, e.2.held = none)
  ∧ (let s : State := holds heldOp runTh; let o := getOp s 3; o.thread = some 8 ∧ o.lid = some 1 ∧ o.node = none
    ∧ o.kind ≠ .engine ∧ (getLaunch s 1).killed = none ∧ ∃ u ∈ (getLaunch s 1).members, (getTh s u).st ≠ .exited)
  ∧ (let s : State := { holds heldOp { runTh with st := .exited } with launches := [(1, { aLaunch with members := [8] })] };
    ∀ u ∈ (getLaunch s 1).members, (getTh s u).lid = 1 ∧ (getTh s u).st = .exited)
  ∧ (let o : Op := { heldOp with thread := none, node := some (4, 0) }; o.thread = none ∧ o.node = some (4, 0) ∧ o.kind ≠ .engine)
  ∧ (let o : Op := { heldOp with thread := none, kind := .engine }; o.thread = none ∧ o.kind = .engine) := by
  and_intros <;> decide +kernel

end Sys2Proof.Tests
end

section
/-! SUPPORT. The turn of a thread, from the choice that picks it to the slots of its bundle (01 R7; 02 R36, R53 to R66; 11 R282
to R292). -/

namespace Sys2Proof.Machine

/-- The state in which thread t has its turn (R55, R56): it is the current thread and what is due has landed. -/
def atItsTurn (s : State) (t : Nat) : State :=
  modTh { s with cur := t } t fun th => drainDue (landUpto th s.mer) s.mer

/-- A thread whose turn goes on to a bundle: it runs or is parked, does not exit, and is not asked to stop. -/
def MayIssue (th : Thread) : Prop :=
  (th.st = .running ∨ th.st = .parked) ∧ th.exiting = false ∧ th.stopAsked = false

theorem exec_bundleIssue_noContext {s : State} (h : slotidOk (argN s 0) = false) :
    exec .bundleIssue s = .fault (.noContext (argN s 0)) := by
  show execBundleIssue s = _
  simp [execBundleIssue, h]

theorem exec_bundleIssue {s : State} (h : slotidOk (argN s 0) = true) :
    exec .bundleIssue s = .next (turn s (argN s 0)) := by
  show execBundleIssue s = _
  simp [execBundleIssue, h]

theorem step_of_turn {s : State} {d : Due} {t : Nat} (hd : nextDue s = some d) (hp : d.pick = .turn t) :
    step s = exec .bundleIssue (ready s d) := by
  simp [step, hd, hp, pickInstr]

theorem argN_ready_turn {s : State} {d : Due} {t : Nat} (hp : d.pick = .turn t) : argN (ready s d) 0 = t := by
  simp [ready, takePick, hp, argN]

/-- The bundle at the pc of thread t: the turn's last part, of a thread that may issue. -/
def meetBundle (s : State) (t : Nat) : State :=
  let th := getTh s t
  let w := fetchBundle s t
  if kernelLen s th ≤ th.pc then raiseTrap s { code := 0x03, addr := kernelLen s th }
  else
    match decodeFor s t w with
    | .error r => raiseTrap (reachBad s t w) (rejectTrap w r)
    | .ok b =>
      match beforeParks s t b with
      | p :: ps => parkBefore s t (p :: ps)
      | [] =>
        if b.sp && isStopping (reachBundle s t b) th.vf then stopAtSafe (reachBundle s t b) t
        else issueBundle (reachBundle s t b) t b

theorem turn_of_mayIssue {s : State} {t : Nat} (hm : MayIssue (getTh (atItsTurn s t) t)) :
    turn s t = meetBundle (atItsTurn s t) t := by
  obtain ⟨hst, hex, hstop⟩ := hm
  have hrun : ¬((getTh (atItsTurn s t) t).st ≠ .running ∧ (getTh (atItsTurn s t) t).st ≠ .parked) :=
    fun ⟨hnr, hnp⟩ => hst.elim hnr hnp
  unfold turn
  unfold atItsTurn at *
  generalize (modTh { s with cur := t } t fun th => drainDue (landUpto th s.mer) s.mer) = s1 at *
  simp only [if_neg hrun, hex, hstop, Bool.false_eq_true, if_false] <;> rfl

theorem meetBundle_past_kernel {s : State} {t : Nat} (hk : kernelLen s (getTh s t) ≤ (getTh s t).pc) :
    meetBundle s t = raiseTrap s { code := 0x03, addr := kernelLen s (getTh s t) } := by
  simp only [meetBundle, if_pos hk]

theorem meetBundle_rejected {s : State} {t : Nat} {x : Reject} (hk : (getTh s t).pc < kernelLen s (getTh s t))
    (hx : decodeFor s t (fetchBundle s t) = .error x) :
    meetBundle s t = raiseTrap (reachBad s t (fetchBundle s t)) (rejectTrap (fetchBundle s t) x) := by
  simp only [meetBundle, if_neg (Nat.not_le.2 hk), hx]

/-- A bundle that decodes, with no park before it, is reached (R287), and issues unless its safe point stops the thread. -/
theorem meetBundle_reached {s : State} {t : Nat} {b : Bundle} (hk : (getTh s t).pc < kernelLen s (getTh s t))
    (hb : decodeFor s t (fetchBundle s t) = .ok b) (hparks : beforeParks s t b = [])
    (hgo : b.sp = false ∨ isStopping (reachBundle s t b) (getTh s t).vf = false) :
    meetBundle s t = issueBundle (reachBundle s t b) t b := by
  have hgo' : (b.sp && isStopping (reachBundle s t b) (getTh s t).vf) = false := by
    rcases hgo with h | h <;> simp [h]
  simp only [meetBundle, if_neg (Nat.not_le.2 hk), hb, hparks, hgo', Bool.false_eq_true, if_false]

theorem getTh_reachBundle_vf (s : State) (t : Nat) (b : Bundle) : (getTh (reachBundle s t b) t).vf = (getTh s t).vf := by
  rw [reachBundle, getTh_modTh]
  split <;> rfl

/-- A bundle with neither a deferred POISON nor an overdue safe point runs its slots, with the latches clear at a safe point
(R66, R289, R290): their effects and the end of the turn, or the exception of the first that faults. -/
theorem issueBundle_runs {s : State} {t : Nat} {b : Bundle} (hdef : dueDeferred s t = none)
    (hsp : b.sp = true ∨ (getTh s t).spcnt.toNat < (getLaunch s (getTh s t).lid).spmax) :
    let slots := runSlots b (if b.sp then modTh s t clearLatches else s)
    (∀ s', slots = .ok s' →
      issueBundle s t b = endTurn b (getTh s t).br (bankCost (getTh s t) b + strideCost s t b.sL) s')
    ∧ ∀ e, slots = .error e → issueBundle s t b = raiseTrap s e := by
  have hdue : ¬((!b.sp) = true ∧ (getLaunch s (getTh s t).lid).spmax ≤ (getTh s t).spcnt.toNat) := by
    rcases hsp with h | h
    · simp [h]
    · exact fun hover => absurd hover.2 (Nat.not_le.2 h)
  constructor <;> intro _ h <;> simp only [issueBundle, hdef, if_neg hdue, h]

/-- Settles O31: the turn is that of the thread picked, and goes through decode, the parks and the safe point to the slots. -/
theorem stepIssuesTheDecodedBundle : Obligations.StepIssuesTheDecodedBundle := by
  intro s d t b hd hp hslot r s1 th hst hex hstop hk hb hparks s2 th2 s3 hgo hdef hsp
  have hturn : step s = .next (issueBundle s2 t b) := by
    have harg := argN_ready_turn (s := s) hp
    rw [step_of_turn hd hp, exec_bundleIssue (harg.symm ▸ hslot), harg, turn_of_mayIssue ⟨hst, hex, hstop⟩]
    refine congrArg _ (meetBundle_reached hk hb hparks ?_)
    rwa [← getTh_reachBundle_vf]
  obtain ⟨hok, herror⟩ := issueBundle_runs hdef hsp
  exact ⟨(step_of_turn hd hp).symm, fun s4 h => hturn.trans (congrArg _ (hok s4 h)),
    fun e h => hturn.trans (congrArg _ (herror e h))⟩

end Sys2Proof.Machine
end

section
/-! SUPPORT. Decoding what the encoder writes, whatever the slots hold (02 R36, R39, R62, R67). -/

namespace Sys2Proof

open Sys2Proof.Machine

/-- A field of a field. -/
theorem bitsAt_bitsAt (w lo n a k : Nat) (h : a + k ≤ n) : bitsAt (bitsAt w lo n) a k = bitsAt w (lo + a) k := by
  refine Nat.eq_of_testBit_eq fun i => ?_
  simp only [bitsAt, Nat.testBit_mod_two_pow, Nat.testBit_div_two_pow]
  by_cases hi : i < k
  · have hia : i + a < n := by omega
    simp only [hi, hia, decide_true, Bool.true_and]
    exact congrArg w.testBit (by omega)
  · simp only [hi, decide_false, Bool.false_and]

theorem encFields_lt {i : Instr} (h : inWidth i = true) : encFields i < 2 ^ 40 := by
  cases i with
  | add o | sub o | andS o | orS o | xorS o | andn o | shl o | shr o | sra o | rol o | mul o | mulh o | mulhn o
  | div o | divn o | rem o | remn o | minS o | maxS o | minn o | maxn o | cmpeq o | cmpne o | cmplt o | cmpltn o
  | sel o | clz o | ctz o | popc o | addsat o | subsat o | addx o | extr o | insr o | rhash o | jr o | ret o
  | sleepu o | exitT o | gnext o | resumeStub o => exact encA_lt o h
  | addi o | andi o | ori o | xori o | shli o | shri o | srai o | cmpeqi o | cmplti o | muli o | movc o | movtc o
  | syncD o | trap o | brkpt o => exact encI_lt o h
  | liK o | lih o => exact encK_lt o h
  | br o | bz o | bnz o | bltz o | bgez o | call o | loop o | loopn o => exact encJ_lt o h
  | vadd o | vsub o | vmul o | vfma o | vfnma o | vmin o | vmax o | vabs o | vneg o | vand o | vor o | vxor o
  | vshl o | vshr o | vsra o | vadds o | vsubs o | vmulh o | vmulq o | vmacw o | vdot4 o | vdiv o | vsqrt o | vrcp o
  | vrsq o | vexp2q o | vcvt o | vpack o | vunpk o | vcmpeq o | vcmpne o | vcmplt o | vcmple o | vclass o | pand o
  | por o | pxor o | pnot o | pcnt o | vradd o | vrmax o | vrmin o | vpsum o | vfind o | vperm o | vsplat o | vins o
  | vext o | vsel o | vslide o => exact encV_lt o h
  | mfmt o | mma o | mmaz o | mmas o | mmasz o | mhad o | mdrain o | mdrainv o | mzero o | mldacc o | mstacc o
  | mseed o => exact encM_lt o h
  | ldL o | stL o | vld o | vst o | pld o | pst o | ldp o | vldp o | vldw o => exact encLI_lt o h
  | vlds o | vsts o | vgath o | vscat o | atadd o | atmin o | atmax o | atand o | ator o | atxor o | atswp o
  | atcas o | takeW o | putW o | fullq o | emptyw o | cpin o | cpout o | cpin2 o | cpout2 o | cpw o | cpred o
  | cpfill o | maskq o | fence o | flushsig o | sigset o | sigw o | epop o | prld o | prst o | winrd o | winwr o =>
    exact encLA_lt o h
  | send o | mbclr o | gsig o | gwait o | gpoll o | gread o => exact encX_lt o h
  | _ => exact Nat.two_pow_pos 40

namespace Laws.Encodes

/-- The opcode map reads the slot of any instruction back (R67), its fields in their widths. -/
theorem statement_all (i : Instr) : Statement i := by
  cases i with
  | add o => exact add o | sub o => exact sub o | andS o => exact andS o | orS o => exact orS o
  | xorS o => exact xorS o | andn o => exact andn o | shl o => exact shl o | shr o => exact shr o
  | sra o => exact sra o | rol o => exact rol o | mul o => exact mul o | mulh o => exact mulh o
  | mulhn o => exact mulhn o | div o => exact div o | divn o => exact divn o | rem o => exact rem o
  | remn o => exact remn o | minS o => exact minS o | maxS o => exact maxS o | minn o => exact minn o
  | maxn o => exact maxn o | cmpeq o => exact cmpeq o | cmpne o => exact cmpne o | cmplt o => exact cmplt o
  | cmpltn o => exact cmpltn o | sel o => exact sel o | clz o => exact clz o | ctz o => exact ctz o
  | popc o => exact popc o | addsat o => exact addsat o | subsat o => exact subsat o | addx o => exact addx o
  | extr o => exact extr o | insr o => exact insr o | rhash o => exact rhash o | jr o => exact jr o
  | ret o => exact ret o | sleepu o => exact sleepu o | exitT o => exact exitT o | gnext o => exact gnext o
  | resumeStub o => exact resumeStub o | addi o => exact addi o | andi o => exact andi o | ori o => exact ori o
  | xori o => exact xori o | shli o => exact shli o | shri o => exact shri o | srai o => exact srai o
  | cmpeqi o => exact cmpeqi o | cmplti o => exact cmplti o | muli o => exact muli o | movc o => exact movc o
  | movtc o => exact movtc o | syncD o => exact syncD o | trap o => exact trap o | brkpt o => exact brkpt o
  | liK o => exact liK o | lih o => exact lih o | br o => exact br o | bz o => exact bz o | bnz o => exact bnz o
  | bltz o => exact bltz o | bgez o => exact bgez o | call o => exact call o | loop o => exact loop o
  | loopn o => exact loopn o | vadd o => exact vadd o | vsub o => exact vsub o | vmul o => exact vmul o
  | vfma o => exact vfma o | vfnma o => exact vfnma o | vmin o => exact vmin o | vmax o => exact vmax o
  | vabs o => exact vabs o | vneg o => exact vneg o | vand o => exact vand o | vor o => exact vor o
  | vxor o => exact vxor o | vshl o => exact vshl o | vshr o => exact vshr o | vsra o => exact vsra o
  | vadds o => exact vadds o | vsubs o => exact vsubs o | vmulh o => exact vmulh o | vmulq o => exact vmulq o
  | vmacw o => exact vmacw o | vdot4 o => exact vdot4 o | vdiv o => exact vdiv o | vsqrt o => exact vsqrt o
  | vrcp o => exact vrcp o | vrsq o => exact vrsq o | vexp2q o => exact vexp2q o | vcvt o => exact vcvt o
  | vpack o => exact vpack o | vunpk o => exact vunpk o | vcmpeq o => exact vcmpeq o | vcmpne o => exact vcmpne o
  | vcmplt o => exact vcmplt o | vcmple o => exact vcmple o | vclass o => exact vclass o | pand o => exact pand o
  | por o => exact por o | pxor o => exact pxor o | pnot o => exact pnot o | pcnt o => exact pcnt o
  | vradd o => exact vradd o | vrmax o => exact vrmax o | vrmin o => exact vrmin o | vpsum o => exact vpsum o
  | vfind o => exact vfind o | vperm o => exact vperm o | vsplat o => exact vsplat o | vins o => exact vins o
  | vext o => exact vext o | vsel o => exact vsel o | vslide o => exact vslide o | mfmt o => exact mfmt o
  | mma o => exact mma o | mmaz o => exact mmaz o | mmas o => exact mmas o | mmasz o => exact mmasz o
  | mhad o => exact mhad o | mdrain o => exact mdrain o | mdrainv o => exact mdrainv o | mzero o => exact mzero o
  | mldacc o => exact mldacc o | mstacc o => exact mstacc o | mseed o => exact mseed o | ldL o => exact ldL o
  | stL o => exact stL o | vld o => exact vld o | vst o => exact vst o | pld o => exact pld o | pst o => exact pst o
  | ldp o => exact ldp o | vldp o => exact vldp o | vldw o => exact vldw o | vlds o => exact vlds o
  | vsts o => exact vsts o | vgath o => exact vgath o | vscat o => exact vscat o | atadd o => exact atadd o
  | atmin o => exact atmin o | atmax o => exact atmax o | atand o => exact atand o | ator o => exact ator o
  | atxor o => exact atxor o | atswp o => exact atswp o | atcas o => exact atcas o | takeW o => exact takeW o
  | putW o => exact putW o | fullq o => exact fullq o | emptyw o => exact emptyw o | cpin o => exact cpin o
  | cpout o => exact cpout o | cpin2 o => exact cpin2 o | cpout2 o => exact cpout2 o | cpw o => exact cpw o
  | cpred o => exact cpred o | cpfill o => exact cpfill o | maskq o => exact maskq o | fence o => exact fence o
  | flushsig o => exact flushsig o | sigset o => exact sigset o | sigw o => exact sigw o | epop o => exact epop o
  | prld o => exact prld o | prst o => exact prst o | winrd o => exact winrd o | winwr o => exact winwr o
  | send o => exact send o | mbclr o => exact mbclr o | gsig o => exact gsig o | gwait o => exact gwait o
  | gpoll o => exact gpoll o | gread o => exact gread o
  | _ => exact fun _ _ _ h => nomatch h

end Laws.Encodes

/-- The instruction of one slot of a bundle. -/
def instrAt (b : Bundle) : Slot → Instr
  | .S => b.sS | .V => b.sV | .M => b.sM | .L => b.sL | .X => b.sX

/-- Every instruction of a bundle has its fields in their widths. -/
def SlotsInWidth (b : Bundle) : Prop := ∀ sl, inWidth (instrAt b sl) = true

theorem encodeSlot_lt {i : Instr} (h : inWidth i = true) : encodeSlot i < 2 ^ 48 := by
  cases ho : opcodeOf i with
  | none => simp [encodeSlot, ho]
  | some p =>
    obtain ⟨hop, -⟩ := Laws.Encodes.statement_all i h p.1 p.2 ho
    have hf := encFields_lt h
    simp only [encodeSlot, ho]
    omega

/-- A slot is read back as the instruction that was written there, or refused by its cause (R62). -/
theorem decodeSlot_encodeSlot {i : Instr} {sl : Slot} {op : Nat} (h : inWidth i = true) (ho : opcodeOf i = some (sl, op)) :
    decodeSlot sl (encodeSlot i) = (slotCause i).elim (.ok i) .error := by
  obtain ⟨hop, hraw⟩ := Laws.Encodes.statement_all i h sl op ho
  have hbits : bitsAt (encodeSlot i) 40 8 = op := by
    simp only [encodeSlot, ho]
    exact bitsAt_high _ _ _ _ (encFields_lt h) hop
  have hop0 : op ≠ 0 := by
    rintro rfl
    cases sl <;> simp [rawSlot, hbits, rawS, rawV, rawM, rawL, rawX] at hraw
  simp only [decodeSlot, hbits, if_neg hop0, hraw]
  cases slotCause i <;> rfl

section Layout

variable {b : Bundle} (hw : SlotsInWidth b)
include hw

theorem encodeSlots_lt : encodeSlot b.sS < 2 ^ 48 ∧ encodeSlot b.sV < 2 ^ 48 ∧ encodeSlot b.sM < 2 ^ 48
    ∧ encodeSlot b.sL < 2 ^ 48 ∧ encodeSlot b.sX < 2 ^ 48 :=
  ⟨encodeSlot_lt (hw .S), encodeSlot_lt (hw .V), encodeSlot_lt (hw .M), encodeSlot_lt (hw .L), encodeSlot_lt (hw .X)⟩

theorem slotBits_encodeBundle (sl : Slot) : slotBits sl (encodeBundle b) = encodeSlot (instrAt b sl) := by
  obtain ⟨hS, hV, hM, hL, hX⟩ := encodeSlots_lt hw
  cases sl <;> simp only [slotBits, slotLow, bitsAt, encodeBundle, instrAt] <;> omega

theorem encodeBundle_lt (hx : b.spx < 1024) : encodeBundle b < 2 ^ 256 := by
  obtain ⟨hS, hV, hM, hL, hX⟩ := encodeSlots_lt hw
  unfold encodeBundle
  split <;> split <;> omega

/-- The header fields lie where R36 puts them, with zeros at [243:240]. -/
theorem header_encodeBundle (hx : b.spx < 1024) :
    bitsAt (encodeBundle b) 240 4 = 0 ∧ bitsAt (encodeBundle b) 254 1 = (if b.sp then 1 else 0)
      ∧ bitsAt (encodeBundle b) 244 10 = b.spx := by
  obtain ⟨hS, hV, hM, hL, hX⟩ := encodeSlots_lt hw
  simp only [bitsAt, encodeBundle]
  split <;> split <;> omega

end Layout

theorem decodeAt_encodeBundle_nop {b : Bundle} (hw : SlotsInWidth b) {sl : Slot} (h : instrAt b sl = .nop) :
    decodeAt sl (encodeBundle b) = .ok .nop := by
  rw [decodeAt, slotBits_encodeBundle hw, h]
  rfl

theorem decodeAt_encodeBundle_error {b : Bundle} (hw : SlotsInWidth b) {sl : Slot} {op k : Nat}
    (ho : opcodeOf (instrAt b sl) = some (sl, op)) (hk : slotCause (instrAt b sl) = some k) :
    decodeAt sl (encodeBundle b) = .error { place := slotUnit sl, cause := k } := by
  rw [decodeAt, slotBits_encodeBundle hw, decodeSlot_encodeSlot (hw sl) ho, hk]
  rfl

/-- The bundle of one instruction holds it in its slot, and NOP in the others. -/
theorem instrAt_bundleOf {i : Instr} {sl : Slot} {op : Nat} (ho : opcodeOf i = some (sl, op)) (sl' : Slot) :
    instrAt (bundleOf i) sl' = if sl' = sl then i else .nop := by
  cases sl <;> cases sl' <;> simp [bundleOf, ho, instrAt]

theorem bundleOf_header {i : Instr} {sl : Slot} {op : Nat} (ho : opcodeOf i = some (sl, op)) :
    (bundleOf i).sp = false ∧ (bundleOf i).spx = 0 := by
  cases sl <;> simp [bundleOf, ho]

theorem bundleOf_inWidth {i : Instr} {sl : Slot} {op : Nat} (h : inWidth i = true) (ho : opcodeOf i = some (sl, op)) :
    SlotsInWidth (bundleOf i) := by
  intro sl'
  rw [instrAt_bundleOf ho]
  split
  · exact h
  · rfl

/-- An instruction that meets a cause of 2 to 5 is refused with that cause, in the place of its slot (R62). -/
theorem decode_encode_error {i : Instr} {k op : Nat} {sl : Slot} (h : inWidth i = true) (ho : opcodeOf i = some (sl, op))
    (hk : slotCause i = some k) : decode (bytesOfNat 32 (encode i)) = .error { place := slotUnit sl, cause := k } := by
  obtain ⟨hsp, hspx⟩ := bundleOf_header ho
  have hw := bundleOf_inWidth h ho
  have hat := instrAt_bundleOf ho
  obtain ⟨hrsv, hsp', hspx'⟩ := header_encodeBundle hw (by rw [hspx]; decide)
  have hhead : headerBad (encodeBundle (bundleOf i)) = false := by simp [headerBad, hrsv, hsp', hsp, hspx', hspx]
  have hword : natOfBytes (bytesOfNat 32 (encode i)) = encodeBundle (bundleOf i) := by
    rw [natOfBytes_bytesOfNat]
    exact Nat.mod_eq_of_lt (encodeBundle_lt hw (by rw [hspx]; decide))
  have hself : decodeAt sl (encodeBundle (bundleOf i)) = .error { place := slotUnit sl, cause := k } :=
    decodeAt_encodeBundle_error hw (op := op) (by simp [hat, ho]) (by simp [hat, hk])
  have hnop (sl' : Slot) (hne : sl' ≠ sl) : decodeAt sl' (encodeBundle (bundleOf i)) = .ok .nop :=
    decodeAt_encodeBundle_nop hw (by simp [hat, hne])
  rw [decode, hword, decodeBundle, hhead]
  cases sl <;> simp [hself, hnop]

end Sys2Proof
end

section
/-! SUPPORT. What decode refuses (02 R62 to R65): the causes of one slot's fields, of the header, and of a slot beside others. -/

namespace Sys2Proof.Machine

open Sys2Proof

section LowestCause

variable (c2 c3 c4 c5 : Bool)

@[simp] theorem lowestCause_eq_two : lowestCause c2 c3 c4 c5 = some 2 ↔ c2 = true := by
  revert c2 c3 c4 c5; decide
@[simp] theorem lowestCause_eq_three : lowestCause c2 c3 c4 c5 = some 3 ↔ c2 = false ∧ c3 = true := by
  revert c2 c3 c4 c5; decide
@[simp] theorem lowestCause_eq_four : lowestCause c2 c3 c4 c5 = some 4 ↔ c2 = false ∧ c3 = false ∧ c4 = true := by
  revert c2 c3 c4 c5; decide
@[simp] theorem lowestCause_eq_five :
    lowestCause c2 c3 c4 c5 = some 5 ↔ c2 = false ∧ c3 = false ∧ c4 = false ∧ c5 = true := by
  revert c2 c3 c4 c5; decide

end LowestCause

theorem slotCause_add {o : AOp} (hc : o.c = 0) (hf : o.fn = 0) : slotCause (.add o) = some 3 ↔ 32 ≤ o.d := by
  simp [slotCause, causeA, unused, badSDst, hc, hf]

theorem slotCause_liK (o : KOp) : slotCause (.liK o) = some 3 ↔ 32 ≤ o.d := by
  simp [slotCause, badSDst]

theorem slotCause_movc {o : IOp} (ha : o.a = 0) : slotCause (.movc o) = some 5 ↔ o.d < 32 ∧ 13 ≤ o.imm := by
  simp [slotCause, badSDst, ha]

theorem slotCause_movtc {o : IOp} (hd : o.d = 0) : slotCause (.movtc o) = some 5 ↔ o.imm < 2 ∨ 7 ≤ o.imm := by
  simp [slotCause, hd]

section FormV

variable {o : VOp} (hh : o.hold = 0) (hc : o.c = 0) (hf : o.fn = 0)
include hh hc hf

theorem slotCause_vadd_operand : slotCause (.vadd o) = some 3 ↔ 48 ≤ o.d ∨ 48 ≤ o.a ∨ 48 ≤ o.b := by
  simp [slotCause, causeV, unused, badHold, badDst, badSrc, badVec, holdA, holdB, holdC, hh, hc, hf, or_assoc]

theorem slotCause_vadd_type :
    slotCause (.vadd o) = some 4 ↔ (o.d < 48 ∧ o.a < 48 ∧ o.b < 48) ∧ (11 ≤ o.ty ∨ o.ty < 8 ∧ o.rm ≠ 0) := by
  simp [slotCause, causeV, unused, badHold, badDst, badSrc, badVec, holdA, holdB, holdC, hh, hc, hf, tyAll, badRound,
    tyFloat] <;> omega

theorem slotCause_pand : slotCause (.pand o) = some 3 ↔ o.d = 0 ∨ 8 ≤ o.d ∨ 8 ≤ o.a ∨ 8 ≤ o.b := by
  simp [slotCause, causeV, unused, badHold, badDst, badSrc, badPDst, badPOpd, holdA, holdB, holdC, hh, hc, hf, or_assoc]

theorem slotCause_vcmpeq : slotCause (.vcmpeq o) = some 3 ↔ o.d = 0 ∨ 8 ≤ o.d ∨ 48 ≤ o.a ∨ 48 ≤ o.b := by
  simp [slotCause, causeV, unused, badHold, badDst, badSrc, badPDst, badVec, holdA, holdB, holdC, hh, hc, hf, or_assoc]

theorem slotCause_vrcp (hb : o.b = 0) :
    slotCause (.vrcp o) = some 4 ↔ (o.d < 48 ∧ o.a < 48) ∧ (o.ty < 8 ∨ 11 ≤ o.ty ∨ o.rm ≠ 0) := by
  simp [slotCause, causeV, unused, badHold, badDst, badSrc, badVec, holdA, holdB, holdC, hh, hc, hf, hb, tyFloat,
    badRound] <;> omega

end FormV

theorem slotCause_ldL (o : LIOp) : slotCause (.ldL o) = some 4 ↔ o.d < 32 ∧ 4 ≤ o.sz := by
  simp [slotCause, causeLI, badSDst] <;> omega

theorem slotCause_vld_size (o : LIOp) : slotCause (.vld o) = some 4 ↔ o.d < 48 ∧ o.sz ≠ 4 := by
  simp [slotCause, causeLI, badVec]

theorem slotCause_vld_operand (o : LIOp) : slotCause (.vld o) = some 3 ↔ 48 ≤ o.d := by
  simp [slotCause, causeLI, badVec]

theorem slotCause_epop {o : LAOp} (ha : o.a = 0) (hb : o.b = 0) (hc : o.c = 0) (hf : o.fn = 0) :
    slotCause (.epop o) = some 4 ↔ o.d < 32 ∧ 4 ≤ o.sz := by
  simp [slotCause, causeLA, unused, badSDst, ha, hb, hc, hf] <;> omega

/-! The header (R62, R65, R292). -/

theorem inDelay_iff (th : Thread) : inDelay th = true ↔ th.hist1 = true ∨ th.hist2 = true := by simp [inDelay]

theorem anyHold_iff (w : Nat) : anyHold w = true ↔ bitsAt w 184 8 ≠ 0 ∧ bitsAt w 154 3 ≠ 0 := by
  simp [anyHold, slotBits, bitsAt_bitsAt, slotLow]

theorem headerBad_iff (w : Nat) :
    Sys2Proof.headerBad w = true ↔ bitsAt w 240 4 ≠ 0 ∨ (bitsAt w 254 1 = 0 ∧ bitsAt w 244 10 ≠ 0) := by
  simp [Sys2Proof.headerBad]

section Header

variable (s : State) (t w : Nat)

theorem headerCause_two : headerCause s t w = some 2 ↔ Sys2Proof.headerBad w = true := by
  cases hb : Sys2Proof.headerBad w with
  | true => simp [headerCause, hb]
  | false =>
    simp only [headerCause, hb, Bool.false_eq_true, if_false, iff_false]
    repeat' split
    all_goals decide

theorem headerCause_safePoint (hrsv : bitsAt w 240 4 = 0) (hsp : bitsAt w 254 1 = 1) :
    (headerCause s t w = some 7 ↔ inDelay (getTh s t) = true)
    ∧ (headerCause s t w = some 8 ↔ ¬inDelay (getTh s t) = true
        ∧ ((getTh s t).stub = true ∨ anyHold w = true ∨ (sptabOf s t).length ≤ bitsAt w 244 10)) := by
  have hhead : Sys2Proof.headerBad w = false := by simp [Sys2Proof.headerBad, hrsv, hsp]
  cases hd : inDelay (getTh s t) with
  | true => simp [headerCause, hhead, hsp, hd]
  | false =>
    simp only [headerCause, hhead, hsp, hd, Nat.one_ne_zero, Bool.false_eq_true, if_false, Bool.or_eq_true,
      decide_eq_true_eq, or_assoc, not_false_eq_true, true_and]
    by_cases hbad : (getTh s t).stub = true ∨ anyHold w = true ∨ (sptabOf s t).length ≤ bitsAt w 244 10
    · rw [if_pos hbad]
      exact ⟨iff_of_false (by decide) id, iff_of_true rfl hbad⟩
    · rw [if_neg hbad]
      exact ⟨iff_of_false (by decide) id, iff_of_false (by decide) hbad⟩

theorem decodeFor_header {k : Nat} (h : headerCause s t w = some k) :
    decodeFor s t w = .error { place := 0, cause := k } := by
  simp only [decodeFor, h]

end Header

/-! A slot beside the slots before it (R62 causes 6 to 11). -/

theorem any_clash_iff (prev : List Instr) (i : Instr) : prev.any (clash i) = true ↔
    ∃ j ∈ prev, ∃ x, (usesOf i).dst = some x ∧ (usesOf j).dst = some x ∧ x ≠ (0, 0) := by
  simp only [List.any_eq_true]
  refine exists_congr fun j => and_congr_right fun _ => ?_
  unfold clash
  cases (usesOf i).dst with
  | none => simp
  | some x =>
    cases (usesOf j).dst with
    | none => simp
    | some y =>
      simp only [Bool.and_eq_true, beq_iff_eq, bne_iff_ne, Option.some.injEq]
      exact ⟨fun ⟨hxy, hx⟩ => ⟨x, rfl, hxy.symm, hx⟩, fun ⟨z, hz, hy, h0⟩ => ⟨hz.trans hy.symm, hz ▸ h0⟩⟩

theorem isBranch_iff (i : Instr) : isBranch i = true ↔ ∃ op, opcodeOf i = some (.S, op) ∧ 0x40 ≤ op ∧ op ≤ 0x49 := by
  unfold isBranch
  split
  · next op ho => simp [ho]
  · next hno => simpa using fun op ho => absurd ho (hno op)

theorem isResume_iff (i : Instr) : isResume i = true ↔ ∃ o, i = .resumeStub o := by
  unfold isResume
  split <;> simp_all

theorem isPrivileged_iff (i : Instr) :
    isPrivileged i = true ↔ ∃ o, i = .prld o ∨ i = .prst o ∨ i = .winrd o ∨ i = .winwr o := by
  unfold isPrivileged
  split <;> simp_all

theorem featureOf_eq (i : Instr) (b : Nat) : featureOf i = some b ↔
    (b = 1 ∧ ∃ o, i = .mmas o ∨ i = .mmasz o) ∨ (b = 4 ∧ ∃ o, i = .maskq o)
      ∨ (b = 5 ∧ ∃ o, i = .gsig o ∨ i = .gwait o ∨ i = .gpoll o ∨ i = .gread o) := by
  unfold featureOf
  split <;> simp_all [eq_comm]

theorem declined_iff_featureOf (s : State) (t : Nat) (i : Instr) :
    declined s t i = true ↔ isFirmware s (dieOf t) (coreOf t) = false
      ∧ ∃ b, featureOf i = some b ∧ featOk s (getTh s t).vf b = false := by
  unfold declined
  cases featureOf i <;> simp

theorem declined_iff (s : State) (t : Nat) (i : Instr) :
    declined s t i = true ↔ isFirmware s (dieOf t) (coreOf t) = false ∧
      ((¬featOk s (getTh s t).vf 1 = true ∧ ∃ o, i = .mmas o ∨ i = .mmasz o)
        ∨ (¬featOk s (getTh s t).vf 4 = true ∧ ∃ o, i = .maskq o)
        ∨ (¬featOk s (getTh s t).vf 5 = true ∧ ∃ o, i = .gsig o ∨ i = .gwait o ∨ i = .gpoll o ∨ i = .gread o)) := by
  simp only [declined_iff_featureOf, featureOf_eq, Bool.not_eq_true]
  refine and_congr_right fun _ => ⟨?_, ?_⟩
  · rintro ⟨b, ⟨rfl, hi⟩ | ⟨rfl, hi⟩ | ⟨rfl, hi⟩, hf⟩
    · exact .inl ⟨hf, hi⟩
    · exact .inr (.inl ⟨hf, hi⟩)
    · exact .inr (.inr ⟨hf, hi⟩)
  · rintro (⟨hf, hi⟩ | ⟨hf, hi⟩ | ⟨hf, hi⟩)
    · exact ⟨1, .inl ⟨rfl, hi⟩, hf⟩
    · exact ⟨4, .inr (.inl ⟨rfl, hi⟩), hf⟩
    · exact ⟨5, .inr (.inr ⟨rfl, hi⟩), hf⟩

/-- A privileged instruction depends on no feature. -/
theorem declined_privileged {s : State} {t : Nat} {i : Instr} (h : isPrivileged i = true) : declined s t i = false := by
  obtain ⟨o, rfl | rfl | rfl | rfl⟩ := (isPrivileged_iff i).1 h <;> rfl

section CheckSlot

variable {s : State} {t w : Nat} {sl : Slot} {prev : List Instr} {i : Instr}

theorem checkSlot_undecodable {k : Reject} (h : decodeAt sl w = .error k) : checkSlot s t w sl prev = .error k := by
  simp only [checkSlot, h]

theorem checkSlot_refused {k : Nat} (h : decodeAt sl w = .ok i) (hk : slotCause2 s t sl prev i = some k) :
    checkSlot s t w sl prev = .error { place := slotUnit sl, cause := k } := by
  simp only [checkSlot, h, hk]

theorem checkSlot_ok (h : decodeAt sl w = .ok i) (hk : slotCause2 s t sl prev i = none) :
    checkSlot s t w sl prev = .ok i := by
  simp only [checkSlot, h, hk]

/-- The causes 6 to 11, the lowest first (R62, R65). -/
theorem checkSlot_causes (h : decodeAt sl w = .ok i) :
    let refused (k : Nat) : Prop := checkSlot s t w sl prev = .error { place := slotUnit sl, cause := k }
    let both : Prop := prev.any (clash i) = true
    let late : Prop := inDelay (getTh s t) = true ∧ (isBranch i = true ∨ isResume i = true)
    let closed : Prop := declined s t i = true
    let user : Prop := isFirmware s (dieOf t) (coreOf t) = false
    let priv : Prop := isPrivileged i = true
    (both → refused 6) ∧ (¬both → late → refused 7) ∧ (¬both → ¬late → closed → refused 9)
    ∧ (¬both → ¬late → sl = .M → i ≠ .nop → ¬user → refused 10)
    ∧ (¬both → ¬late → user → priv → refused 11)
    ∧ (¬both → ¬late → ¬closed → ¬(sl = .M ∧ i ≠ .nop ∧ ¬user) → ¬(user ∧ priv) → checkSlot s t w sl prev = .ok i) := by
  intro refused both late closed user priv
  have hlate : ((isBranch i || isResume i) && inDelay (getTh s t)) = true ↔ late := by simp [late, and_comm]
  refine ⟨fun hb => checkSlot_refused h ?_, fun hb hl => checkSlot_refused h ?_, fun hb hl hc => checkSlot_refused h ?_,
    fun hb hl hM hn hu => checkSlot_refused h ?_, fun hb hl hu hp => checkSlot_refused h ?_,
    fun hb hl hc hM hp => checkSlot_ok h ?_⟩
  all_goals simp only [slotCause2]
  · rw [if_pos hb]
  · rw [if_neg hb, if_pos (hlate.2 hl)]
  · rw [if_neg hb, if_neg (mt hlate.1 hl), if_pos hc]
  · have hc : ¬closed := fun hc => hu ((declined_iff s t i).1 hc).1
    rw [if_neg hb, if_neg (mt hlate.1 hl), if_neg hc, if_pos (by simp_all [user])]
  · have hc : ¬closed := by simp [closed, declined_privileged hp]
    have hM : ¬(sl == .M && i != .nop && !!isFirmware s (dieOf t) (coreOf t)) = true := by simp_all [user]
    rw [if_neg hb, if_neg (mt hlate.1 hl), if_neg hc, if_neg hM, if_pos (by simp_all [user, priv])]
  · rw [if_neg hb, if_neg (mt hlate.1 hl), if_neg hc, if_neg (by simpa [user, and_assoc] using hM),
      if_neg (by simpa [user, priv, and_comm] using hp)]

end CheckSlot

end Sys2Proof.Machine
end

section
/-! SUPPORT. The refusals of a bundle issue (02 R55, R62 to R65; 11 R282, R287). -/

namespace Sys2Proof.Machine

open Sys2Proof

/-- A safe-point bundle that decode refuses is reached, and its checkpoint is at its pc (R287, R290). -/
theorem reachBad_safePoint {s : State} {t w : Nat} (hsp : bitsAt w 254 1 = 1) (hstub : (getTh s t).stub = false)
    (hr : (getTh s t).reached = false) :
    (getTh (reachBad s t w) t).reached = true ∧ (getTh (reachBad s t w) t).ckpt.pc = (getTh s t).pc := by
  simp [reachBad, hsp, hstub, hr, reachSafe, takeCkpt]

/-- A bundle issue of a thread that may issue, where its bundle cannot be decoded or does not exist. -/
theorem exec_bundleIssue_rejected {s : State} {t : Nat} (harg : argN s 0 = t) (hslot : slotidOk t = true)
    (hm : MayIssue (getTh (atItsTurn s t) t)) :
    let s1 := atItsTurn s t
    let w := fetchBundle s1 t
    (kernelLen s1 (getTh s1 t) ≤ (getTh s1 t).pc →
      exec .bundleIssue s = .next (raiseTrap s1 { code := 0x03, addr := kernelLen s1 (getTh s1 t) }))
    ∧ ∀ x, (getTh s1 t).pc < kernelLen s1 (getTh s1 t) → decodeFor s1 t w = .error x →
      exec .bundleIssue s = .next (raiseTrap (reachBad s1 t w) (rejectTrap w x)) := by
  subst harg
  intro s1 w
  rw [exec_bundleIssue hslot, turn_of_mayIssue hm]
  exact ⟨fun hk => congrArg _ (meetBundle_past_kernel hk), fun x hk hx => congrArg _ (meetBundle_rejected hk hx)⟩

/-- With a good header the first slot that is refused, in the order S, V, M, L, X, is reported (R65). -/
theorem decodeFor_slots {s : State} {t w : Nat} (h : headerCause s t w = none) :
    (∀ e, checkSlot s t w .S [] = .error e → decodeFor s t w = .error e)
    ∧ ∀ a, checkSlot s t w .S [] = .ok a →
      (∀ e, checkSlot s t w .V [a] = .error e → decodeFor s t w = .error e)
      ∧ ∀ b, checkSlot s t w .V [a] = .ok b →
        (∀ e, checkSlot s t w .M [a, b] = .error e → decodeFor s t w = .error e)
        ∧ ∀ c, checkSlot s t w .M [a, b] = .ok c →
          (∀ e, checkSlot s t w .L [a, b, c] = .error e → decodeFor s t w = .error e)
          ∧ ∀ d, checkSlot s t w .L [a, b, c] = .ok d → ∀ e, checkSlot s t w .X [a, b, c, d] = .error e →
            decodeFor s t w = .error e := by
  simp +contextual [decodeFor, h, bind, Except.bind]

/-- Settles O33: the turn's refusals, the causes of a slot's fields, of the header, and of a slot beside others. -/
theorem bundleIssueRefusals : Obligations.BundleIssueRefusals := by
  refine ⟨fun s => ?_, fun i k op sl hw ho hk => decode_encode_error hw ho hk, fun o => slotCause_add,
    slotCause_liK, fun o => ⟨slotCause_movc, slotCause_movtc⟩,
    fun o hh hc hf => ⟨slotCause_vadd_operand hh hc hf, slotCause_vadd_type hh hc hf, slotCause_pand hh hc hf,
      slotCause_vcmpeq hh hc hf, slotCause_vrcp hh hc hf⟩,
    fun o => ⟨slotCause_ldL o, slotCause_vld_size o, slotCause_vld_operand o⟩, fun o => slotCause_epop, fun s t w => ?_⟩
  · intro t s1 th w
    refine ⟨exec_bundleIssue_noContext, fun hslot hst hex hstop => ?_⟩
    obtain ⟨hpast, hrejected⟩ := exec_bundleIssue_rejected (s := s) rfl hslot ⟨hst, hex, hstop⟩
    exact ⟨hpast, fun x hk hx => ⟨hrejected x hk hx, rfl, rfl, rfl, reachBad_safePoint⟩⟩
  · intro th delay user held spx
    refine ⟨fun k => decodeFor_header s t w, ?_, ?_, decodeFor_slots, ?_⟩
    · rw [headerCause_two, headerBad_iff]
    · intro hrsv hsp
      obtain ⟨h7, h8⟩ := headerCause_safePoint s t w hrsv hsp
      exact ⟨h7.trans (inDelay_iff th),
        h8.trans (and_congr (not_congr (inDelay_iff th)) (or_congr Iff.rfl (or_congr_left (anyHold_iff w))))⟩
    · intro sl prev refused
      refine ⟨fun k => checkSlot_undecodable, fun i hi => ?_⟩
      have h := checkSlot_causes (s := s) (t := t) (prev := prev) hi
      simp only [any_clash_iff, inDelay_iff, isBranch_iff, isResume_iff, declined_iff, isPrivileged_iff] at h
      exact h

end Sys2Proof.Machine
end

section
/-! SUPPORT. The rings and records of port and collective engines (10 R259 to R266; 12 R311; 18 R398). -/

namespace Sys2Proof.Machine

/-! What the draws of an engine leave of its record. -/

@[simp] theorem getOp_hostAnswer (s : State) (vf id : Nat) : getOp (hostAnswer s vf).2 id = getOp s id := by
  unfold hostAnswer
  split <;> simp

@[simp] theorem getOp_rdmaAnswer (s : State) (id i : Nat) : getOp (rdmaAnswer s id).2 i = getOp s i := by
  unfold rdmaAnswer
  split <;> simp

@[simp] theorem getOp_drawWords (s : State) (vf n : Nat) (mark : Bool) (i : Nat) :
    getOp (drawWords s vf n mark).2 i = getOp s i := by
  induction n generalizing s with
  | zero => rfl
  | succ m ih => cases mark <;> simp [drawWords, ih]

theorem rdmaAnswer_granted {s : State} {id : Nat} (h : (getOp s id).granted = true) : rdmaAnswer s id = (0, s) := by
  simp [rdmaAnswer, h]

/-! A port record's two moves (R261): its words in, or its words out. -/

section Port

variable {s : State} {id : Nat}

theorem portIn_ends (words : List (Nat × Bool)) (hg : (getOp s id).granted = true)
    (hp : allPerformed (getOp s id) = true) : portIn s id words = endRecord s id (poisonStatus (getOp s id).parts) := by
  simp [portIn, hg, hp]

theorem portIn_waits (words : List (Nat × Bool)) (hg : (getOp s id).granted = true)
    (hp : allPerformed (getOp s id) = false) : portIn s id words = s := by
  simp [portIn, hg, hp]

theorem portIn_starts (words : List (Nat × Bool)) (hg : (getOp s id).granted = false) :
    let a := bits (getOp s id).n 184 128
    let len := bits (getOp s id).n 56 32
    portIn s id words = engineMove (modOp s id fun x => { x with granted := true, status := if words.any (·.2) then 6 else 0 })
      id (engineWrites a len words) (pageSpan a len 1) := by
  simp [portIn, hg]

theorem portOut_sends (send : State → List Part → State) (hg : (getOp s id).granted = true)
    (hall : ∀ p ∈ (getOp s id).parts, p.got = true) :
    portOut s id send = endRecord (send s (getOp s id).parts) id (poisonStatus (getOp s id).parts) := by
  simp only [portOut, hg, if_true, if_pos (List.all_eq_true.2 hall)]

theorem portOut_starts (send : State → List Part → State) (hg : (getOp s id).granted = false) :
    let a := bits (getOp s id).n 184 128
    let len := bits (getOp s id).n 56 32
    portOut s id send
      = engineMove (modOp s id fun x => { x with granted := true }) id (engineReads a len) (pageSpan a len 0) := by
  simp [portOut, hg]

end Port

/-! The records that may run (R261, R264, R266). -/

section Records

variable {s : State} (hr : recordRuns s (argN s 0) = true)
include hr

theorem hostrd_granted (hg : (getOp s (argN s 0)).granted = true) :
    let o := getOp s (argN s 0)
    exec .hostrd s = .next (portIn s (argN s 0) (hostWords s o.vf (bits o.n 255 192) (bits o.n 56 32 / 8))) := by
  show execHostrd s = _
  simp [execHostrd, hr, hg]

theorem hostrd_refused (hg : (getOp s (argN s 0)).granted = false)
    (hd : (hostAnswer s (getOp s (argN s 0)).vf).1 = 1) :
    exec .hostrd s = .next (endRecord (hostAnswer s (getOp s (argN s 0)).vf).2 (argN s 0) 3) := by
  show execHostrd s = _
  simp [execHostrd, hr, hg, hd]

theorem hostrd_served (hg : (getOp s (argN s 0)).granted = false)
    (hd : (hostAnswer s (getOp s (argN s 0)).vf).1 ≠ 1) :
    let o := getOp s (argN s 0)
    exec .hostrd s
      = .next (portIn (hostAnswer s o.vf).2 (argN s 0) (hostWords s o.vf (bits o.n 255 192) (bits o.n 56 32 / 8))) := by
  show execHostrd s = _
  simp [execHostrd, hr, hg, hd]

theorem hostwr_starts (hg : (getOp s (argN s 0)).granted = false) :
    let o := getOp s (argN s 0)
    exec .hostwr s = .next (portOut s (argN s 0) fun x ps => hostStore x o.vf (bits o.n 255 192) ps) := by
  show execHostwr s = _
  simp [execHostwr, hr, hg]

section SourceRead

variable (hg : (getOp s (argN s 0)).granted = true) (hall : ∀ p ∈ (getOp s (argN s 0)).parts, p.got = true)
include hg hall

theorem hostwr_refused (hd : (hostAnswer s (getOp s (argN s 0)).vf).1 = 1) :
    exec .hostwr s = .next (endRecord (hostAnswer s (getOp s (argN s 0)).vf).2 (argN s 0) 3) := by
  show execHostwr s = _
  simp only [execHostwr, hr, hg, List.all_eq_true.2 hall, hd, Bool.not_true, Bool.false_eq_true, if_false, Bool.and_self,
    if_true]

theorem hostwr_served (hd : (hostAnswer s (getOp s (argN s 0)).vf).1 ≠ 1) :
    let o := getOp s (argN s 0)
    exec .hostwr s = .next (portOut (hostAnswer s o.vf).2 (argN s 0) fun x ps => hostStore x o.vf (bits o.n 255 192) ps) := by
  show execHostwr s = _
  simp only [execHostwr, hr, hg, List.all_eq_true.2 hall, hd, Bool.not_true, Bool.false_eq_true, if_false, Bool.and_self,
    if_true]

end SourceRead

theorem rdma_refused (hd : (rdmaAnswer s (argN s 0)).1 = 1) :
    let t := endRecord (rdmaAnswer s (argN s 0)).2 (argN s 0) 3
    exec .rdmawr s = .next t ∧ exec .rdmard s = .next t := by
  constructor
  · show execRdmawr s = _
    simp [execRdmawr, hr, hd]
  · show execRdmard s = _
    simp [execRdmard, hr, hd]

theorem rdma_silent (hd : (rdmaAnswer s (argN s 0)).1 = 2) :
    exec .rdmawr s = .next (rdmaAnswer s (argN s 0)).2 ∧ exec .rdmard s = .next (rdmaAnswer s (argN s 0)).2 := by
  constructor
  · show execRdmawr s = _
    simp [execRdmawr, hr, hd]
  · show execRdmard s = _
    simp [execRdmard, hr, hd]

theorem rdmawr_served (hd : (rdmaAnswer s (argN s 0)).1 = 0) :
    exec .rdmawr s
      = .next (portOut (rdmaAnswer s (argN s 0)).2 (argN s 0) (rdmaSend (getOp s (argN s 0)).n)) := by
  show execRdmawr s = _
  simp [execRdmawr, hr, hd]

theorem rdmard_granted (hg : (getOp s (argN s 0)).granted = true) : exec .rdmard s = .next (portIn s (argN s 0) []) := by
  show execRdmard s = _
  simp [execRdmard, hr, hg, rdmaAnswer_granted]

theorem rdmard_served (hg : (getOp s (argN s 0)).granted = false) (hd : (rdmaAnswer s (argN s 0)).1 = 0) :
    let o := getOp s (argN s 0)
    let w := drawWords (rdmaAnswer s (argN s 0)).2 o.vf (bits o.n 56 32 / 8) false
    exec .rdmard s = .next (portIn w.2 (argN s 0) w.1) := by
  show execRdmard s = _
  simp [execRdmard, hr, hg, hd]

theorem collStep_joins (hg : (getOp s (argN s 0)).granted = true) (hw : (getOp s (argN s 0)).watching = false) :
    collStep s = collJoin s (argN s 0) := by
  simp [collStep, hr, hg, hw]

theorem collStep_ends (hg : (getOp s (argN s 0)).granted = true) (hw : (getOp s (argN s 0)).watching = true)
    (hp : allPerformed (getOp s (argN s 0)) = true) :
    collStep s = endRecord s (argN s 0) (poisonStatus (getOp s (argN s 0)).parts) := by
  simp [collStep, hr, hg, hw, hp]

theorem collStep_waits (hg : (getOp s (argN s 0)).granted = true) (hw : (getOp s (argN s 0)).watching = true)
    (hp : allPerformed (getOp s (argN s 0)) = false) : collStep s = s := by
  simp [collStep, hr, hg, hw, hp]

theorem collStep_starts (hg : (getOp s (argN s 0)).granted = false) :
    let r := (getOp s (argN s 0)).n
    let n := srcElems r * collBytes (bits r 5 2)
    let s1 := sched (modOp s (argN s 0) fun x => { x with granted := true }) (s.mer + 40000000) .engineRecordTimeout
      [argN s 0]
    collStep s = engineMove s1 (argN s 0) (engineReads (bits r 248 192) n) (pageSpan (bits r 248 192) n 0) := by
  simp [collStep, hr, hg]

end Records

/-- The four collectives are one step (R263). -/
theorem exec_coll {s t : State} (h : collStep s = t) :
    exec .allred s = .next t ∧ exec .redscat s = .next t ∧ exec .allgath s = .next t ∧ exec .bcast s = .next t :=
  h ▸ ⟨rfl, rfl, rfl, rfl⟩

/-! The rings (R259). -/

section Rings

variable {s : State} {k : Nat} {x : Ring} (hx : mapGet {} s.rings k = x)
include hx

theorem takeRingRecord_none (h : x.seen ≤ x.taken) : takeRingRecord s k = s := by
  simp only [takeRingRecord, hx, if_pos h]

theorem takeRingRecord_taken {rec : Nat} {bad : Bool} (h : x.taken < x.seen)
    (hread : devRead s x.vf (ringOp s x).sub (x.base + 64 * (x.taken % 256)) 64 = .ok rec bad) :
    let s1 := sawRange s x.vf (ringOp s x).sub (x.base + 64 * (x.taken % 256)) 64
    let s2 := putConsumed { s1 with rings := mapSet {} s1.rings k { x with taken := x.taken + 1 } } k (ringOp s x)
    takeRingRecord s k = sched (submitRecord s2 (x.kind == 1) rec bad { ringOp s x with ring := some (k, x.taken) })
      (s.mer + 1) .ringDoorbell [k, 1] := by
  simp only [takeRingRecord, hx, if_neg (Nat.not_le.2 h), hread]

end Rings

section Doorbell

variable {s : State} (hk : s.rings.any (fun e => e.1 == argN s 0) = true)
include hk

theorem ringDoorbell_goesOn (h : argN s 1 = 1) : exec .ringDoorbell s = .next (takeRingRecord s (argN s 0)) := by
  show execRingDoorbell s = _
  simp only [execRingDoorbell, hk, h, Bool.not_true, Bool.false_eq_true, if_false, if_true]

variable {x : Ring} (hx : mapGet {} s.rings (argN s 0) = x) (h1 : argN s 1 ≠ 1)
include hx h1

theorem ringDoorbell_poisoned {v : Nat} (hread : devRead s x.vf (ringOp s x).sub x.bell 8 = .ok v true) :
    exec .ringDoorbell s = .next s := by
  show execRingDoorbell s = _
  simp only [execRingDoorbell, hk, hx, if_neg h1, hread, Bool.not_true, Bool.false_eq_true, if_false]

theorem ringDoorbell_read {v : Nat} (hread : devRead s x.vf (ringOp s x).sub x.bell 8 = .ok v false) :
    let id := argN s 0
    let s1 := sawRange s x.vf (ringOp s x).sub x.bell 8
    let s2 := { s1 with rings := mapSet {} s1.rings id { x with seen := max x.seen v } }
    let going : Prop := ∃ i ∈ s.agenda, i.ev = .ringDoorbell ∧ i.args = [id, 1]
    (going → exec .ringDoorbell s = .next s2) ∧ (¬going → exec .ringDoorbell s = .next (takeRingRecord s2 id)) := by
  intro id s1 s2 going
  have hgoing : (s.agenda.any fun i => i.ev == .ringDoorbell && i.args == [argN s 0, 1]) = true ↔ going := by
    simp [going, id]
  refine ⟨fun hg => ?_, fun hg => ?_⟩ <;> show execRingDoorbell s = _
  · simp only [execRingDoorbell, hk, hx, if_neg h1, hread, Bool.not_true, Bool.false_eq_true, if_false,
      if_pos (hgoing.2 hg)] <;> rfl
  · simp only [execRingDoorbell, hk, hx, if_neg h1, hread, Bool.not_true, Bool.false_eq_true, if_false,
      if_neg (mt hgoing.1 hg)] <;> rfl

end Doorbell

/-! The end of a record (R260) and its time-out (R266). -/

section End

variable {s : State} (ho : hasOp s (argN s 0) = true)
include ho

theorem engineRecordComplete_status (hc : (getOp s (argN s 0)).complete = false) :
    let o := getOp s (argN s 0)
    bits o.n 376 320 % 8 = 0 → exec .engineRecordComplete s
      = .next (releaseWord (if o.a = 1 then wakeGroup s (cGroup o.n) else s) (argN s 0) 1 (bits o.n 376 320) o.status) := by
  intro o ha
  show execEngineRecordComplete s = _
  simp only [execEngineRecordComplete, ho, hc, Bool.not_true, Bool.not_false, Bool.false_eq_true, if_false, if_true]
  rw [if_pos ha]

section StatusWritten

variable (hc : (getOp s (argN s 0)).complete = true)
include hc

theorem engineRecordComplete_signal (hres : (getOp s (argN s 0)).result = 1) (hst : (getOp s (argN s 0)).status ≠ 2)
    (hsig : bits (getOp s (argN s 0)).n 16 16 = 1) (ha : bits (getOp s (argN s 0)).n 440 384 % 8 = 0)
    (hp : allPerformed (getOp s (argN s 0)) = true) (hparts : (getOp s (argN s 0)).parts ≠ []) :
    let r := (getOp s (argN s 0)).n
    exec .engineRecordComplete s = .next (releaseWord s (argN s 0) 2 (bits r 440 384) (bits r 511 448)) := by
  show execEngineRecordComplete s = _
  simp only [execEngineRecordComplete, ho, hc, Bool.not_true, Bool.false_eq_true, if_false]
  rw [if_pos ⟨hres, hst, hsig, ha, hp, hparts⟩]

theorem engineRecordComplete_closes
    (h : (getOp s (argN s 0)).result ≠ 1 ∨ (getOp s (argN s 0)).status = 2 ∨ bits (getOp s (argN s 0)).n 16 16 = 0) :
    exec .engineRecordComplete s = .next (closeRecord s (argN s 0)) := by
  show execEngineRecordComplete s = _
  simp only [execEngineRecordComplete, ho, hc, Bool.not_true, Bool.false_eq_true, if_false]
  rw [if_neg]
  rintro ⟨hres, hst, hsig, -⟩
  omega

end StatusWritten

theorem engineRecordTimeout_ends (hc : (getOp s (argN s 0)).complete = false)
    (h : (getOp s (argN s 0)).opc < 16 ∨ (getOp s (argN s 0)).watching = false) :
    exec .engineRecordTimeout s = .next (endRecord s (argN s 0) 5) := by
  show execEngineRecordTimeout s = _
  simp only [execEngineRecordTimeout, ho, hc]
  rw [if_pos]
  simpa using h

end End

/-! COLL and PORT nodes (R311). -/

/-- A node whose engine is the partition's, with its feature open, hands over the record that it reads. -/
theorem submitNode_read {s : State} {g n ty a e rec : Nat} {bad : Bool} {es : List Nat} (ev : Instr)
    (hf : featOk s (getGraph s g).vf (if ty = 7 then 7 else 8) = true) (he : e < es.length)
    (hread : devRead s (getGraph s g).vf (getGraph s g).sub a 64 = .ok rec bad) :
    let sA := sawRange s (getGraph s g).vf (getGraph s g).sub a 64
    submitNode s g n ty a e es ev
      = if bad then nodeFail sA g n 9 0 else submitRecord sA (ty == 7) rec false (nodeOp sA g n .engine) := by
  simp only [submitNode, hf, List.getElem?_eq_getElem he, hread, Bool.not_true, Bool.false_eq_true, if_false]

section Node

variable {s : State} (hop : (nodeOf (getGraph s (argN s 0)) (argN s 1)).op = none)
include hop

theorem collNode_submits (hr : nodeRuns s (argN s 0) (argN s 1) 7 = true) :
    let nd := nodeOf (getGraph s (argN s 0)) (argN s 1)
    let a := bodyBits nd 184 128
    let e := bodyBits nd 195 192
    nd.body = a + e * 2 ^ 64 → exec .collNode s = .next (submitNode s (argN s 0) (argN s 1) 7 a e
      (collEngines (getVf s (getGraph s (argN s 0)).vf).layout) .collNode) := by
  intro nd a e hbody
  show execCollNode s = _
  simp only [execCollNode, hr, hop, Bool.not_true, Bool.false_eq_true, Option.isSome_none, or_self, if_false]
  rw [if_neg (not_not_intro hbody)]

theorem portNode_submits (hr : nodeRuns s (argN s 0) (argN s 1) 9 = true) :
    let nd := nodeOf (getGraph s (argN s 0)) (argN s 1)
    let a := bodyBits nd 184 128
    let e := bodyBits nd 196 192
    nd.body = a + e * 2 ^ 64 → a % 64 = 0 → exec .portNode s = .next (submitNode s (argN s 0) (argN s 1) 9 a e
      (portEngines (getVf s (getGraph s (argN s 0)).vf).layout) .portNode) := by
  intro nd a e hbody ha
  show execPortNode s = _
  simp only [execPortNode, hr, hop, Bool.not_true, Bool.false_eq_true, Option.isSome_none, or_self, if_false]
  rw [if_neg (fun h => h.elim (· hbody) (· ha))]

end Node

/-- Settles O47: rings, then the records by whether their answer is in, then their end and the nodes that submit them. -/
theorem engineEventsTakeEffect : Obligations.EngineEventsTakeEffect := by
  intro s id o a len ring sub words readFirst bad d r
  refine ⟨fun hk => ⟨ringDoorbell_goesOn hk, fun v h1 => ringDoorbell_poisoned hk rfl h1,
      fun v h1 => ringDoorbell_read hk rfl h1⟩,
    takeRingRecord_none rfl, fun rec bd => takeRingRecord_taken rfl, hostAnswer_cut, hostAnswer_drawn,
    fun hr hg hall hp => ?_, fun hr hg hp hw => ?_, fun hr hg => ?_, fun ho => ?_, fun rec bad hop hread => ?_⟩
  · have hr0 : rdmaAnswer s id = (0, s) := rdmaAnswer_granted hg
    refine ⟨?_, fun hd => hostwr_refused hr hg hall hd, fun hd => ?_, ?_, ?_, fun hw => exec_coll (collStep_ends hr hg hw hp),
      fun hw => exec_coll (collStep_joins hr hg hw)⟩
    · rw [hostrd_granted hr hg, portIn_ends _ hg hp]
    · rw [hostwr_served hr hg hall hd, portOut_sends _ (by rwa [getOp_hostAnswer]) (by rwa [getOp_hostAnswer])]
    · rw [rdmawr_served hr (by rw [hr0]), hr0, portOut_sends _ hg hall]
    · rw [rdmard_granted hr hg, portIn_ends _ hg hp]
  · refine ⟨?_, ?_, exec_coll (collStep_waits hr hg hw hp)⟩
    · rw [hostrd_granted hr hg, portIn_waits _ hg hp]
    · rw [rdmard_granted hr hg, portIn_waits _ hg hp]
  · refine ⟨hostrd_refused hr hg, fun hd => ?_, ?_, rdma_refused hr, rdma_silent hr, fun hd => ⟨?_, ?_⟩,
      exec_coll (collStep_starts hr hg)⟩
    · rw [hostrd_served hr hg hd, portIn_starts _ (by rwa [getOp_hostAnswer]), getOp_hostAnswer]
    · rw [hostwr_starts hr hg, portOut_starts _ hg]
    · rw [rdmawr_served hr hd, portOut_starts _ (by rwa [getOp_rdmaAnswer]), getOp_rdmaAnswer]
    · rw [rdmard_served hr hg hd, portIn_starts _ (by rwa [getOp_drawWords, getOp_rdmaAnswer]), getOp_drawWords,
        getOp_rdmaAnswer]
  · exact ⟨engineRecordComplete_status ho, engineRecordComplete_signal ho, engineRecordComplete_closes ho,
      engineRecordTimeout_ends ho⟩
  · exact ⟨fun hr hf hbody he => (collNode_submits hop hr hbody).trans (congrArg _ (submitNode_read _ hf he hread)),
      fun hr hf hbody ha he => (portNode_submits hop hr hbody ha).trans (congrArg _ (submitNode_read _ hf he hread))⟩

end Sys2Proof.Machine
end

section
/-! SUPPORT. Holds of the package, its warnings and its sensors (01 R34, R35; 15 R344; 19 R399). -/

namespace Sys2Proof.Machine

/-- What every step of a fold keeps, the fold keeps. -/
theorem foldl_keeps {β γ : Type} {p : State → γ} {f : State → β → State} (h : ∀ a e, p (f a e) = p a) (l : List β)
    (s : State) : p (l.foldl f s) = p s :=
  List.foldlRecOn (motive := (p · = p s)) l f rfl fun a ha e _ => (h a e).trans ha

/-- What one step of a fold brings about and every other keeps holds at its end. -/
theorem foldl_reaches {β : Type} {P : State → Prop} {f : State → β → State} (hkeep : ∀ a e, P a → P (f a e)) {l : List β}
    {x : β} (hx : x ∈ l) (hget : ∀ a, P (f a x)) (s : State) : P (l.foldl f s) := by
  induction l generalizing s with
  | nil => simp at hx
  | cons e t ih =>
    rcases List.mem_cons.1 hx with rfl | ht
    · exact List.foldlRecOn t f (hget s) fun a ha e _ => hkeep a e ha
    · exact ih ht _

/-- An interrupt changes the pending vectors of functions and what the host has received, and nothing else. -/
theorem raiseMsix_eq (s : State) (f vec : Nat) :
    raiseMsix s f vec = { s with vfs := (raiseMsix s f vec).vfs, out := (raiseMsix s f vec).out } := by
  unfold raiseMsix
  split
  · rfl
  · split <;> rfl

/-- A vector that is raised changes nothing of a function but its pending vectors. -/
theorem getVf_raiseMsix (s : State) (f vec v : Nat) : ∃ n, getVf (raiseMsix s f vec) v = { getVf s v with msixPend := n } := by
  unfold raiseMsix
  split
  · by_cases h : v = f
    · subst h
      exact ⟨_, getVf_modVf ..⟩
    · exact ⟨_, getVf_modVf_ne s _ h⟩
  · split <;> exact ⟨_, rfl⟩

@[simp] theorem raiseMsix_tstop (s : State) (f vec v : Nat) : (getVf (raiseMsix s f vec) v).tstop = (getVf s v).tstop := by
  obtain ⟨n, hn⟩ := getVf_raiseMsix s f vec v
  rw [hn]

@[simp] theorem raiseMsix_cmdRun (s : State) (f vec v : Nat) :
    (getVf (raiseMsix s f vec) v).cmdRun = (getVf s v).cmdRun := by
  obtain ⟨n, hn⟩ := getVf_raiseMsix s f vec v
  rw [hn]

@[simp] theorem raiseMsix_pkg (s : State) (f vec : Nat) : (raiseMsix s f vec).pkg = s.pkg := by rw [raiseMsix_eq]

/-! Partitions that freeze, and TRIP once all of them have (R35, R344). -/

/-- Every placed partition is frozen. -/
def AllFrozen (s : State) : Prop := ∀ e ∈ s.vfs, e.2.layout.slots ≠ 0 → e.2.tstop = true

/-- A look at TRIP changes its three registers, and what its interrupt does. -/
theorem checkTrip_eq (s : State) : checkTrip s = { s with
    vfs := (checkTrip s).vfs, out := (checkTrip s).out
    pkg := { s.pkg with
      trip := (checkTrip s).pkg.trip, tcause := (checkTrip s).pkg.tcause, tdie := (checkTrip s).pkg.tdie } } := by
  unfold checkTrip
  extract_lets p
  split
  · rfl
  · rw [raiseMsix_eq]

theorem checkTrip_trips {s : State} (hh : s.pkg.hold ≠ 0) (ht : s.pkg.trip = false) (ha : AllFrozen s) :
    checkTrip s = raiseMsix { s with pkg := { s.pkg with
      trip := true, tcause := s.pkg.hold, tdie := if s.pkg.hold = 1 then s.pkg.holdDie else s.pkg.tdie } } 0 2 := by
  unfold checkTrip
  refine if_neg ?_
  simpa [hh, ht, AllFrozen] using ha

theorem checkTrip_waits {s : State} (h : s.pkg.hold = 0 ∨ s.pkg.trip = true ∨ ¬ AllFrozen s) : checkTrip s = s := by
  unfold checkTrip
  refine if_pos ?_
  simpa [AllFrozen] using h

/-- The freezing of a partition changes what a look at TRIP and an interrupt do, and nothing else. -/
theorem stopVf_eq (s : State) (vf : Nat) : stopVf s vf = { s with
    vfs := (stopVf s vf).vfs, out := (stopVf s vf).out
    pkg := { s.pkg with
      trip := (stopVf s vf).pkg.trip, tcause := (stopVf s vf).pkg.tcause, tdie := (stopVf s vf).pkg.tdie } } := by
  unfold stopVf
  rw [checkTrip_eq, raiseMsix_eq]
  rfl

theorem stopVf_trips {s : State} {vf : Nat} (hh : s.pkg.hold ≠ 0) (ht : s.pkg.trip = false) :
    let u := raiseMsix (modVf s vf fun x => { x with tstop := true }) vf 2
    AllFrozen u → stopVf s vf = raiseMsix { u with pkg := { u.pkg with
      trip := true, tcause := s.pkg.hold, tdie := if s.pkg.hold = 1 then s.pkg.holdDie else s.pkg.tdie } } 0 2 := by
  intro u ha
  have hp : u.pkg = s.pkg := raiseMsix_pkg ..
  have hu := checkTrip_trips (s := u) (by rwa [hp]) (by rwa [hp]) ha
  rw [hp] at hu ⊢
  exact hu

theorem stopVf_waits {s : State} {vf : Nat} :
    let u := raiseMsix (modVf s vf fun x => { x with tstop := true }) vf 2
    s.pkg.hold = 0 ∨ s.pkg.trip = true ∨ ¬ AllFrozen u → stopVf s vf = u := by
  intro u h
  have hp : u.pkg = s.pkg := raiseMsix_pkg ..
  exact checkTrip_waits (by rwa [hp])

/-! Warnings, holds and sensors (R34, R35, R344, R399). -/

/-- What a hold of the package does with one partition. -/
def holdOne (now : Nat) (a : State) (e : Nat × Vf) : State :=
  if e.2.layout.slots = 0 then a
  else
    match e.2.pre with
    | .stopping _ => modVf a e.1 fun v => { v with pre := .stopping 3 }
    | _ => if e.2.resident then sched a now .preemptionRequest [e.1, 3] else stopVf a e.1

theorem holdPackage_held {s : State} (h : s.pkg.hold ≠ 0) (c die : Nat) : holdPackage s c die = s := by simp [holdPackage, h]

theorem holdPackage_free {s : State} (h : s.pkg.hold = 0) (c die : Nat) : holdPackage s c die
    = checkTrip (s.vfs.foldl (holdOne s.mer) { s with pkg := { s.pkg with hold := c, holdDie := die } }) := by
  unfold holdPackage
  rw [if_neg (not_not_intro h)]
  rfl

theorem holdOne_requests {e : Nat × Vf} (hs : e.2.layout.slots ≠ 0) (hr : e.2.resident = true) (hp : e.2.pre = .none)
    (now : Nat) (a : State) : holdOne now a e = sched a now .preemptionRequest [e.1, 3] := by
  simp [holdOne, hs, hr, hp]

/-- What a hold of the package does with a partition: nothing, a new purpose of its stop, a request, or its freezing. -/
theorem holdOne_cases (now : Nat) (a : State) (e : Nat × Vf) :
    holdOne now a e = a ∨ holdOne now a e = modVf a e.1 (fun v => { v with pre := .stopping 3 })
      ∨ holdOne now a e = sched a now .preemptionRequest [e.1, 3] ∨ holdOne now a e = stopVf a e.1 := by
  unfold holdOne
  split
  · exact .inl rfl
  split
  · exact .inr (.inl rfl)
  split
  · exact .inr (.inr (.inl rfl))
  · exact .inr (.inr (.inr rfl))

/-- What a hold leaves alone once its cause is noted. -/
def heldState (s : State) : Memory × Map Thread × Nat × Nat := (s.mem, s.threads, s.pkg.hold, s.pkg.holdDie)

theorem heldState_checkTrip (s : State) : heldState (checkTrip s) = heldState s := by
  rw [checkTrip_eq]
  rfl

theorem heldState_holdOne (now : Nat) (a : State) (e : Nat × Vf) : heldState (holdOne now a e) = heldState a := by
  rcases holdOne_cases now a e with h | h | h | h <;> rw [h]
  · rfl
  · rfl
  · rw [stopVf_eq]
    rfl

/-- A request to stop partition vf for a hold is entered in this cycle. -/
def StopAsked (now vf : Nat) (s : State) : Prop :=
  ∃ i ∈ s.agenda, i.cycle = now ∧ i.ev = .preemptionRequest ∧ i.args = [vf, 3]

theorem stopAsked_sched (now vf : Nat) (s : State) : StopAsked now vf (sched s now .preemptionRequest [vf, 3]) :=
  ⟨{ cycle := now, seq := s.seq, ev := .preemptionRequest, args := [vf, 3] }, by simp [sched], rfl, rfl, rfl⟩

theorem stopAsked_checkTrip {now vf : Nat} {s : State} (h : StopAsked now vf s) : StopAsked now vf (checkTrip s) := by
  rw [checkTrip_eq]
  exact h

theorem stopAsked_holdOne {now vf : Nat} (a : State) (e : Nat × Vf) (h : StopAsked now vf a) :
    StopAsked now vf (holdOne now a e) := by
  rcases holdOne_cases now a e with he | he | he | he <;> rw [he]
  · exact h
  · exact h
  · obtain ⟨i, hi, hrest⟩ := h
    exact ⟨i, List.mem_append_left _ hi, hrest⟩
  · rw [stopVf_eq]
    exact h

/-- The event of a cause that holds the package: the first cause is noted, and every partition that runs is asked to stop. -/
theorem holdPackage_takes {i : Instr} {s : State} (c die : Nat) (hx : exec i s = .next (holdPackage s c die)) :
    ∃ t : State, exec i s = .next t ∧ t.mem = s.mem ∧ t.threads = s.threads ∧ (s.pkg.hold ≠ 0 → t = s)
      ∧ (s.pkg.hold = 0 → t.pkg.hold = c ∧ t.pkg.holdDie = die
        ∧ ∀ e ∈ s.vfs, e.2.layout.slots ≠ 0 → e.2.resident = true → e.2.pre = .none → StopAsked s.mer e.1 t) := by
  refine ⟨_, hx, ?_⟩
  by_cases h : s.pkg.hold = 0
  · have hk : heldState (holdPackage s c die) = (s.mem, s.threads, c, die) := by
      rw [holdPackage_free h, heldState_checkTrip, foldl_keeps (heldState_holdOne s.mer)]
      rfl
    simp only [heldState, Prod.mk.injEq] at hk
    obtain ⟨hmem, hth, hhold, hdie⟩ := hk
    refine ⟨hmem, hth, absurd h, fun _ => ⟨hhold, hdie, fun e he hs hr hp => ?_⟩⟩
    rw [holdPackage_free h]
    refine stopAsked_checkTrip (foldl_reaches stopAsked_holdOne he (fun a => ?_) _)
    rw [holdOne_requests hs hr hp]
    exact stopAsked_sched ..
  · rw [holdPackage_held h]
    exact ⟨rfl, rfl, fun _ => rfl, fun h0 => absurd h0 h⟩

/-- A free value from 0 up stays in its range. -/
theorem draw_le (s : State) (vf hi : Nat) : (draw s vf 0 hi).1 ≤ hi := by
  have := Nat.mod_lt (Config.freeWord vf (mapGet 0 s.free vf)).toNat (show 0 < hi + 1 by omega)
  simp only [draw, Nat.sub_zero, Nat.zero_add]
  omega

/-- The power and the inlet temperature as they stand in their register (R344). -/
theorem power_fields {a i : Nat} (o : Nat) (ha : a < 2 ^ 16) (hi : i < 2 ^ 16) :
    let p := (BitVec.ofNat 64 (a + i * 2 ^ 16 + o * 2 ^ 32)).toNat
    p % 2 ^ 16 = a ∧ p / 2 ^ 16 % 2 ^ 16 = i := by
  simp only [BitVec.toNat_ofNat]
  omega

/-- SENSOR_REFRESH (R34, R344): with a cool inlet and coolant flowing the module draws at most 1,500 W. -/
theorem sensorRefresh_reads (s : State) : ∃ t : State, exec .sensorRefresh s = .next t ∧ t.mem = s.mem ∧ t.threads = s.threads
    ∧ t.agenda = s.agenda ++ [{ cycle := s.mer + 4000000, seq := s.seq, ev := .sensorRefresh }]
    ∧ (s.pkg.hold ≠ 2 → t.pkg.pwr.toNat / 2 ^ 16 % 2 ^ 16 ≤ 640 → t.pkg.pwr.toNat % 2 ^ 16 ≤ 6000) := by
  let i := draw s 0 0 (2 ^ 16 - 1)
  let o := draw i.2 0 0 (2 ^ 16 - 1)
  let top := if i.1 ≤ 640 ∧ s.pkg.hold ≠ 2 then 6000 else 2 ^ 16 - 1
  let a := draw o.2 0 0 top
  have hi : i.1 ≤ 2 ^ 16 - 1 := draw_le ..
  have ha : a.1 ≤ top := draw_le ..
  have htop : top ≤ 2 ^ 16 - 1 := by
    unfold top
    split <;> omega
  obtain ⟨hdraw, hinlet⟩ := power_fields (a := a.1) (i := i.1) o.1 (by omega) (by omega)
  refine ⟨_, rfl, ?_, ?_, ?_, fun hh hin => ?_⟩
  · simp
  · simp
  · simp [sched]
  · change (BitVec.ofNat 64 (a.1 + i.1 * 2 ^ 16 + o.1 * 2 ^ 32)).toNat / 2 ^ 16 % 2 ^ 16 ≤ 640 at hin
    change (BitVec.ofNat 64 (a.1 + i.1 * 2 ^ 16 + o.1 * 2 ^ 32)).toNat % 2 ^ 16 ≤ 6000
    rw [hinlet] at hin
    rw [hdraw]
    exact Nat.le_trans ha (Nat.le_of_eq (if_pos ⟨hin, hh⟩))

end Sys2Proof.Machine
end

section
/-! SUPPORT. The four resets and their watchdogs (15 R348; 17 R383; 19 R401, R402). -/

namespace Sys2Proof.Machine

/-! The cold reset (R383, R401). -/

/-- A region of the memory reads as the memory within its bounds and as 0 outside. -/
theorem rdByte_region {s : State} (h : Inv s) (lo hi a : Nat) :
    rdByte (region s lo hi) a = if lo ≤ a ∧ a < hi then rdByte s.mem a else 0 := by
  have := mapGet_filter (j := a) h fun k => decide (lo ≤ k) && decide (k < hi)
  simpa [rdByte, region] using this

theorem coldReset_leaves (s : State) : ∃ t : State, exec .coldReset s = .next t ∧ t.mer = 0 ∧ t.threads = [] ∧ t.vfs = []
    ∧ t.granules = [] ∧ t.launches = [] ∧ t.keys = State.reset.keys ∧ t.pkg.geuth = bootTable s ∧ t.pkg.recovery = !bootOk s
    ∧ (bootOk s = true → t.scrubs = State.reset.scrubs ∧ t.pkg.treeKey = s.pkg.treeKey + 1)
    ∧ (bootOk s = false → t.scrubs = [] ∧ t.pkg.treeKey = s.pkg.treeKey)
    ∧ (Inv s → ∀ a, rdByte t.mem a = if hostBase ≤ a ∧ a < 2 ^ 100 then rdByte s.mem a else 0) := by
  refine ⟨coldReset s, rfl, rfl, rfl, rfl, rfl, rfl, rfl, rfl, rfl, fun h => ?_, fun h => ?_, fun h a => rdByte_region h ..⟩
  · simp [coldReset, h, outside]
  · simp [coldReset, h]

/-! The programming of a layout (R348), which a warm reset undoes where its commit was not applied. -/

/-- What the programming of a layout leaves as it is. -/
def lasting (s : State) : Nat × Map GranSt × Map KeySlot × List (FlashCopy × FlashCopy) × Fuses :=
  (s.mer, s.granules, s.keys, s.pkg.copies, s.pkg.fuses)

theorem lasting_iff (s t : State) : lasting t = lasting s ↔ t.mer = s.mer ∧ t.granules = s.granules ∧ t.keys = s.keys
    ∧ t.pkg.copies = s.pkg.copies ∧ t.pkg.fuses = s.pkg.fuses := by
  simp [lasting]

theorem lasting_correctBytes (s : State) (f : Nat → Bool) : lasting (correctBytes s f) = lasting s :=
  foldl_keeps (fun a e => by
    split
    · unfold correctWord
      split <;> rfl
    · rfl) _ _

theorem lasting_putTh (s : State) (t : Nat) (x : Thread) : lasting (putTh s t x) = lasting s := rfl
theorem lasting_clearBytes (s : State) (f : Nat → Bool) : lasting (clearBytes s f) = lasting s := rfl
theorem lasting_moveRest (s : State) (vf : Nat) (f g : Nat → Nat) : lasting (moveRest s vf f g) = lasting s := rfl
theorem lasting_dropWatches (s : State) (vf : Nat) : lasting (dropWatches s vf) = lasting s := rfl

theorem lasting_saveContexts (s : State) (vf : Nat) : lasting (saveContexts s vf 0) = lasting s := by
  unfold saveContexts
  extract_lets mine s0 ts f g x s1 s2
  have h0 : lasting s0 = lasting s := by
    unfold s0
    rw [if_neg (show ¬ 0 = 2 by decide), lasting_correctBytes]
  have h1 : lasting s1 = lasting s0 := by
    unfold s1
    rw [lasting_clearBytes, lasting_moveRest, lasting_dropWatches]
  have h2 : lasting s2 = lasting s1 := by
    unfold s2
    refine foldl_keeps (fun _ _ => ?_) ts s1
    rw [lasting_putTh, lasting_putTh]
  exact h2.trans (h1.trans h0)

theorem lasting_placeBanks (s : State) (vf : Nat) (x : Saved) : lasting (placeBanks s vf x) = lasting s := by
  unfold placeBanks
  split <;> rfl

theorem lasting_leaveContexts (s : State) (vf : Nat) (old new : Layout) : lasting (leaveContexts s vf old new) = lasting s := by
  unfold leaveContexts
  extract_lets keep here s1 x away s2
  have h2 : lasting s2 = lasting s := by
    change lasting s1 = lasting s
    unfold s1
    split
    · exact lasting_saveContexts s vf
    · rfl
  split
  · exact (lasting_placeBanks ..).trans h2
  · exact h2

theorem lasting_placeWeights (s : State) (vf : Nat) (old new : Layout) : lasting (placeWeights s vf old new) = lasting s :=
  foldl_keeps (fun a e => by dsimp only; split <;> rfl) _ _

theorem lasting_endPark (s : State) (t : Nat) (f : Park → Bool) (c : Nat) : lasting (endPark s t f c) = lasting s := by
  unfold endPark
  dsimp only
  split <;> rfl

theorem lasting_dropOp (s : State) (id : Nat) : lasting (dropOp s id) = lasting s := by
  unfold dropOp tryLaunch
  split
  · split <;> rfl
  · rfl

theorem lasting_giveLate (s : State) (t i : Nat) (v : Word) (w : Nat) : lasting (giveLate s t i v w) = lasting s := by
  unfold giveLate
  split <;> rfl

theorem lasting_deliver (s : State) (id : Nat) (late : Bool) : lasting (deliver s id late) = lasting s := by
  unfold deliver
  extract_lets o t th d sw gw
  have hd : lasting d.2 = lasting s := by
    unfold d
    split <;> rfl
  split
  · rfl
  split
  · refine (lasting_endPark ..).trans (Eq.trans ?_ hd)
    change lasting (match o.dest with | .s i => _ | _ => _) = _
    split
    · exact lasting_giveLate ..
    · rfl
  split
  · rfl
  have hg : lasting gw = lasting s := (lasting_endPark ..).trans hd
  split
  · exact (lasting_dropOp ..).trans hg
  · exact hg

theorem lasting_raiseMirror (s : State) (die g v : Nat) : lasting (raiseMirror s die g v) = lasting s :=
  (foldl_keeps (p := lasting) (fun a id => by
    dsimp only
    split
    · exact lasting_deliver ..
    · rfl) _ _).trans rfl

theorem lasting_addMirrors (s : State) (vf : Nat) (old new : Layout) : lasting (addMirrors s vf old new) = lasting s :=
  foldl_keeps (fun _ _ => foldl_keeps (fun _ _ => lasting_raiseMirror ..) _ _) _ _

theorem lasting_setRings (s : State) (vf : Nat) : lasting (setRings s vf) = lasting s :=
  foldl_keeps (p := lasting) (f := addRing vf) (fun _ _ => by simp [lasting, addRing]) _ _

theorem lasting_applyLayout (s : State) (vf : Nat) (new : Layout) : lasting (applyLayout s vf new) = lasting s := by
  unfold applyLayout
  extract_lets old s1 s2 s3
  have h1 : lasting s1 = lasting s := by
    unfold s1
    split
    · exact lasting_leaveContexts ..
    · rfl
  have h3 : lasting s3 = lasting s := (lasting_addMirrors ..).trans ((lasting_placeWeights ..).trans h1)
  split
  · exact h3
  · exact (lasting_setRings ..).trans h3

theorem lasting_unapply (s : State) (j : Journal) : lasting (unapply s j) = lasting s := by
  unfold unapply
  split
  · rfl
  · exact lasting_applyLayout ..

/-! The warm reset (R383, R401). -/

/-- What firmware leaves alone after a warm reset. -/
def rebooted (s : State) : Nat × Map Thread × Map Launch × Map Graph × Map GranSt × Map KeySlot :=
  (s.mer, s.threads, s.launches, s.graphs, s.granules, s.keys)

theorem rebooted_setRings (s : State) (vf : Nat) : rebooted (setRings s vf) = rebooted s :=
  foldl_keeps (p := rebooted) (f := addRing vf) (fun _ _ => by simp [rebooted, addRing]) _ _

theorem rebooted_stopVf (s : State) (vf : Nat) : rebooted (stopVf s vf) = rebooted s := by
  rw [stopVf_eq]
  rfl

theorem rebooted_runTeardown (s : State) (x : Teardown) : rebooted (runTeardown s x) = rebooted s := rfl

theorem lasting_unapplyAll (s : State) : lasting (s.pkg.journal.foldl unapply s) = lasting s :=
  foldl_keeps lasting_unapply _ _

/-- Boot admits the same copies in states with the same flash and fuses. -/
theorem bootOk_congr {s t : State} (h : lasting t = lasting s) : bootOk t = bootOk s := by
  obtain ⟨-, -, -, hc, hf⟩ := (lasting_iff s t).1 h
  simp [bootOk, hc, hf]

theorem warmReset_recovery {s0 : State} (h : bootOk s0 = false) :
    warmReset s0 = warmKept (s0.pkg.journal.foldl unapply s0) := by
  unfold warmReset
  refine if_pos ?_
  have : bootOk (s0.pkg.journal.foldl unapply s0) = false := (bootOk_congr (lasting_unapplyAll s0)).trans h
  simp [warmKept, this]

theorem rebooted_warmReset (s0 : State) : rebooted (warmReset s0) = (s0.mer, [], [], [], s0.granules, s0.keys) := by
  unfold warmReset
  extract_lets s t1 t2 t3
  have h1 : rebooted t1 = (s0.mer, [], [], [], s0.granules, s0.keys) := by
    obtain ⟨hm, hg, hk, -, -⟩ := (lasting_iff s0 s).1 (lasting_unapplyAll s0)
    rw [← hm, ← hg, ← hk]
    rfl
  have h2 : rebooted t2 = rebooted t1 := by
    refine foldl_keeps (fun a e => ?_) _ _
    dsimp only
    split
    · exact (rebooted_stopVf ..).trans (rebooted_setRings ..)
    · exact rebooted_setRings ..
  have h3 : rebooted t3 = rebooted t2 := by
    refine foldl_keeps (fun a e => ?_) _ _
    split <;> rfl
  split
  · exact h1
  · exact (foldl_keeps rebooted_runTeardown _ _).trans (h3.trans (h2.trans h1))

theorem warmReset_leaves (s : State) : ∃ t : State, exec .warmReset s = .next t ∧ t.mer = s.mer ∧ t.threads = []
    ∧ t.launches = [] ∧ t.graphs = [] ∧ t.granules = s.granules ∧ t.keys = s.keys
    ∧ (bootOk s = false → t.vfs = [] ∧ t.pkg.recovery = true) := by
  have h := rebooted_warmReset s
  simp only [rebooted, Prod.mk.injEq] at h
  obtain ⟨hmer, hth, hl, hg, hgr, hk⟩ := h
  refine ⟨warmReset s, rfl, hmer, hth, hl, hg, hgr, hk, fun hb => ?_⟩
  have hb' : bootOk (s.pkg.journal.foldl unapply s) = false := (bootOk_congr (lasting_unapplyAll s)).trans hb
  rw [warmReset_recovery hb]
  simp [warmKept, hb']

/-! The restart of the management core (R348, R383, R401). -/

/-- The commands of the management core: those that run or wait, the commits, and what agreements have come in. -/
def commands (s : State) : List Nat × List Journal × List (Nat × Nat) := (s.pkg.cmdq, s.pkg.journal, s.pkg.agreed)

/-- Function f when its command has ended with a status, its interrupt raised. -/
def endedCmd (s : State) (f status : Nat) : State :=
  let s1 := modVf s f fun v => { v with cmdRun := false, cmdStatus := status, cmdRec := 0, cmdStep := 0 }
  if bits (getVf s f).cmdRec 9 9 == 1 then raiseMsix s1 f 0 else s1

/-- With no command that waits, the end of one starts no other. -/
theorem endCmd_last {s : State} (hq : s.pkg.cmdq = []) (f status : Nat) : endCmd s f status =
    { endedCmd s f status with pkg := { (endedCmd s f status).pkg with cmdq := [] } } := by
  unfold endCmd
  rw [hq]
  rfl

theorem endedCmd_pkg (s : State) (f status : Nat) : (endedCmd s f status).pkg = s.pkg := by
  unfold endedCmd
  dsimp only
  split
  · rw [raiseMsix_pkg, modVf_pkg]
  · rfl

theorem endedCmd_cmdRun (s : State) (f status g : Nat) :
    (getVf (endedCmd s f status) g).cmdRun = if g = f then false else (getVf s g).cmdRun := by
  unfold endedCmd
  dsimp only
  by_cases h : g = f
  · subst h
    split <;> simp
  · split <;> simp [h, getVf_modVf_ne]

theorem commands_endCmd {s : State} (hq : s.pkg.cmdq = []) (f status : Nat) : commands (endCmd s f status) = commands s := by
  rw [endCmd_last hq]
  simp only [commands, endedCmd_pkg, hq]

theorem endCmd_cmdRun {s : State} (hq : s.pkg.cmdq = []) (f status g : Nat) :
    (getVf (endCmd s f status) g).cmdRun = if g = f then false else (getVf s g).cmdRun := by
  rw [endCmd_last hq]
  exact endedCmd_cmdRun s f status g

/-- The commands of a list of functions end one after another, none in between. -/
theorem foldl_endCmd (st : Nat → Nat) (l : List Nat) {s : State} (hq : s.pkg.cmdq = []) :
    commands (l.foldl (fun a f => endCmd a f (st f)) s) = commands s
    ∧ ∀ g, (getVf (l.foldl (fun a f => endCmd a f (st f)) s) g).cmdRun = if g ∈ l then false else (getVf s g).cmdRun := by
  induction l generalizing s with
  | nil => simp
  | cons f t ih =>
    have hc := commands_endCmd hq f (st f)
    have hq' : (endCmd s f (st f)).pkg.cmdq = [] := (congrArg Prod.fst hc).trans hq
    obtain ⟨h1, h2⟩ := ih hq'
    refine ⟨h1.trans hc, fun g => ?_⟩
    rw [List.foldl_cons, h2, endCmd_cmdRun hq]
    by_cases hg : g ∈ t <;> by_cases hf : g = f <;> simp [hg, hf]

theorem commands_runTeardown (s : State) (x : Teardown) : commands (runTeardown s x) = commands s := rfl

/-- The management core restarts: no command, commit or agreement is left, and every command in progress has ended. -/
theorem restartManagement_ends (s : State) :
    commands (restartManagement s) = ([], [], []) ∧ ∀ f ∈ s.pkg.cmdq, (getVf (restartManagement s) f).cmdRun = false := by
  unfold restartManagement
  extract_lets done s1 p s2
  have h2 : commands (s2.pkg.teardowns.foldl runTeardown s2) = ([], [], []) := foldl_keeps commands_runTeardown _ _
  obtain ⟨hc, hrun⟩ := foldl_endCmd (fun f => if f = 0 ∧ done then 0 else 6) s.pkg.cmdq (congrArg Prod.fst h2)
  exact ⟨hc.trans h2, fun f hf => (hrun f).trans (if_pos hf)⟩

/-- With no command, commit or teardown, a restart of the management core touches no more than its own tables. -/
theorem restartManagement_idle {s : State} (hq : s.pkg.cmdq = []) (hj : s.pkg.journal = []) (ht : s.pkg.teardowns = []) :
    (restartManagement s).mem = s.mem ∧ (restartManagement s).threads = s.threads
    ∧ (restartManagement s).pkg = { s.pkg with agreed := [], table := [] } := by
  simp [restartManagement, hq, hj, ht]

/-! Watchdogs (R402). -/

/-- The state in which a watchdog no longer counts from its last service. -/
def unwatched (s : State) (ev : Instr) (args : List Nat) : State :=
  { s with agenda := s.agenda.filter fun (i : Item) => !(i.ev == ev && i.args == args) }

section Watchdog

variable {what : Nat} (s : State) (time : Nat) (ev : Instr) (args : List Nat) (expired : State → State)

theorem watchdog_expires (h : what = 0) : watchdog s what time ev args expired = expired (unwatched s ev args) := by
  rw [h]
  rfl

theorem watchdog_lastService (h : what = 1) :
    watchdog s what time ev args expired = sched (unwatched s ev args) (s.mer + time) ev args := by
  rw [h]
  rfl

theorem watchdog_serviced (h : 2 ≤ what) : watchdog s what time ev args expired = unwatched s ev args := by
  obtain ⟨k, rfl⟩ := Nat.exists_eq_add_of_le' h
  rfl

end Watchdog

theorem managementRestart_expires {s : State} (h : argN s 1 = 0) :
    exec .managementRestart s = .next (restartManagement (unwatched s .managementRestart [])) :=
  congrArg Host.Outcome.next (watchdog_expires s _ _ _ _ h)

/-- The management core's watchdog expires: commands, commits and agreements are gone, and what ran has ended. -/
theorem managementRestart_ends {s : State} (h : argN s 1 = 0) :
    ∃ t : State, exec .managementRestart s = .next t ∧ t.pkg.cmdq = [] ∧ t.pkg.journal = [] ∧ t.pkg.agreed = []
      ∧ ∀ f ∈ s.pkg.cmdq, (getVf t f).cmdRun = false := by
  obtain ⟨hc, hrun⟩ := restartManagement_ends (unwatched s .managementRestart [])
  simp only [commands, Prod.mk.injEq] at hc
  obtain ⟨hq, hj, ha⟩ := hc
  exact ⟨_, managementRestart_expires h, hq, hj, ha, hrun⟩

theorem managementRestart_idle {s : State} (h : argN s 1 = 0) (hq : s.pkg.cmdq = []) (hj : s.pkg.journal = [])
    (ht : s.pkg.teardowns = []) : ∃ t : State, exec .managementRestart s = .next t ∧ t.mem = s.mem ∧ t.threads = s.threads
      ∧ t.pkg = { s.pkg with agreed := [], table := [] } := by
  obtain ⟨hmem, hth, hpkg⟩ := restartManagement_idle (s := unwatched s .managementRestart []) hq hj ht
  exact ⟨_, managementRestart_expires h, hmem, hth, hpkg⟩

theorem managementRestart_lastService {s : State} (h : argN s 1 = 1) : exec .managementRestart s
    = .next (sched (unwatched s .managementRestart []) (s.mer + 400000000) .managementRestart []) :=
  congrArg Host.Outcome.next (watchdog_lastService s _ _ _ _ h)

theorem managementRestart_serviced {s : State} (h : 2 ≤ argN s 1) :
    exec .managementRestart s = .next (unwatched s .managementRestart []) :=
  congrArg Host.Outcome.next (watchdog_serviced s _ _ _ _ h)

theorem dieFirmwareRestart_expires {s : State} (h : argN s 1 = 0) :
    let w := mapGet 0 s.pkg.wdog (argN s 0)
    let s1 := unwatched s .dieFirmwareRestart [argN s 0, 0, argN s 2]
    exec .dieFirmwareRestart s
      = .next (if w ≠ 0 ∧ s.mer < w + 4000000000 then warmReset s1 else reloadDie s1 (argN s 0)) :=
  congrArg Host.Outcome.next (watchdog_expires s _ _ _ _ h)

theorem dieFirmwareRestart_lastService {s : State} (h : argN s 1 = 1) :
    let l := [argN s 0, 0, argN s 2]
    exec .dieFirmwareRestart s = .next (sched (unwatched s .dieFirmwareRestart l) (s.mer + 40000000) .dieFirmwareRestart l) :=
  congrArg Host.Outcome.next (watchdog_lastService s _ _ _ _ h)

theorem dieFirmwareRestart_serviced {s : State} (h : 2 ≤ argN s 1) :
    exec .dieFirmwareRestart s = .next (unwatched s .dieFirmwareRestart [argN s 0, 0, argN s 2]) :=
  congrArg Host.Outcome.next (watchdog_serviced s _ _ _ _ h)

end Sys2Proof.Machine
end

section
/-! SUPPORT. The reload of a die, and the graphs that it ends (12 R305, R313; 19 R402). -/

namespace Sys2Proof.Machine

/-! The end of a graph that stands alone (R305, R310, R313). -/

/-- A state without its dated steps. -/
def unscheduled (s : State) : State := { s with seq := 0, agenda := [] }

/-- States that differ in dated steps alone have the same graphs, functions, package and memory. -/
theorem of_unscheduled {s t : State} (h : unscheduled t = unscheduled s) :
    t.graphs = s.graphs ∧ t.vfs = s.vfs ∧ t.pkg = s.pkg ∧ t.mem = s.mem := by
  have hgraphs := congrArg State.graphs h
  have hvfs := congrArg State.vfs h
  have hpkg := congrArg State.pkg h
  have hmem := congrArg State.mem h
  exact ⟨hgraphs, hvfs, hpkg, hmem⟩

theorem unscheduled_kickNode (g : Nat) (s : State) (j : Nat) : unscheduled (kickNode g s j) = unscheduled s := by
  unfold kickNode
  dsimp only
  split <;> rfl

theorem unscheduled_kickReady (s : State) (vf : Nat) : unscheduled (kickReady s vf) = unscheduled s :=
  foldl_keeps (fun a e => by
    split
    · exact foldl_keeps (unscheduled_kickNode e.1) _ _
    · rfl) _ _

theorem endWaits_none {s : State} (h : ∀ e ∈ s.ops, e.2.node = none) (g : Nat) : endWaits s g = s :=
  List.foldlRecOn (motive := (· = s)) _ _ rfl fun a ha e he => by
    simp only [h e he]
    exact ha

theorem pump_none {s : State} (h : s.graphs = []) (vf : Nat) : pump s vf = s := by simp [pump, h]

/-- A graph that has failed with one status. -/
def failedWith (x : Graph) (status node fcode : Nat) : Graph :=
  { x with failed := true, status := status, node := node, fcode := fcode }

/-- A graph of which only launches run. -/
def cutGraph (x : Graph) : Graph :=
  { x with nodes := x.nodes.map fun nd => if nd.st = .running ∧ nd.ty ≠ 1 then { nd with st := .done } else nd }

/-- A launch that runs keeps a cut graph under way. -/
theorem cutGraph_live {x : Graph} (h : ∃ n ∈ x.nodes, n.st = .running ∧ n.ty = 1) (failed : Bool) :
    (cutGraph x).nodes.any (liveNode failed) = true := by
  obtain ⟨n, hn, hst, hty⟩ := h
  exact List.any_eq_true.2 ⟨n, List.mem_map.2 ⟨n, hn, if_neg (by simp [hty])⟩, by simp [liveNode, hst]⟩

/-- A cut graph that has failed and in which no launch runs has no node under way. -/
theorem cutGraph_still {x : Graph} (h : ∀ n ∈ x.nodes, ¬ (n.st = .running ∧ n.ty = 1)) :
    (cutGraph x).nodes.any (liveNode true) = false := by
  refine List.any_eq_false.2 fun m hm => ?_
  obtain ⟨n, hn, rfl⟩ := List.mem_map.1 hm
  split
  · simp [liveNode]
  · rename_i hkept
    have hstill : n.st ≠ .running := fun hst =>
      hkept ⟨hst, fun hty => h n hn ⟨hst, hty⟩⟩
    simp only [liveNode, Bool.not_true, Bool.false_and, Bool.or_false, beq_iff_eq]
    exact hstill

theorem completionOf_aborted (x : Graph) :
    completionOf (failedWith (cutGraph x) 10 0xFFFF 0) = x.cplval + 10 * 2 ^ 64 + 0xFFFF * 2 ^ 80 := by
  have hcode : (failedWith (cutGraph x) 10 0xFFFF 0).fcode = 0 := rfl
  rw [completionOf, hcode, ite_self, Nat.zero_mul, Nat.add_zero]
  rfl

section OneGraph

variable {s : State} {g : Nat} {x : Graph} (hg : s.graphs = [(g, x)])
include hg

theorem getGraph_single : getGraph s g = x := by simp [getGraph, hg, mapGet]

theorem modGraph_single (f : Graph → Graph) : modGraph s g f = { s with graphs := [(g, f x)] } := by
  unfold modGraph
  rw [getGraph_single hg, hg]
  by_cases h : x = f x
  · simp [mapSet, mapGet, ← h]
  · simp [mapSet, mapGet, mapPut, h]

theorem cutNodes_single (hops : ∀ e ∈ s.ops, e.2.node = none) :
    cutNodes s g = { s with graphs := [(g, cutGraph x)] } := by
  unfold cutNodes
  rw [endWaits_none hops, modGraph_single hg]
  rfl

theorem failGraph_single (hf : x.failed = false) (status node fcode : Nat) :
    unscheduled (failGraph s g status node fcode)
      = unscheduled { s with graphs := [(g, failedWith x status node fcode)] } := by
  unfold failGraph
  rw [getGraph_single hg, modGraph_single hg, if_neg (by simp [hf]), unscheduled_kickReady]
  rfl

theorem endGraph_live (h : x.nodes.any (liveNode x.failed) = true) : endGraph s g = s := by
  simp [endGraph, getGraph_single hg, h]

theorem endGraph_completes (hs : x.started = true) (hr : x.recs = 0) (h : x.nodes.any (liveNode x.failed) = false) :
    endGraph s g = completeRecord s g := by
  simp [endGraph, getGraph_single hg, hs, hr, h]

theorem completeRecord_single :
    (completeRecord s g).graphs = []
    ∧ (x.cpladdr ≠ 0 → x.mute = false → (getVf s x.vf).tstop = false → linkCut s x.vf = false →
      (completeRecord s g).mem
        = wrMem s.mem (hostAddr (qPasid (getQ s x.vf x.q).cfg) x.cpladdr) 16 (completionOf x)) := by
  unfold completeRecord
  rw [getGraph_single hg]
  extract_lets y cfg s1 s2
  have hs2 : s2.graphs = s1.graphs ∧ s2.mem = s1.mem := by
    unfold s2
    split
    · rw [raiseMsix_eq]
      exact ⟨rfl, rfl⟩
    · exact ⟨rfl, rfl⟩
  have hs1 : s1.graphs = [(g, x)] := by
    unfold s1
    split
    · exact hg
    · exact hg
  have hdel : mapDel s2.graphs g = [] := by simp [hs2.1, hs1, mapDel]
  rw [pump_none hdel]
  refine ⟨hdel, fun ha hm ht hl => ?_⟩
  have hopen : ¬ (x.cpladdr = 0 ∨ x.mute = true ∨ (getVf s x.vf).tstop = true ∨ linkCut s x.vf = true) := by
    simp [ha, hm, ht, hl]
  change s2.mem = _
  rw [hs2.2]
  unfold s1
  rw [if_neg hopen]
  rfl

end OneGraph

/-! The reload of a die (R402). -/

/-- A die whose firmware columns are being reloaded: their threads and watchdogs are gone (R402). -/
def firmwareGone (s : State) (die : Nat) : State :=
  { s with
    threads := s.threads.filter fun e => !(dieOf e.1 == die && isFirmware s die (coreOf e.1))
    agenda := s.agenda.filter fun (i : Item) => !(i.ev == Instr.dieFirmwareRestart && i.args.headD 0 == die)
    pkg := { s.pkg with wdog := mapSet 0 s.pkg.wdog die (s.mer + 1) } }

/-- A graph with a node on a die whose firmware is gone ends with ABORTED (R402). -/
def endOnDie (die : Nat) (a : State) (e : Nat × Graph) : State :=
  if e.2.nodes.any fun n => n.die == die then endGraph (failGraph (cutNodes a e.1) e.1 10 0xFFFF 0) e.1 else a

/-- What a reload shows outside its firmware. -/
def shown (s : State) : Map Thread × Memory × Map Collector × Map Graph := (s.threads, s.mem, s.cols, s.graphs)

theorem shown_runTeardown (s : State) (x : Teardown) : shown (runTeardown s x) = shown s := rfl

theorem shown_reloadDie (s : State) (die : Nat) :
    shown (reloadDie s die) = shown (s.graphs.foldl (endOnDie die) (firmwareGone s die)) :=
  foldl_keeps (p := shown) shown_runTeardown _ _

theorem reloadDie_noGraph {s : State} (hg : s.graphs = []) (die : Nat) :
    (reloadDie s die).threads = s.threads.filter (fun e => !(dieOf e.1 == die && isFirmware s die (coreOf e.1)))
    ∧ (reloadDie s die).mem = s.mem ∧ (reloadDie s die).cols = s.cols := by
  have h := shown_reloadDie s die
  simp only [shown, hg, List.foldl_nil, Prod.mk.injEq] at h
  obtain ⟨hth, hmem, hcols, -⟩ := h
  exact ⟨hth, hmem, hcols⟩

section OneGraph

variable {s : State} {g : Nat} {x : Graph} (die : Nat) (hg : s.graphs = [(g, x)])
include hg

theorem shown_reloadDie_single : shown (reloadDie s die) = shown (endOnDie die (firmwareGone s die) (g, x)) := by
  rw [shown_reloadDie, hg]
  rfl

theorem reloadDie_elsewhere (h : ∀ n ∈ x.nodes, n.die ≠ die) : (reloadDie s die).graphs = s.graphs := by
  have hz := shown_reloadDie_single die hg
  have hoff : ¬ x.nodes.any (fun n => n.die == die) = true := by simpa using h
  rw [endOnDie, if_neg hoff] at hz
  exact congrArg (·.2.2.2) hz

theorem shown_reloadDie_onDie (hon : ∃ n ∈ x.nodes, n.die = die) : shown (reloadDie s die)
    = shown (endGraph (failGraph (cutNodes (firmwareGone s die) g) g 10 0xFFFF 0) g) := by
  rw [shown_reloadDie_single die hg, endOnDie, if_pos (by simpa using hon)]

theorem failGraph_cutNodes (hf : x.failed = false) (hops : ∀ e ∈ s.ops, e.2.node = none) :
    unscheduled (failGraph (cutNodes (firmwareGone s die) g) g 10 0xFFFF 0)
      = unscheduled { firmwareGone s die with graphs := [(g, failedWith (cutGraph x) 10 0xFFFF 0)] } := by
  rw [cutNodes_single (s := firmwareGone s die) hg hops]
  exact failGraph_single (s := { firmwareGone s die with graphs := [(g, cutGraph x)] }) rfl hf 10 0xFFFF 0

variable (hf : x.failed = false) (hops : ∀ e ∈ s.ops, e.2.node = none) (hon : ∃ n ∈ x.nodes, n.die = die)
include hf hops hon

theorem reloadDie_launchRuns (h : ∃ n ∈ x.nodes, n.st = .running ∧ n.ty = 1) :
    (reloadDie s die).graphs = [(g, failedWith (cutGraph x) 10 0xFFFF 0)] := by
  obtain ⟨hgr, -⟩ := of_unscheduled (failGraph_cutNodes die hg hf hops)
  have hz := shown_reloadDie_onDie die hg hon
  rw [endGraph_live hgr (cutGraph_live h true)] at hz
  exact (congrArg (·.2.2.2) hz).trans hgr

theorem reloadDie_ends (h : ∀ n ∈ x.nodes, ¬ (n.st = .running ∧ n.ty = 1)) (hs : x.started = true) (hr : x.recs = 0) :
    (reloadDie s die).graphs = []
    ∧ (x.cpladdr ≠ 0 → x.mute = false → (getVf s x.vf).tstop = false → linkCut s x.vf = false →
      (reloadDie s die).mem = wrMem s.mem (hostAddr (qPasid (getQ s x.vf x.q).cfg) x.cpladdr) 16
        (x.cplval + 10 * 2 ^ 64 + 0xFFFF * 2 ^ 80)) := by
  obtain ⟨hgr, hvfs, hpkg, hmem⟩ := of_unscheduled (failGraph_cutNodes die hg hf hops)
  have hz := shown_reloadDie_onDie die hg hon
  generalize failGraph (cutNodes (firmwareGone s die) g) g 10 0xFFFF 0 = b at hgr hvfs hpkg hmem hz
  have hvf : getVf b x.vf = getVf s x.vf := congrArg (fun m => mapGet (vf0 x.vf) m x.vf) hvfs
  have hlink : linkCut b x.vf = linkCut s x.vf := by simp [linkCut, insecure, hpkg, firmwareGone]
  have hq : getQ b x.vf x.q = getQ s x.vf x.q := by simp only [getQ, hvf]
  rw [endGraph_completes hgr hs hr (cutGraph_still h)] at hz
  obtain ⟨hend, hwr⟩ := completeRecord_single hgr
  refine ⟨(congrArg (·.2.2.2) hz).trans hend, fun ha hm ht hl => (congrArg (·.2.1) hz).trans ?_⟩
  refine (hwr ha hm ((congrArg Vf.tstop hvf).trans ht) (hlink.trans hl)).trans ?_
  rw [completionOf_aborted, hmem]
  exact congrArg (fun y : Queue => wrMem s.mem (hostAddr (qPasid y.cfg) x.cpladdr) 16 _) hq

end OneGraph

/-- Settles O55, event by event: the warning and the holds, the sensors, the two resets, the three watchdogs, the freezing
of a partition, and the reload of a die without a graph and with one. -/
theorem resetsAndHoldsTakeEffect : Obligations.ResetsAndHoldsTakeEffect := by
  intro s warned w holds
  refine ⟨rfl, holdPackage_takes 1 (argN s 0) rfl, holdPackage_takes 2 0 rfl, holdPackage_takes 3 0 rfl,
    sensorRefresh_reads s, coldReset_leaves s, warmReset_leaves s, managementRestart_ends,
    managementRestart_idle, ⟨managementRestart_lastService, managementRestart_serviced⟩,
    ⟨dieFirmwareRestart_expires, dieFirmwareRestart_lastService, dieFirmwareRestart_serviced⟩,
    fun vf => ⟨by simp, stopVf_trips, stopVf_waits⟩, fun die => ⟨fun hg _ => reloadDie_noGraph hg die, ?_⟩⟩
  intro g x hg _ hf hops
  refine ⟨reloadDie_elsewhere die hg, fun hon => ⟨fun h => ?_, reloadDie_ends die hg hf hops hon⟩⟩
  exact ⟨_, reloadDie_launchRuns die hg hf hops hon h, rfl, rfl, rfl, rfl⟩

end Sys2Proof.Machine
end

section
/-! SUPPORT. Mask requests, flush tokens and privileged replies (06 R167 to R175; 08 R231, R237, R238, R406). -/

namespace Sys2Proof.Machine

/-! Acceptance and completion of a mask request (R171 to R175). -/

/-- The engine of a request is taken up to the promise p, if its partition has that engine. -/
def engineTaken (s : State) (o : Op) (p : Nat) : State :=
  if maskHas (getVf s o.vf).layout.meng o.n then { s with maskFree := mapSet 0 s.maskFree o.n p } else s

/-- Request id of thread t accepted with promise p: it has what it read, its pages and its e1 entry, its end is dated, and
the next request may start. -/
def maskAccepted (s : State) (id t p : Nat) (m : Option MaskHead) (l : List (Nat × Nat)) : State :=
  let o := getOp s id
  let read := keepPages (modOp (engineTaken s o p) id fun x => { x with p := p, head := m }) id l
  runMasks (sched (fillReply read t 1 id p s.mer) p .maskComplete [id, 1]) o.vf o.die

section Mask

variable {s : State} (hop : hasOp s (argN s 0) = true)
include hop

theorem maskAccept_reads {t : Nat} {m : MaskHead} {l : List (Nat × Nat)} (ht : (getOp s (argN s 0)).thread = some t)
    (hm : maskHead s (getOp s (argN s 0)) = .ok m l) :
    let id := argN s 0
    let o := getOp s id
    let p := s.mer + 64 + o.ty / 16 + 32 * m.count
    let s1 := enterWrites (maskAccepted s id t p (some m) l) id s.mer (p - 1)
    let d := drawIn s1 o.vf s.mer ((getOp s1 id).parts.foldl (fun b x => if x.due = 0 then b else min b x.due) (p - 1))
    exec .maskAccept s = .next (sched d.2 d.1 .maskComplete [id, 0]) := by
  show execMaskAccept s = _
  simp only [execMaskAccept, maskAccepted, engineTaken, hop, ht, hm, Option.getD_some, Bool.not_true,
    Bool.false_eq_true, if_false]

theorem maskAccept_stops {t : Nat} {r : DevRead} {l : List (Nat × Nat)} (ht : (getOp s (argN s 0)).thread = some t)
    (hr : maskHead s (getOp s (argN s 0)) = .stop r l) :
    let id := argN s 0
    let o := getOp s id
    let s1 := maskAccepted s id t (s.mer + 64 + o.ty / 16) none l
    exec .maskAccept s = .next (maskStop s1 id (readWords s1 (getOp s1 id) o.t0 l) r) := by
  show execMaskAccept s = _
  simp only [execMaskAccept, maskAccepted, engineTaken, hop, ht, hr, Option.getD_none, Nat.mul_zero,
    Nat.add_zero, Bool.not_true, Bool.false_eq_true, if_false]

section Pending

variable (hc : (getOp s (argN s 0)).complete = false) (hf : (getOp s (argN s 0)).failed = false)
include hc hf

theorem maskComplete_writes {m : MaskHead} {v : Nat} {bad : Bool} (h0 : argN s 1 = 0)
    (hsw : swapped s (getOp s (argN s 0)) = false) (hm : (getOp s (argN s 0)).head = some m) :
    let id := argN s 0
    let s1 := keepPages (modOp s id fun x => { x with head := some m }) id (restSpans s (getOp s id) m)
    maskResult s1 (getOp s1 id) m = .ok v bad → exec .maskComplete s = .next (maskWrites s1 id v bad) := by
  intro id s1 hv
  show execMaskComplete s = _
  simp only [execMaskComplete, hop, hc, hf, h0, hsw, hm, hv, List.nil_append, Bool.not_true, Bool.false_eq_true, or_self,
    if_false, if_true, id, s1]

theorem maskComplete_stops {r : DevRead} {l : List (Nat × Nat)} (h0 : argN s 1 = 0)
    (hsw : swapped s (getOp s (argN s 0)) = false) (hn : (getOp s (argN s 0)).head = none)
    (hr : maskHead s (getOp s (argN s 0)) = .stop r l) :
    let id := argN s 0
    let s1 := keepPages s id l
    exec .maskComplete s = .next (maskStop s1 id (readWords s1 (getOp s1 id) (getOp s id).t0 l) r) := by
  show execMaskComplete s = _
  simp only [execMaskComplete, hop, hc, hf, h0, hsw, hn, hr, Bool.not_true, Bool.false_eq_true, or_self, if_false, if_true]

omit hf in
/-- At its promise a mask request that is not held, is translated and has written all its parts is complete (R226). -/
theorem completeRequest_done (hk : (getOp s (argN s 0)).kind = .mask) (hw : s.wacts = [])
    (hh : (getOp s (argN s 0)).held = none) (hpages : ∀ g ∈ (getOp s (argN s 0)).pages, g.pa.isSome = true)
    (hparts : ∀ p ∈ (getOp s (argN s 0)).parts, partDone s (getOp s (argN s 0)) p = true) :
    completeRequest s = .next (finishRequest s (argN s 0)) := by
  have hall := List.all_eq_true.2 hpages
  have hput := List.all_eq_true.2 hparts
  simp [completeRequest, hw, hop, hc, hk, hh, hall, hput]

theorem maskComplete_promised (h1 : argN s 1 ≠ 0) (hk : (getOp s (argN s 0)).kind = .mask) :
    exec .maskComplete s = completeRequest s := by
  show execMaskComplete s = _
  simp [execMaskComplete, hop, hc, hf, h1, hk]

end Pending

end Mask

/-! The tokens of a flush request (R231). -/

/-- A token that has arrived at a flush request. -/
def tokenArrived (s : State) (id : Nat) : State := modOp s id fun x => { x with n := x.n - 1, result := s.mer }

section Token

variable {s : State} (hop : hasOp s (argN s 0) = true)
include hop

theorem flushTokenArrive_waits (h : (getOp s (argN s 0)).n ≠ 1 ∨ (getOp s (argN s 0)).dies ≠ []) :
    exec .flushTokenArrive s = .next (tokenArrived s (argN s 0)) := by
  show execFlushTokenArrive s = _
  simp only [execFlushTokenArrive, tokenArrived, hop, if_pos h, Bool.not_true, Bool.false_eq_true, if_false]

section Last

variable (hn : (getOp s (argN s 0)).n = 1) (hd : (getOp s (argN s 0)).dies = [])
include hn hd

theorem flushTokenArrive_fills {t : Nat} (ht : (getOp s (argN s 0)).thread = some t)
    (hg : (getOp s (argN s 0)).granted = false) :
    let id := argN s 0
    exec .flushTokenArrive s = .next (flushCheck (dropOp (fillReply (tokenArrived s id) t 2 id s.mer s.mer) id) t) := by
  show execFlushTokenArrive s = _
  simp [execFlushTokenArrive, tokenArrived, hop, hn, hd, hg, ht]

theorem flushTokenArrive_writes (hg : (getOp s (argN s 0)).granted = true) :
    let id := argN s 0
    let o := getOp s id
    exec .flushTokenArrive s = .next (sched
      (modOp (tokenArrived s id) id fun x =>
        { x with parts := wordWrite o.b (BitVec.ofNat 64 o.size), pages := wordPage o.b 1, p := s.mer + 1024 })
      s.mer .copyTranslate [id, 0]) := by
  show execFlushTokenArrive s = _
  simp [execFlushTokenArrive, tokenArrived, hop, hn, hd, hg]

end Last

end Token

/-! An untranslated access of firmware at its home (R237, R382). -/

section SpaceZero

variable {s : State} {id t : Nat} (ht : (getOp s id).thread = some t)
include ht

theorem spaceZero_noMemory (hpa : paOk s 0 (getOp s id).a = false) :
    spaceZero s id = privEnd (deferPoison s t 5 (getOp s id).b) id (2 ^ 64 - 1) := by
  simp [spaceZero, hpa, ht, allOnes]

omit ht in
theorem spaceZero_closed (hpa : paOk s 0 (getOp s id).a = true) (hcl : closedGranule s (getOp s id).a = true) :
    spaceZero s id = privEnd s id (2 ^ 64 - 1) := by
  simp [spaceZero, hpa, hcl, allOnes]

variable (hpa : paOk s 0 (getOp s id).a = true) (hcl : closedGranule s (getOp s id).a = false)
include hpa hcl

section Load

variable {v : Nat} {bad : Bool} (hopc : (getOp s id).opc = 0x3C)
  (hrd : readLine s (getOp s id).a (getOp s id).n 8 = .ok v bad)
include hopc hrd

omit ht in
theorem spaceZero_loads (hbad : bad = false) (hcrc : (getOp s id).crc = false) :
    spaceZero s id = privEnd (sawLine s (lineKey (getOp s id) (getOp s id).a) (getOp s id).a) id v := by
  simp [spaceZero, hpa, hcl, hopc, hrd, hbad, hcrc]

theorem spaceZero_loads_poison (hbad : bad = true ∨ (getOp s id).crc = true) :
    let o := getOp s id
    let w := draw (sawLine s (lineKey o o.a) o.a) o.vf 0 (2 ^ 64 - 1)
    spaceZero s id = privEnd (deferPoison w.2 t 2 o.b) id w.1 := by
  have hor : (bad || (getOp s id).crc) = true := by simpa using hbad
  simp [spaceZero, hpa, hcl, hopc, hrd, hor, ht, allOnes]

end Load

omit ht in
theorem spaceZero_stores {s2 : State} {latent : Bool} (hopc : (getOp s id).opc = 0x3D) :
    let o := getOp s id
    writeLine (sawPart s (lineKey o o.a) o.a o.n 8 false) o.a o.n 8 o.size o.crc false = .ok s2 latent →
    spaceZero s id = privEnd (observe (if latent then latentLine s2 id o.a else s2) o.a 8) id 0 := by
  intro o hwr
  simp [spaceZero, hpa, hcl, hopc, hwr, o]

end SpaceZero

/-! The reply of a privileged request (R237, R238, R406). -/

section Reply

variable {s : State} (hop : hasOp s (argN s 0) = true)
include hop

theorem privilegedUnreachableTimeout_ends {t : Nat} (ht : (getOp s (argN s 0)).thread = some t) :
    exec .privilegedUnreachableTimeout s
      = .next (privEnd (deferPoison s t 5 (getOp s (argN s 0)).b) (argN s 0) (2 ^ 64 - 1)) := by
  show execPrivilegedUnreachableTimeout s = _
  simp [execPrivilegedUnreachableTimeout, hop, ht, allOnes]

theorem privilegedReply_acknowledges (h1 : argN s 1 = 1) :
    exec .privilegedReply s = .next (privEnd s (argN s 0) 0) := by
  show execPrivilegedReply s = _
  simp [execPrivilegedReply, hop, h1]

variable (h1 : argN s 1 ≠ 1)
include h1

section Window

variable {t : Nat} (ht : (getOp s (argN s 0)).thread = some t)
include ht

theorem privilegedReply_readsWindow (hopc : (getOp s (argN s 0)).opc = 0x3E)
    (hin : inWindow s t (getOp s (argN s 0)).a = true) :
    let id := argN s 0
    let o := getOp s id
    let s1 := settleTh s o.a
    exec .privilegedReply s = .next (privEnd (modTh s1 o.a (seeElem (o.b / 2 ^ 16) (o.b % 2 ^ 16))) id
      (winRead s1 o.a (o.b / 2 ^ 16) (o.b % 2 ^ 16))) := by
  show execPrivilegedReply s = _
  simp [execPrivilegedReply, hop, h1, hopc, ht, hin]

theorem privilegedReply_outOfWindow (hopc : (getOp s (argN s 0)).opc = 0x3E)
    (hin : inWindow s t (getOp s (argN s 0)).a = false) :
    exec .privilegedReply s = .next (privEnd s (argN s 0) (2 ^ 64 - 1)) := by
  show execPrivilegedReply s = _
  simp [execPrivilegedReply, hop, h1, hopc, ht, hin, allOnes]

theorem privilegedReply_writesWindow (hopc : (getOp s (argN s 0)).opc = 0x3F)
    (hin : inWindow s t (getOp s (argN s 0)).a = true) :
    let id := argN s 0
    let o := getOp s id
    exec .privilegedReply s = .next (privEnd (modTh (settleTh s o.a) o.a fun th =>
      winWrite th (o.b / 2 ^ 16) (o.b % 2 ^ 16) o.size) id 0) := by
  show execPrivilegedReply s = _
  simp [execPrivilegedReply, hop, h1, hopc, ht, hin]

end Window

theorem privilegedReply_atHome (hopc : (getOp s (argN s 0)).opc = 0x3C ∨ (getOp s (argN s 0)).opc = 0x3D)
    (h0 : (getOp s (argN s 0)).b / 2 ^ 62 = 0) : exec .privilegedReply s = .next (spaceZero s (argN s 0)) := by
  show execPrivilegedReply s = _
  rcases hopc with hopc | hopc <;>
    simp only [execPrivilegedReply, hop, h1, hopc, h0, Bool.not_true, Bool.false_eq_true, Nat.reduceEqDiff, if_false,
      if_true]

theorem privilegedReply_readsControl (hopc : (getOp s (argN s 0)).opc = 0x3C)
    (h0 : (getOp s (argN s 0)).b / 2 ^ 62 ≠ 0) : exec .privilegedReply s
      = .next (privEnd (readOvf s (getOp s (argN s 0)).a) (argN s 0) (ctlSpaceRead s (getOp s (argN s 0)).a)) := by
  show execPrivilegedReply s = _
  simp only [execPrivilegedReply, hop, h1, hopc, h0, Bool.not_true, Bool.false_eq_true, Nat.reduceEqDiff, if_false, if_true]

theorem privilegedReply_writesControl (hopc : (getOp s (argN s 0)).opc = 0x3D)
    (h0 : (getOp s (argN s 0)).b / 2 ^ 62 ≠ 0) : exec .privilegedReply s
      = .next (privEnd (ctlSpaceWrite s (getOp s (argN s 0)).a (getOp s (argN s 0)).size) (argN s 0) 0) := by
  show execPrivilegedReply s = _
  simp only [execPrivilegedReply, hop, h1, hopc, h0, Bool.not_true, Bool.false_eq_true, Nat.reduceEqDiff, if_false]

end Reply

/-- Settles O38: acceptance and completion of a mask request, then the tokens of a flush, the privileged replies by the kind
of access, and the home that stays unreachable. -/
theorem maskEventsAndRepliesTakeEffect : Obligations.MaskEventsAndRepliesTakeEffect := by
  refine ⟨?_, ?_⟩
  · intro s id o hop engine accepted
    refine ⟨fun t m l ht hm => maskAccept_reads hop ht hm, fun t r l ht hr => maskAccept_stops hop ht hr,
      fun hc hf h0 hsw => ⟨fun m v bad hm => maskComplete_writes hop hc hf h0 hsw hm,
        fun r l hn hr => maskComplete_stops hop hc hf h0 hsw hn hr⟩, ?_⟩
    intro hc hf h1 hk hw hh hpages hparts
    exact (maskComplete_promised hop hc hf h1 hk).trans (completeRequest_done hop hc hk hw hh hpages hparts)
  · intro s id o hop t ht s1 write
    refine ⟨fun hn hd hg => flushTokenArrive_fills hop hn hd ht hg, fun hn hd hg => flushTokenArrive_writes hop hn hd hg,
      flushTokenArrive_waits hop, privilegedReply_acknowledges hop, fun h1 => ?_, privilegedUnreachableTimeout_ends hop ht⟩
    have home (hopc : o.opc = 0x3C ∨ o.opc = 0x3D) (h0 : o.b / 2 ^ 62 = 0) {x : State} (hx : spaceZero s id = x) :
        exec .privilegedReply s = .next x := (privilegedReply_atHome hop h1 hopc h0).trans (congrArg _ hx)
    refine ⟨privilegedReply_readsWindow hop h1 ht, privilegedReply_outOfWindow hop h1 ht,
      privilegedReply_writesWindow hop h1 ht, ?_, ?_, ?_, ?_, privilegedReply_readsControl hop h1,
      privilegedReply_writesControl hop h1⟩
    · exact fun hopc h0 hpa => home hopc h0 (spaceZero_noMemory ht hpa)
    · exact fun hopc h0 hcl hpa => home hopc h0 (spaceZero_closed hpa hcl)
    · exact fun v bad hopc h0 hcl hpa hrd =>
        ⟨fun hbad hcrc => home (.inl hopc) h0 (spaceZero_loads hpa hcl hopc hrd hbad hcrc),
          fun hbad => home (.inl hopc) h0 (spaceZero_loads_poison ht hpa hcl hopc hrd hbad)⟩
    · exact fun s2 latent hopc h0 hcl hpa hwr => home (.inr hopc) h0 (spaceZero_stores hpa hcl hopc hwr)

end Sys2Proof.Machine
end

section
/-! SUPPORT. The host link, lost routes, IDE streams and soft errors (01 R29; 07 R204; 10 R258; 19 R398 to R400). -/

namespace Sys2Proof.Machine

/-! CXL.mem (R29, R399). -/

section CxlMem

variable {s : State}

theorem cxlMemRequest_insecure (h : insecure s (argN s 5) = true) : exec .cxlMemRequest s = .next s := by
  show execCxlMemRequest s = _
  simp [execCxlMemRequest, h]

variable (hoff : maskHas (foffer s) 10 = true) (hsec : insecure s (argN s 5) = false)
include hoff hsec

theorem cxlMemRequest_unserved (h0 : argN s 0 = 0)
    (h : paOk s 0 (argN s 1 / 64 * 64) = false ∨ closedGranule s (argN s 1 / 64 * 64) = true) :
    exec .cxlMemRequest s = .next (cxlAnswer s (argN s 1 / 64 * 64) 0 true) := by
  show execCxlMemRequest s = _
  simp [execCxlMemRequest, hoff, hsec, h, h0]

variable (hpa : paOk s 0 (argN s 1 / 64 * 64) = true) (hcl : closedGranule s (argN s 1 / 64 * 64) = false)
include hpa hcl

theorem cxlMemRequest_reads (h0 : argN s 0 = 0) {v : Nat} {bad : Bool}
    (hrd : readLine s (argN s 1 / 64 * 64) (argN s 2) 64 = .ok v bad) :
    let pa := argN s 1 / 64 * 64
    exec .cxlMemRequest s
      = .next (cxlAnswer (sawPacket (sawLine s (2 ^ 16 + paDie pa) pa) pa) pa v (bad || packetFails s pa)) := by
  show execCxlMemRequest s = _
  simp [execCxlMemRequest, hoff, hsec, hpa, hcl, h0, hrd]

theorem cxlMemRequest_wrongKey (h0 : argN s 0 = 0) (hrd : readLine s (argN s 1 / 64 * 64) (argN s 2) 64 = .key) :
    exec .cxlMemRequest s = .next (cxlAnswer s (argN s 1 / 64 * 64) 0 true) := by
  show execCxlMemRequest s = _
  simp [execCxlMemRequest, hoff, hsec, hpa, hcl, h0, hrd]

theorem cxlMemRequest_damaged (h0 : argN s 0 = 0) {c : Nat}
    (hrd : readLine s (argN s 1 / 64 * 64) (argN s 2) 64 = .integrity c) :
    let pa := argN s 1 / 64 * 64
    exec .cxlMemRequest s = .next (cxlAnswer (ownerIntegrity s pa (argN s 2) c) pa 0 true) := by
  show execCxlMemRequest s = _
  simp [execCxlMemRequest, hoff, hsec, hpa, hcl, h0, hrd]

theorem cxlMemRequest_writes (h0 : argN s 0 ≠ 0) {s1 : State} {l : Bool}
    (hwr : writeLine s (argN s 1 / 64 * 64) (argN s 2) 64 (argN s 4)
      (argN s 3 == 1 || packetFails s (argN s 1 / 64 * 64)) false = .ok s1 l) :
    let pa := argN s 1 / 64 * 64
    exec .cxlMemRequest s = .next (observe (sawPacket s1 pa) pa 64) := by
  show execCxlMemRequest s = _
  simp [execCxlMemRequest, hoff, hsec, hpa, hcl, h0, hwr]

end CxlMem

/-! Routes and streams (R258, R398). -/

theorem routeLossTimeout_fails {s : State} {g : PageReq} {x : Nat} (hpages : (getOp s (argN s 0)).pages = [g])
    (hx : g.pa = some x) (hfar : isRemote s x = true) (hperf : allPerformed (getOp s (argN s 0)) = false) :
    exec .routeLossTimeout s = .next (permFail s (argN s 0) 3 g.acc (firstDva (getOp s (argN s 0)) g)) := by
  show execRouteLossTimeout s = _
  simp [execRouteLossTimeout, hpages, hx, hfar, hperf]

/-- A key that read as v, or that is among those set to v, reads as v at the end. -/
theorem mapGet_foldl_mapSet {α : Type} [DecidableEq α] (d v : α) {l : List Nat} {m : Map α} {i : Nat}
    (h : mapGet d m i = v ∨ i ∈ l) : mapGet d (l.foldl (fun a k => mapSet d a k v) m) i = v := by
  induction l generalizing m with
  | nil => simpa using h
  | cons k t ih =>
    refine ih ?_
    by_cases hk : i = k
    · exact .inl (hk ▸ mapGet_mapSet_self d m i v)
    · simpa [mapGet_mapSet_ne d d m v hk, hk] using h

/-- A function whose traffic goes over an Insecure stream is cut off. -/
theorem linkCut_of_stream {s : State} {f k : Nat} (hf : mapGet 0 s.pkg.ideFn f = k + 1)
    (hk : mapGet false s.pkg.ide k = true) :
    linkCut s f = true := by
  simp [linkCut, insecure, hf, hk]

theorem ideMacFailure_cuts (s : State) :
    ∃ t : State, exec .ideMacFailure s = .next t ∧ mapGet false t.pkg.ide (argN s 0) = true ∧ t.mem = s.mem
      ∧ (∀ f ∈ s.args.drop 1, linkCut t f = true)
      ∧ ∀ k, k ≠ argN s 0 → mapGet false t.pkg.ide k = mapGet false s.pkg.ide k :=
  ⟨_, rfl, mapGet_mapSet_self _ _ _ _, rfl,
    fun _ hf => linkCut_of_stream (mapGet_foldl_mapSet _ _ (.inr hf)) (mapGet_mapSet_self _ _ _ _),
    fun _ hk => mapGet_mapSet_ne _ _ _ _ hk⟩

/-! What a soft error strikes, kind by kind (R204, R356, R399, R400). -/

theorem flipWord_first {s : State} {w : Nat} (h : mapGet false s.flips w = false) :
    flipWord s w = { s with flips := mapSet false s.flips w true } := by simp [flipWord, h]

theorem flipWord_second {s : State} {w : Nat} (h : mapGet false s.flips w = true) :
    flipWord s w = setPoison { s with flips := mapSet false s.flips w false } w true := by simp [flipWord, h]

@[simp] theorem flipWord_mem (s : State) (w : Nat) : (flipWord s w).mem = s.mem := by
  unfold flipWord
  split <;> rfl

@[simp] theorem treeNode_damageNode (s : State) (k : Nat) :
    treeNode (damageNode s k) k = { treeNode s k with bad := true } := by
  simp [treeNode, damageNode]

@[simp] theorem lineOf_setLine (s : State) (pa : Nat) (m : LineMeta) : lineOf (setLine s pa m) pa = m := by
  simp [lineOf, setLine]

/-- The line that a part of a request moves: that of its end in device memory. -/
def partLine (p : Part) : Nat := (if p.srcDev then p.src else p.dst) / 64

section Packet

variable {o : Op} {b : Nat}

theorem packetBad_beyond (h : o.parts.length ≤ b) : packetBad o b = { o with crc := true } := by simp [packetBad, h]

theorem packetBad_left (h : b < o.parts.length)
    (hput : ∃ p ∈ o.parts, partLine p = partLine (o.parts.getD b {}) ∧ p.put = true) : packetBad o b = o := by
  have hany : o.parts.any (fun p => partLine p == partLine (o.parts.getD b {}) && p.put) = true := by simpa using hput
  exact (if_neg (Nat.not_le.2 h)).trans (if_pos hany)

theorem packetBad_arrives (h : b < o.parts.length)
    (hput : ∀ p ∈ o.parts, partLine p = partLine (o.parts.getD b {}) → p.put = false) :
    (packetBad o b).parts
      = o.parts.map fun p =>
        if partLine p = partLine (o.parts.getD b {}) then { p with bad := true, crc := true } else p := by
  have hany : ¬ o.parts.any (fun p => partLine p == partLine (o.parts.getD b {}) && p.put) = true := by simpa using hput
  exact congrArg Op.parts ((if_neg (Nat.not_le.2 h)).trans (if_neg hany))

end Packet

/-- A packet of the line at a that is to fail is the next one of that line; those of other lines fail as before. -/
theorem packetFails_cons (s : State) (a l : Nat) :
    packetFails { s with pkg := { s.pkg with crcNext := a / 64 * 64 :: s.pkg.crcNext } } l
      = (decide (l / 64 = a / 64) || packetFails s l) := by
  have h : (l / 64 * 64 = a / 64 * 64) ↔ l / 64 = a / 64 := by omega
  simp [packetFails, h]

theorem softError_mem (s : State) : ∃ t : State, exec .softError s = .next t ∧ t.mem = s.mem := by
  show ∃ t, execSoftError s = .next t ∧ t.mem = s.mem
  unfold execSoftError
  split
  case h_1 => exact ⟨_, rfl, flipWord_mem s _⟩
  case h_8 => exact ⟨_, rfl, by split <;> rfl⟩
  all_goals exact ⟨_, rfl, rfl⟩

section SoftError

variable {s : State}

theorem softError_flips (h : argN s 0 = 0) : exec .softError s = .next (flipWord s (eccWord (argN s 1))) := by
  show execSoftError s = _
  simp only [execSoftError, h]

theorem softError_poisons (h : argN s 0 = 1) : exec .softError s = .next (setPoison s (eccWord (argN s 1)) true) := by
  show execSoftError s = _
  simp only [execSoftError, h]

theorem softError_losesLine (h : argN s 0 = 2) :
    let a := argN s 1
    exec .softError s = .next (setLine s a { lineOf s a with bad := 3 }) := by
  show execSoftError s = _
  simp only [execSoftError, h]

theorem softError_damagesLine (h : argN s 0 = 3) :
    let a := argN s 1
    exec .softError s = .next (setLine s a { lineOf s a with bad := 1, clean := false }) := by
  show execSoftError s = _
  simp only [execSoftError, h]

theorem softError_damagesNode (h : argN s 0 = 4) :
    let a := argN s 1
    exec .softError s
      = .next (damageNode (setLine s a { lineOf s a with clean := false }) ((treePath a).getD (argN s 2) 0)) := by
  show execSoftError s = _
  simp only [execSoftError, h]

theorem softError_strikesRegister (h : argN s 0 = 5) :
    exec .softError s = .next (modTh s (argN s 1) fun th => { th with parity := argN s 2 :: th.parity }) := by
  show execSoftError s = _
  simp only [execSoftError, h]

theorem softError_strikesTile (h : argN s 0 = 6) :
    exec .softError s
      = .next (modTh s (argN s 1) fun th => { th with parity := (1024 + argN s 2 % 2048) :: th.parity }) := by
  show execSoftError s = _
  simp only [execSoftError, h]

theorem softError_strikesPacket (h : argN s 0 = 7) (hop : hasOp s (argN s 1) = true) :
    exec .softError s = .next (modOp s (argN s 1) fun o => packetBad o (argN s 2)) := by
  show execSoftError s = _
  simp only [execSoftError, h, hop, if_true]

theorem softError_strikesNextPacket (h : argN s 0 = 9) :
    exec .softError s
      = .next { s with pkg := { s.pkg with crcNext := argN s 1 / 64 * 64 :: s.pkg.crcNext } } := by
  show execSoftError s = _
  simp only [execSoftError, h]

end SoftError

/-- Settles O46: the accesses of CXL.mem, then the lost route, the stream, and what a soft error strikes, kind by kind. -/
theorem linkEventsTakeEffect : Obligations.LinkEventsTakeEffect := by
  intro s pa key on open_ a b e
  refine ⟨?reads, ?writes, cxlMemRequest_insecure, ?unserved,
    fun g x => routeLossTimeout_fails, ideMacFailure_cuts s, ?strikes, rfl⟩
  case reads =>
    rintro ⟨⟨hoff, hsec⟩, hpa, hcl⟩ h0
    exact ⟨fun v bad => cxlMemRequest_reads hoff hsec hpa hcl h0, cxlMemRequest_wrongKey hoff hsec hpa hcl h0,
      fun c => cxlMemRequest_damaged hoff hsec hpa hcl h0⟩
  case writes =>
    rintro s1 l ⟨⟨hoff, hsec⟩, hpa, hcl⟩ h0
    exact cxlMemRequest_writes hoff hsec hpa hcl h0
  case unserved =>
    rintro ⟨hoff, hsec⟩ h0
    exact cxlMemRequest_unserved hoff hsec h0
  case strikes =>
    obtain ⟨t, ht, hmem⟩ := softError_mem s
    have becomes {u : State} (hu : exec .softError s = .next u) : t = u := Host.Outcome.next.inj (ht.symm.trans hu)
    refine ⟨t, ht, hmem, fun h hf => (becomes (softError_flips h)).trans (flipWord_first hf), ?second, ?word, ?line, ?mac,
      ?node, ?register, ?tile, ?beyond, ?nextPacket, ?packet⟩
    case second =>
      intro h hf
      rw [becomes (softError_flips h), show eccWord (argN s 1) = e from rfl, flipWord_second hf]
      exact ⟨poisoned_setPoison _ _ _, mapGet_mapSet_self _ _ _ _⟩
    case word =>
      intro h w
      rw [becomes (softError_poisons h), show eccWord (argN s 1) = e from rfl]
      split
      next hw => rw [hw, poisoned_setPoison]
      next hw => exact poisoned_setPoison_ne s true hw
    case line => exact fun h => by rw [becomes (softError_losesLine h), lineOf_setLine]
    case mac => exact fun h => by rw [becomes (softError_damagesLine h), lineOf_setLine]
    case node => exact fun h => by rw [becomes (softError_damagesNode h), treeNode_damageNode]
    case register => exact fun h => by rw [becomes (softError_strikesRegister h), getTh_modTh]
    case tile => exact fun h => by rw [becomes (softError_strikesTile h), getTh_modTh]
    case beyond => exact fun h hop hb => by rw [becomes (softError_strikesPacket h hop), getOp_modOp, packetBad_beyond hb]
    case nextPacket => exact fun h l => by rw [becomes (softError_strikesNextPacket h), packetFails_cons]
    case packet =>
      intro h hop hb
      rw [becomes (softError_strikesPacket h hop), getOp_modOp]
      exact ⟨fun hput => congrArg Op.parts (packetBad_left hb hput), packetBad_arrives hb⟩

end Sys2Proof.Machine
end

section
/-! SUPPORT. The domain, group and queue-pair commands, attestation and flash update (10 R256, R262, R266, R267; 15 R342; 19
R403, R405). -/

namespace Sys2Proof.Machine

/-- A command of the physical function passes the checks common to every command (R342). -/
theorem runCmd_pf {s : State} {opc : Nat} (target : Bool) (hr : runsCmd s (argN s 0) opc) (hf : argN s 0 = 0)
    (ht : target = true → namesVf s) (k : State) : runCmd s opc .pf target k = .next k := by
  obtain ⟨hrun, hhead, hopc, hhigh, hmid, hlow⟩ := hr
  rw [hf] at hrun hhead hopc hhigh hmid hlow
  have hvf : ¬ (target = true ∧ (cmdVf s 0 = 0 ∨ 2048 < cmdVf s 0 ∨ s.pkg.numVfs < cmdVf s 0)) := by
    rintro ⟨h, hbad⟩
    obtain ⟨hpos, hle, hnum⟩ := ht h
    omega
  simp [runCmd, hf, hrun, hhead, hopc, hhigh, hmid, hlow, hvf]

section Commands

variable {s : State} (hf : argN s 0 = 0)
include hf

/-! DOMJOIN (R256, R267). -/

section Domjoin

variable (hr : runsCmd s (argN s 0) 0x30) (hstep : (getVf s (argN s 0)).cmdStep = 0) (hoff : maskHas (foffer s) 9 = true)
include hr hstep hoff

theorem domjoin_leaves (h0 : cmdArg s (argN s 0) 0 = 0) (hbusy : domainBusy s = false) :
    let s1 := renumber s 0
    exec .domjoin s
      = .next (endCmd { s1 with pkg := { s1.pkg with inDom := false, domId := 0, members := 0 } } (argN s 0) 0) := by
  show execDomjoin s = _
  rw [execDomjoin, runCmd_pf false hr hf nofun]
  simp [hstep, hoff, h0, hbusy]

/-- A package that is in no domain joins at once where it is the only member, else after the agreement. -/
theorem domjoin_proceeds (h0 : cmdArg s (argN s 0) 0 ≠ 0)
    (hme : maskHas (cmdArg s (argN s 0) 1) (cmdArg s (argN s 0) 2 % 64) = true) (hin : s.pkg.inDom = false) :
    exec .domjoin s = .next (if others (cmdArg s (argN s 0) 1) (cmdArg s (argN s 0) 2 % 64) = []
      then joinDomain s (argN s 0) else awaitMembers s (argN s 0)) := by
  show execDomjoin s = _
  rw [execDomjoin, runCmd_pf false hr hf nofun]
  simp only [hstep, hoff, h0, hme, hin, ne_eq, not_true_eq_false, if_false, Bool.not_true, Bool.false_eq_true]

end Domjoin

/-- DOMKEY (R267): set at once where no other package is named, else after the agreement. -/
theorem domkey_proceeds (hr : runsCmd s (argN s 0) 0x31) (hvf : namesVf s) (hstep : (getVf s (argN s 0)).cmdStep = 0)
    (hoff : maskHas (foffer s) 9 = true) (hk : s.pkg.geuth.kdom = true) (hfeat : featOk s (cmdVf s (argN s 0)) 9 = true)
    (hslot : cmdArg s (argN s 0) 0 % 2 ^ 12 ≠ 0) (h2 : cmdArg s (argN s 0) 2 ≠ 0) (hin : s.pkg.inDom = true)
    (hme : maskHas (cmdArg s (argN s 0) 1) s.pkg.pkg = true)
    (hsub : cmdArg s (argN s 0) 1 &&& s.pkg.members = cmdArg s (argN s 0) 1) :
    exec .domkey s = .next (if others (cmdArg s (argN s 0) 1) s.pkg.pkg = [] then installDomKey s (argN s 0)
      else awaitMembers s (argN s 0)) := by
  show execDomkey s = _
  rw [execDomkey, runCmd_pf true hr hf fun _ => hvf]
  simp only [hstep, hoff, hk, hfeat, hslot, h2, hin, hme, hsub, ne_eq, not_true_eq_false, if_false, Bool.not_true,
    Bool.false_eq_true, or_self]

/-! GROUPSET (R262, R267). -/

section Groupset

variable (hr : runsCmd s (argN s 0) 0x32) (hstep : (getVf s (argN s 0)).cmdStep = 0) (hoff : maskHas (foffer s) 7 = true)
include hr hstep hoff

theorem groupset_proceeds (h48 : maskHas (cmdArg s (argN s 0) 0) 48 = false)
    (htab : tableBad s (readTable s (argN s 0)) (bits (cmdArg s (argN s 0) 0) 27 16) = false)
    (hg : (getGroup s (cmdArg s (argN s 0) 0 % 2 ^ 16)).valid = false) :
    let s1 := { s with pkg := { s.pkg with table := readTable s (argN s 0) } }
    exec .groupset s
      = .next (if tablePackages s1 = [] then installGroup s1 (argN s 0) else awaitMembers s1 (argN s 0)) := by
  show execGroupset s = _
  rw [execGroupset, runCmd_pf false hr hf nofun]
  simp only [hstep, hoff, h48, htab, hg, ne_eq, not_true_eq_false, if_false, Bool.not_true, Bool.false_eq_true]

theorem groupset_removes (h48 : maskHas (cmdArg s (argN s 0) 0) 48 = true)
    (hg : (getGroup s (cmdArg s (argN s 0) 0 % 2 ^ 16)).valid = true)
    (hbusy : groupBusy s (cmdArg s (argN s 0) 0 % 2 ^ 16) = false) :
    exec .groupset s = .next (endCmd
      { s with pkg := { s.pkg with groups := mapDel s.pkg.groups (cmdArg s (argN s 0) 0 % 2 ^ 16) } } (argN s 0) 0) := by
  show execGroupset s = _
  rw [execGroupset, runCmd_pf false hr hf nofun]
  simp only [hstep, hoff, h48, hg, hbusy, ne_eq, not_true_eq_false, if_false, if_true, Bool.not_true, Bool.false_eq_true]

end Groupset

/-! Queue pairs (R266, R267). -/

section QueuePair

variable (hvf : namesVf s) (hoff : maskHas (foffer s) 8 = true)
include hvf hoff

theorem qpcreate_creates (hr : runsCmd s (argN s 0) 0x33)
    (hd : qpBad (hostRead s (argN s 0) (cmdArg s (argN s 0) 1) 64) = false)
    (hroom : (s.pkg.qps.filter fun e => e.2.vf == cmdVf s (argN s 0)).length < 1024) :
    let f := argN s 0
    let n := freeQpn s
    exec .qpcreate s = .next (endCmd { s with
      mem := hostWrite s f (cmdArg s f 2) 8 n
      pkg := { s.pkg with
        qps := mapPut s.pkg.qps n { vf := cmdVf s f, desc := hostRead s f (cmdArg s f 1) 64 }
        nextQpn := (n + 1) % 2 ^ 24 } } f 0) := by
  show execQpcreate s = _
  rw [execQpcreate, runCmd_pf true hr hf fun _ => hvf]
  simp only [hoff, hd, Nat.not_le.2 hroom, if_false, Bool.not_true, Bool.false_eq_true]

theorem qpdestroy_destroys (hr : runsCmd s (argN s 0) 0x34)
    (hq : s.pkg.qps.any (fun e => e.1 == cmdArg s (argN s 0) 0 % 2 ^ 24) = true)
    (hown : (mapGet ({} : QPair) s.pkg.qps (cmdArg s (argN s 0) 0 % 2 ^ 24)).vf = cmdVf s (argN s 0)) :
    let f := argN s 0
    let q := cmdArg s f 0 % 2 ^ 24
    exec .qpdestroy s = .next (if qpBusy s q then waitCmd s f
      else endCmd { s with pkg := { s.pkg with qps := mapDel s.pkg.qps q } } f 0) := by
  show execQpdestroy s = _
  rw [execQpdestroy, runCmd_pf true hr hf fun _ => hvf]
  simp only [hoff, hq, hown, ne_eq, not_true_eq_false, if_false, Bool.not_true, Bool.false_eq_true, or_self]

end QueuePair

end Commands

/-- The numbers looked at for a new queue pair: one more than there are queue pairs, from the next one in turn. -/
def qpnCandidates (s : State) : List Nat :=
  (List.range ((s.pkg.qps.map (·.1)).length + 1)).map fun i => (s.pkg.nextQpn + i) % 2 ^ 24

/-- Fewer than 2^24 numbers in sequence differ modulo 2^24. -/
theorem nodup_qpnCandidates {s : State} (h : s.pkg.qps.length < 2 ^ 24) : (qpnCandidates s).Nodup := by
  refine List.pairwise_map.2 (List.nodup_range.imp_of_mem fun hi hj hij heq => hij ?_)
  simp only [List.length_map, List.mem_range] at hi hj
  omega

/-- Of one more numbers than there are queue pairs, one is free. -/
theorem exists_qpn_unused {s : State} (h : s.pkg.qps.length < 2 ^ 24) :
    ∃ n ∈ qpnCandidates s, n ∉ s.pkg.qps.map (·.1) := by
  apply Classical.byContradiction
  intro hall
  have hsub : qpnCandidates s ⊆ s.pkg.qps.map (·.1) :=
    fun n hn => Classical.byContradiction fun hfree => hall ⟨n, hn, hfree⟩
  have hle := (nodup_qpnCandidates h).length_le_of_subset hsub
  simp only [qpnCandidates, List.length_map, List.length_range] at hle
  omega

theorem freeQpn_unused {s : State} (h : s.pkg.qps.length < 2 ^ 24) :
    freeQpn s < 2 ^ 24 ∧ ∀ q ∈ s.pkg.qps, q.1 ≠ freeQpn s := by
  obtain ⟨n, hn, hfree⟩ := exists_qpn_unused h
  have hsome : ((qpnCandidates s).find? fun q => !(s.pkg.qps.map (·.1)).contains q).isSome = true :=
    List.find?_isSome.2 ⟨n, hn, by simpa using hfree⟩
  obtain ⟨m, hm⟩ := Option.isSome_iff_exists.1 hsome
  have hqpn : freeQpn s = m := congrArg (Option.getD · s.pkg.nextQpn) hm
  rw [hqpn]
  constructor
  · obtain ⟨i, -, rfl⟩ := List.mem_map.1 (List.mem_of_find?_eq_some hm)
    exact Nat.mod_lt _ (Nat.two_pow_pos 24)
  · have hunused : m ∉ s.pkg.qps.map (·.1) := by simpa using List.find?_some hm
    exact fun q hq hqm => hunused (hqm ▸ List.mem_map_of_mem hq)

/-! The agreement of other packages (R267). -/

theorem agreementTimeout_ends {s : State} (h : awaits s (argN s 0) = true) :
    exec .agreementTimeout s = .next (endAgree s (argN s 0) 9) := by
  show execAgreementTimeout s = _
  rw [execAgreementTimeout, if_pos h]

theorem memberAgreement_counts {s : State} (h : awaits s (argN s 0) = true) :
    exec .memberAgreement s = .next (agreeStep
      { s with pkg := { s.pkg with agreed := s.pkg.agreed ++ [(argN s 1, argN s 2)] } } (argN s 0)) := by
  show execMemberAgreement s = _
  simp [execMemberAgreement, h]

/-! Attestation and the flash (R403, R405). -/

theorem measurements_answers {s : State} (h : s.pkg.certs.contains (argN s 1) = true) :
    let n := argN s 0
    let d := draw s 0 0 (2 ^ 64 - 1)
    let hash := transcriptHash s n d.1
    exec .measurements s = .next { d.2 with
      pkg := { d.2.pkg with spdm := mapPut d.2.pkg.spdm n hash }
      out := d.2.out ++ [.spdm n 1 (measured s 1), .spdm n 2 (measured s 2), .spdm n 3 (measured s 3),
        .spdm n 4 (measured s 4), .spdm n 5 (measured s 5), .spdmSigned n d.1 (argN s 1) (Config.rsaSign hash).toNat] } := by
  show execMeasurements s = _
  simp only [execMeasurements, h, Bool.not_true, Bool.false_eq_true, if_false, List.append_assoc]
  rfl

theorem measurements_noSlot {s : State} (h : s.pkg.certs.contains (argN s 1) = false) : exec .measurements s = .next s := by
  show execMeasurements s = _
  simp only [execMeasurements, h, Bool.not_false, if_true]

theorem vendorDefinedRequest_signs {s : State} {h : Nat}
    (hf : s.pkg.spdm.find? (fun e => e.1 == argN s 0) = some (argN s 0, h)) :
    exec .vendorDefinedRequest s = .next { s with out := s.out ++ [.spdmSig (argN s 0) (Config.slhSign h).toNat] } := by
  show execVendorDefinedRequest s = _
  simp [execVendorDefinedRequest, hf]

theorem vendorDefinedRequest_unknown {s : State} (h : ∀ e ∈ s.pkg.spdm, e.1 ≠ argN s 0) :
    exec .vendorDefinedRequest s = .next s := by
  show execVendorDefinedRequest s = _
  have hnone : s.pkg.spdm.find? (fun e => e.1 == argN s 0) = none := List.find?_eq_none.2 (by simpa using h)
  simp [execVendorDefinedRequest, hnone]

theorem flashUpdate_rewrites {s : State} (hrec : s.pkg.recovery = true) (h3 : argN s 3 = 0) :
    exec .flashUpdate s = .next { s with pkg := { s.pkg with
      copies := s.pkg.copies.modify (argN s 0) fun c =>
        ({ rsa := argN s 1 == 1, slh := argN s 1 == 1, rsaKey := s.pkg.fuses.rsaKey, slhKey := s.pkg.fuses.slhKey
           svn := argN s 2, table := c.1.table }, c.2) } } := by
  show execFlashUpdate s = _
  simp [execFlashUpdate, hrec, h3]

theorem flashUpdate_outsideRecovery {s : State} (hrec : s.pkg.recovery = false) : exec .flashUpdate s = .next s := by
  show execFlashUpdate s = _
  simp [execFlashUpdate, hrec]

/-- Settles O50: the commands of the physical function by opcode, then the agreement of other packages, attestation and the
flash update. -/
theorem domainCommandsTakeEffect : Obligations.DomainCommandsTakeEffect := by
  intro s f a0 a1 me step0 slot tab s0
  refine ⟨fun opc hr hf => ⟨?domjoin, ?domkey, ?groupset, ?remove, ?qpcreate, ?qpdestroy⟩,
    fun h => ⟨agreementTimeout_ends h, memberAgreement_counts h⟩, measurements_answers, measurements_noSlot,
    fun h => vendorDefinedRequest_signs, vendorDefinedRequest_unknown, flashUpdate_rewrites, flashUpdate_outsideRecovery⟩
  case domjoin =>
    rintro rfl hstep hoff
    refine ⟨domjoin_leaves hf hr hstep hoff, fun h0 hme hin => ?_⟩
    have hset := domjoin_proceeds hf hr hstep hoff h0 hme hin
    exact ⟨fun hall => by rw [hset, if_pos hall], fun hall => by rw [hset, if_neg hall]⟩
  case domkey =>
    rintro rfl hvf hstep hoff hk hfeat hslot h2 hin hme hsub
    have hset := domkey_proceeds hf hr hvf hstep hoff hk hfeat hslot h2 hin hme hsub
    exact ⟨fun hall => by rw [hset, if_pos hall], fun hall => by rw [hset, if_neg hall]⟩
  case groupset =>
    rintro rfl hstep hoff h48 htab hg
    have hset := groupset_proceeds hf hr hstep hoff h48 htab hg
    exact ⟨fun hall => by rw [hset, if_pos hall], fun hall => by rw [hset, if_neg hall]⟩
  case remove =>
    rintro rfl
    exact groupset_removes hf hr
  case qpcreate =>
    rintro rfl hvf hoff d n hd hroom
    exact ⟨qpcreate_creates hf hvf hoff hr hd hroom, freeQpn_unused⟩
  case qpdestroy =>
    rintro rfl hvf hoff q hq hown
    have hend := qpdestroy_destroys hf hvf hoff hr hq hown
    exact ⟨fun hbusy => by rw [hend, if_pos hbusy], fun hbusy => by rw [hend, if_neg (ne_true_of_eq_false hbusy)]⟩

end Sys2Proof.Machine
end
